-- ==== Sys2Proof/Word.lean ====
section
/-!
DEFINITION. The word types of the block and the sparse tables its state is made of.
-/
namespace Sys2Proof

/-- A byte of a packet, of memory or of the configuration store. -/
abbrev Byte := BitVec 8

/-- A register word (00, Registers and signals: registers are 32 bits wide). -/
abbrev Word := BitVec 32

/-- A sparse table in rising key order: the rows that differ from the table's default row. -/
abbrev Tab (α : Type) := List (Nat × α)

/-- The row of a table at a key, or the default row. -/
def Tab.get {α : Type} (t : Tab α) (d : α) (k : Nat) : α :=
  match t with
  | [] => d
  | (j, a) :: r => if j = k then a else Tab.get r d k

/-- The row of a table at a key, if the table lists one. -/
def Tab.find {α : Type} (t : Tab α) (k : Nat) : Option α :=
  match t with
  | [] => none
  | (j, a) :: r => if j = k then some a else Tab.find r k

/-- The table with the row at a key removed. -/
def Tab.del {α : Type} (t : Tab α) (k : Nat) : Tab α :=
  match t with
  | [] => []
  | (j, a) :: r => if j = k then Tab.del r k else (j, a) :: Tab.del r k

/-- The table with a row put in at a key, in rising key order. -/
def Tab.ins {α : Type} (t : Tab α) (k : Nat) (v : α) : Tab α :=
  match t with
  | [] => [(k, v)]
  | (j, a) :: r =>
    if k < j then (k, v) :: (j, a) :: r
    else if j = k then (k, v) :: r
    else (j, a) :: Tab.ins r k v

/-- The table with a row set, the default row left unlisted. -/
def Tab.set {α : Type} [DecidableEq α] (t : Tab α) (d : α) (k : Nat) (v : α) : Tab α :=
  if v = d then Tab.del t k else Tab.ins t k v

/-- Bits `hi` down to `lo` of a number. -/
def bits (n hi lo : Nat) : Nat := (n / 2 ^ lo) % 2 ^ (hi + 1 - lo)

/-- Bit `i` of a number. -/
def bit (n i : Nat) : Bool := (n / 2 ^ i) % 2 == 1

/-- A flag as a number, for packing into a word. -/
def b2n (b : Bool) : Nat := if b then 1 else 0

/-- Division that rounds up. -/
def ceilDiv (a b : Nat) : Nat := (a + b - 1) / b

end Sys2Proof
end

