-- ==== Sys2Proof/Syntax.lean ====
section
/-!
DEFINITION. The commands of the block: one constructor of `Instr` for each row of spec/opcode_table.json, with the
operands that the environment gives with it (the table gives a row no operands; notes/assumptions/2).
-/
namespace Sys2Proof

/-- A VRMT packet as its header fields (03 Table 3-3); the opcode is the command's. The payload's length is the
header's payload length, which the UDP length check of R58 has already matched. -/
structure Packet where
  port : Nat              -- logical host port it arrived on
  src : BitVec 128        -- IP source address, IPv4 as ::ffff:a.b.c.d
  sport : Nat             -- UDP source port
  cls : Nat               -- class, Table 3-5
  flags : BitVec 16       -- Table 3-4
  conn : BitVec 24        -- connection ID field
  hint : Nat              -- port hint
  psn : BitVec 32
  msgId : Nat
  index : Nat             -- packet index
  count : Nat             -- packet count
  key : BitVec 32         -- region key
  offset : Nat            -- 48-bit byte offset
  opField : BitVec 32     -- operation field
  payload : List Byte
  deriving DecidableEq, Repr

/-- A management session (15 R375): the I2C target or one MGMT connection. -/
inductive Session where
  | i2c
  | mgmt (conn : Nat)
  deriving DecidableEq, Repr

/-- A session operation of Table 15-4: over I2C its data stand in SEC_I2C_DATA, over MGMT in the packet. -/
inductive SesReq where
  | i2c
  | mgmt (p : Packet)
  deriving DecidableEq, Repr

/-- A frame that reached a host port or a Syzygy link, with what the port and XPT check of it (03 R54 to R59, 12 R296). -/
structure Frame where
  host : Bool             -- a host port (else a Syzygy link)
  port : Nat              -- logical port, or link
  fecOk : Bool
  fcsOk : Bool
  length : Nat            -- bytes of the frame
  vlan : Option Nat       -- VID of its 802.1Q tag
  pfc : Bool
  etherType : Nat
  dstOk : Bool            -- its destination address is the unit's (a service address on a host port)
  v6 : Bool
  extended : Bool         -- an IPv6 extension header, or IPv4 options
  fragment : Bool
  udp : Bool
  dport : Nat
  cksumZero : Bool
  cksumOk : Bool
  src : BitVec 128
  sport : Nat
  bytes : List Byte       -- UDP payload, or the Syzygy packet
  deriving DecidableEq, Repr

/-- One line operation that waits at a bank's hub port: connection, first PSN and line index of its message. -/
structure LineReq where
  hub : Nat
  conn : Nat
  psn : BitVec 32
  idx : Nat
  errs : List (Nat × Byte)  -- symbols in error of the DRAM burst that a narrow write reads (11 R281)
  arr : Nat               -- array error met at its cached line (07 R186): 0 none, 1 single-bit, 2 multi-bit, 3 tag parity
  deriving DecidableEq, Repr

/-- Agents of the buffer pool (06 R163). -/
inductive Agent where
  | xpt
  | comet (n : Nat)
  | syz
  | str
  | pgm
  | mirrorPath            -- the Syzygy engine's mirror path, a sharer in compatibility mode
  deriving DecidableEq, Repr

/-- A chain handle: head cell index and its 8-bit generation (06 R157). -/
structure Handle where
  head : Nat
  gen : Nat
  deriving DecidableEq, Repr

/-- Levels at which a comet steals (06 R150). -/
inductive StealLevel where
  | block
  | region
  | chip
  deriving DecidableEq, Repr

/-- A fenced unit whose work is re-homed (06 R152, R153). -/
inductive FencedUnit where
  | comet (n : Nat)
  | block (b : Nat)
  deriving DecidableEq, Repr

/-- Chip agents that a chip fault names (16 Table 16-3). -/
inductive ChipAgent where
  | xptTables
  | overlapGuard
  | bpmLinkRam
  | regionTable
  | pendingDelta
  | chipHub
  deriving DecidableEq, Repr

/-- The two causes of a watchdog expiry (16 R403). -/
inductive WdtCause where
  | noService
  | refclkLost
  deriving DecidableEq, Repr

/-- The operands of a cache maintenance operation, as LCC_MAINT, LCC_MAINT_BASE and LCC_MAINT_LEN hold them (07 R178). -/
structure MaintReq where
  setWay : Bool           -- MODE: 0 by range, 1 by set and way
  force : Bool
  all : Bool
  bank : Nat
  set : Nat
  way : Nat
  base : Nat              -- first persistent line number
  len : Nat               -- lines
  deriving DecidableEq, Repr

/-- How an NVMe command ended (09 R224, R231, R249). -/
inductive NvmeStatus where
  | success
  | mediaError
  | conflict              -- Reservation Conflict
  | failed
  deriving DecidableEq, Repr

/-- PCIe AER errors (09 R222). -/
inductive AerKind where
  | correctable
  | nonFatal (cid : Nat)
  | fatal
  deriving DecidableEq, Repr

/-- A member label (09 Table 9-3). -/
structure Label where
  setId : BitVec 64
  set : Nat
  gen : Nat
  layout : Nat
  n : Nat
  pos : Nat
  fg : List Nat           -- for each position, its failure group
  serials : List Nat      -- and the serial number of its drive
  z : Nat                 -- smallest namespace of the members, in LBAs
  deriving DecidableEq, Repr

/-- What a drive reports on the way to readiness (09 R226, R228). -/
structure DriveInfo where
  multiPort : Bool
  reservations : Bool
  nsOk : Bool             -- namespace 1 exists
  lba4k : Bool            -- active format 4 KiB data, no metadata
  queues : Nat            -- I/O queue pairs granted
  serial : Nat
  size : Nat              -- namespace size in LBAs
  label : Option Label
  warn : Nat              -- Critical Warning of its SMART / Health log
  deriving DecidableEq, Repr

/-- Words of a map node or of the root, by entry: an entry that is not listed is the word 0. -/
abbrev NodeWords := List (Nat × Nat)

/-- What a scan read of one slot (09 R247): the common part of its header, and which positions hold it whole. -/
structure FoundStripe where
  slot : Nat
  seq : Nat
  map : Bool              -- kind MAP
  present : Nat           -- present mask
  good : Nat              -- positions whose header block has a valid block CRC and this common part
  solvable : Bool         -- every sector matches its CRC or can be reconstructed within T
  cols : List (Nat × Nat × Nat)   -- DATA: column, page and the page's new leaf entry
  nodes : List (Nat × Nat)        -- MAP: place (16 × column + sector) and node, as the node list numbers them
  deriving DecidableEq, Repr

/-- A stripe journal record (09 Table 9-5). -/
structure JRec where
  type : Nat              -- 1 OPEN, 2 COMMIT, 3 CHECKPOINT, 4 MARK, 5 FREE
  count : Nat             -- entries used in the body
  seq : Nat               -- record sequence
  stripe : Nat            -- stripe sequence of a COMMIT, C of a CHECKPOINT, else 0
  slot : Nat              -- slot index of a COMMIT, segment of an OPEN or FREE, else 0
  body : List Byte
  deriving DecidableEq, Repr

/-- What a set's journal check and slot scan read (09 R243, R247). -/
structure ScanInfo where
  recs : Option (List JRec)   -- the good records of the copy used, from the latest checkpoint on; none: both copies unreadable
  seals : List (List Byte)    -- the 4 KiB blocks read from the seal slots
  used : List Nat             -- segments that are not FREE, as the journal and the map show them
  found : List FoundStripe
  deriving DecidableEq, Repr

/-- What one patrol visit found (09 Table 9-8). -/
inductive PatrolFinding where
  | agree
  | headerBad (pos : Nat)
  | sectorsBad (pos : Nat)
  | parityDisagrees
  | mirrorDiffers (col : Nat)
  | tooMany (lost : List (Nat × Nat))   -- live page and sector that stay unknown after R253
  deriving DecidableEq, Repr

/-- The DIMM population of a channel (10 R257). -/
structure Population where
  dimms : Nat
  ranks : Nat
  stack : Nat
  width : Nat             -- 4 or 8
  density : Nat           -- code of Table 14-12
  capGiB : Nat
  deriving DecidableEq, Repr

/-- A DIMM as its SPD describes it (10 R256, Table 10-1). -/
structure Dimm where
  slot : Nat
  registered : Bool       -- RDIMM or 3DS RDIMM
  stack : Nat             -- dies of a 3DS stack; 1 where there is none
  checkBits : Nat         -- check bits of a subchannel
  width : Nat             -- device width
  gbit : Nat              -- device density
  ranks : Nat             -- package ranks
  capGiB : Nat
  speed : Option Nat      -- the highest speed code of Table 17-4 that it allows
  serial : Nat
  deriving DecidableEq, Repr

/-- What a sweep found and chose on one byte lane of one rank (10 R265, R266): delays, eye widths in 1/64 UI, Vref. -/
structure LaneEye where
  rdDelay : Nat
  wrDelay : Nat
  rdEye : Nat
  wrEye : Nat
  rdVref : Nat
  wrVref : Nat
  deriving DecidableEq, Repr

/-- What S4 learns of one channel: its DIMMs and what training found, lane by lane of each package rank (10 R256 to R266). -/
structure ChanTrain where
  ch : Nat
  dimms : List Dimm
  rows : Nat                            -- rows of a bank
  rfm : Option Nat                      -- the RFM threshold of MR58, where it reports RFM required (10 R272)
  ranks : List (List LaneEye)
  deriving DecidableEq, Repr

/-- Margin helpers of Table 10-4. -/
structure MarginReq where
  ch : Nat
  lane : Nat
  rank : Nat
  deriving DecidableEq, Repr

/-- What a margin helper measured (10 R267). -/
structure MarginResult where
  width : Nat
  height : Nat
  errors : Nat
  map : List Word
  deriving DecidableEq, Repr

/-- The header of a Syzygy frame (12 Table 12-2) and the link it arrived on. -/
structure SyzHead where
  link : Nat
  sender : BitVec 32
  seq : BitVec 32
  epoch : BitVec 32
  deriving DecidableEq, Repr

/-- A journal entry (12 Table 12-4). -/
structure JEntry where
  kind : Nat              -- 1 DATA, 2 LINE, 3 WORD, 4 REGION
  pos : Nat               -- journal position
  addr : Nat              -- persistent byte address, or region index
  mask : BitVec 64        -- LINE: valid bytes
  data : List Byte
  deriving DecidableEq, Repr

/-- The payload of a ROLE frame (12 Table 12-5). -/
structure RoleMsg where
  lastRole : Nat
  sealed : Bool           -- own seal written at last stop
  ringKept : Bool
  mode : Nat
  refuse : Nat            -- bitmap of causes
  ring : Nat
  mirror : Nat
  pos : Nat
  writer : BitVec 64
  deriving DecidableEq, Repr

/-- What a drive's reservation report says (12 R459): the drive port and the holder's writer ID, if any. -/
structure Holder where
  drive : Nat
  key : Option (BitVec 64)
  deriving DecidableEq, Repr

/-- Units that an SRAM self-test at S3 finds failing (14 Table 14-4). -/
inductive SramFail where
  | chip
  | block (b : Nat)
  | region (r : Nat)
  deriving DecidableEq, Repr

/-- One rail's configuration (13 Table 13-2). -/
structure RailCfg where
  monEn : Bool
  uvFault : Nat
  uvWarn : Nat
  ovWarn : Nat
  ovFault : Nat
  offLevel : Nat
  filt : Nat              -- 1 to 16
  actUv : Nat             -- 0 NONE, 1 ECLIPSE, 2 FAULT, 3 EOFF
  actOv : Nat
  dram : Bool             -- CLASS
  upState : Nat           -- 0 to 15, 31 NONE
  downState : Nat
  deriving DecidableEq, Repr

/-- The bounds the power table gives a rail's fields (13 R323). -/
structure RailBounds where
  uvFault : Nat × Nat
  uvWarn : Nat × Nat
  ovWarn : Nat × Nat
  ovFault : Nat × Nat
  filt : Nat × Nat
  maskUv : Nat
  maskOv : Nat
  deriving DecidableEq, Repr

/-- A reset output's configuration (13 R329). -/
structure RstCfg where
  release : Nat
  assert : Nat
  stretch : Nat           -- ms
  holdSeq : Bool
  onFault : Bool
  deriving DecidableEq, Repr

/-- The maker's power table (13 R323): rails 0 to 15 and VIN_SNS as 16, reset outputs and the master bit. -/
structure PowerTable where
  rails : List (RailCfg × RailBounds)
  resets : List RstCfg
  master : Bool
  deriving DecidableEq, Repr

/-- JTAG TAP instructions (15 R386). -/
inductive TapInstr where
  | bypass
  | idcode
  | sample
  | extest
  | extestPulse
  | extestTrain
  | debug (code : Nat)
  deriving DecidableEq, Repr

/-- The alternating areas of the configuration store (14 R348). -/
inductive StoreArea where
  | remap
  | power
  deriving DecidableEq, Repr

/-- The commands of the block, in the order of spec/opcode_table.json. -/
inductive Instr where
  | write (p : Packet)
  | readReq (p : Packet)
  | atomicAdd (p : Packet)
  | atomicCas (p : Packet)
  | flush (p : Packet)
  | ack (p : Packet)
  | window (p : Packet)
  | connect (p : Packet)
  | disconnect (p : Packet)
  | keepalive (p : Packet)
  | mgmtRead (p : Packet)
  | mgmtWrite (p : Packet)
  | subscribe (p : Packet)
  | unsubscribe (p : Packet)
  | hello (q : SesReq)
  | prove (q : SesReq)
  | drop (q : SesReq)
  | neighborSolicitation (port : Nat) (target : BitVec 128)
  | arpRequest (port : Nat) (target : BitVec 32)
  | icmpEcho (port : Nat) (src : BitVec 128) (head : BitVec 32) (data : List Byte)
  | mldQuery (port : Nat)
  | pause (port : Nat) (quanta : Nat)
  | discardedFrame (f : Frame)
  | ackTimerExpiry (c : Nat)
  | retransmitTimeout (c : Nat)
  | keepaliveInterval (c : Nat)
  | keepaliveTimeout (c : Nat)
  | openingTimeout (c : Nat)
  | closingTimeout (c : Nat)
  | connEnd (ses : Session) (c : Nat)
  | tktMingenWrite (ses : Session) (g : Nat) (v : Word)
  | messageStart (comet : Nat)
  | egressReservationRetry
  | lineOperationAccepted (bank : Nat) (reqs : List LineReq)
  | atomicUnitResult (bank : Nat) (line : Nat) (errs : List (Nat × Byte))
  | stealRequest (comet : Nat)
  | stealRetry (comet : Nat)
  | stealGrant (level : StealLevel) (arbiter : Nat)
  | urgencyAgeExpiry (c : Nat) (psn : BitVec 32)
  | urgentTake (comet : Nat)
  | cometFence (comet : Nat) (cause : Nat)
  | cometContextStall (comet : Nat)
  | rehome (u : FencedUnit)
  | blockHeartbeatLoss (b : Nat)
  | blockFence (b : Nat) (cause : Nat)
  | regionHeartbeatLoss (r : Nat)
  | regionFence (r : Nat) (cause : Nat)
  | chipAgentFault (agent : ChipAgent)
  | watchdogExpiry (cause : WdtCause)
  | allocate (ag : Agent) (pool : Nat) (group : Nat) (n : Nat)
  | append (ag : Agent) (h : Handle) (n : Nat)
  | hand (ag : Agent) (h : Handle) (heir : Agent)
  | share (ag : Agent) (h : Handle) (sharers : List Agent) (last : Agent)
  | release (ag : Agent) (h : Handle)
  | free (ag : Agent) (h : Handle)
  | editClaim (ses : Session)
  | editRelease (ses : Session)
  | editClaimTimeout
  | rgnRead (ses : Session) (idx : Nat)
  | rgnCreate (ses : Session) (idx : Nat)
  | rgnModify (ses : Session) (idx : Nat)
  | rgnRotate (ses : Session) (idx : Nat)
  | rgnRemove (ses : Session) (idx : Nat)
  | refusedCommand (ses : Session) (idx : Nat) (code : Nat)
  | checkEventIntervalEnd
  | clean (ses : Session) (m : MaintReq)
  | invalidate (ses : Session) (m : MaintReq)
  | cleanInvalidate (ses : Session) (m : MaintReq)
  | preload (ses : Session) (m : MaintReq)
  | maintenanceComplete (arr : List (Nat × Nat)) (errs : List (Nat × List (Nat × Byte)))
  | cacheEnableWrite (ses : Session) (en : Bool)
  | lockWaysWrite (ses : Session) (n : Nat)
  | cacheFillReturn (bank : Nat) (errs : List (Nat × Byte))
  | writeThroughDrain (bank : Nat)
  | fetchComplete (page : Nat) (bad : List Nat) (fixed : List Nat) (time : Nat) (errs : List (Nat × List (Nat × Byte)))
  | destageChoose (set : Nat) (errs : List (Nat × List (Nat × Byte)))
  | stripeWaitExpiry (set : Nat)
  | stripeSealed (set : Nat)
  | stripeWriteAbandoned (set : Nat)
  | evictionConfirmed (page : Nat)
  | coldHoldExpiry (page : Nat)
  | mapNodeLoaded (level : Nat) (idx : Nat) (tries : List NodeWords)
  | drivePresenceChange (d : Nat) (present : Bool)
  | perstDelayExpiry
  | driveLinkChange (d : Nat) (up : Bool) (width : Nat) (rate : Nat) (flit : Bool)
  | pcieAerError (d : Nat) (k : AerKind)
  | linkRetrainTimeout (d : Nat)
  | nvmeCommandComplete (d : Nat) (cid : Nat) (st : NvmeStatus)
  | nvmeCommandTimeout (d : Nat) (cid : Nat)
  | controllerReadyTimeout (d : Nat)
  | nvmeAsyncEvent (d : Nat) (warning : Nat)
  | smartPoll (warnings : List (Nat × Nat))
  | driveReady (d : Nat) (info : DriveInfo)
  | setScanComplete (set : Nat) (info : ScanInfo)
  | readyWaitExpiry (set : Nat)
  | journalPositionReplace (set : Nat)
  | rebuildDelayExpiry (set : Nat)
  | rebuild (ses : Session) (set : Nat) (pos : Nat) (d : Nat)
  | rebuildForce (ses : Session) (set : Nat) (pos : Nat) (d : Nat)
  | rebuildComplete (set : Nat)
  | form (ses : Session) (set : Nat)
  | checkpointWritten
  | patrolVisit (set : Nat) (slot : Nat) (finding : PatrolFinding) (lapEnd : Option Nat)
  | dimmTempPoll (readings : List (Nat × Nat × Int))
  | mr4Poll (doubled : List (Nat × Nat))
  | refreshDue (ch : Nat) (rank : Nat) (elapsed : Nat)
  | refreshForced (ch : Nat) (rank : Nat)
  | writeQueueAgeExpiry (ch : Nat)
  | rdWindowEnd
  | rdSpacingExpiry (ch : Nat) (c : Nat) (bank : Nat)
  | frequencyChange (ses : Session) (target : Nat)
  | channelFrequencyDone (ranks : List (List LaneEye))
  | readProbe (ses : Session) (m : MarginReq)
  | pattern (ses : Session) (m : MarginReq)
  | patternFull (ses : Session) (m : MarginReq)
  | eyeSweep (ses : Session) (m : MarginReq)
  | caSweep (ses : Session) (m : MarginReq)
  | marginHelperDone (ch : Nat) (r : MarginResult)
  | repairEnd (line : Nat) (stored : Bool)
  | scrubRead (ch : Nat) (errs : List (Nat × Byte))
  | remapClear (ses : Session) (mask : Nat)
  | journal (h : SyzHead) (es : List JEntry)
  | journalAck (h : SyzHead) (pos : Nat) (cum : BitVec 32) (credit : Nat)
  | heartbeat (h : SyzHead) (state : Nat) (role : Nat) (caughtUp : Bool) (eclipse : Bool) (pos : Nat)
  | mirrorWrite (h : SyzHead) (es : List JEntry)
  | mirrorFetch (h : SyzHead) (addr : Nat) (size : Nat) (tag : Nat)
  | fetchResp (h : SyzHead) (tag : Nat) (source : Nat) (mask : Nat) (data : List Byte)
  | sealNoteRelease (h : SyzHead) (pos : Nat)
  | sealNoteEclipse (h : SyzHead)
  | sealNoteSealed (h : SyzHead) (last : Nat) (seq : Nat)
  | roleStart (h : SyzHead) (m : RoleMsg) (state : Nat) (caughtUp : Bool)
  | roleJoin (h : SyzHead) (m : RoleMsg)
  | roleCaughtUp (h : SyzHead)
  | roleTakeover (h : SyzHead)
  | roleSwitchGo (h : SyzHead) (last : Nat)
  | roleRefuse (h : SyzHead) (causes : Nat)
  | heartbeatInterval
  | heartbeatLoss
  | syzRetransmitTimeout
  | syzLinkChange (link : Nat) (up : Bool)
  | soloWaitExpiry (hs : List Holder)
  | reservationCheck (hs : List Holder)
  | fenceLimitExpiry
  | preemptComplete
  | sealSearchComplete (blocks : List (List Byte))
  | sealWaitExpiry
  | takeoverActive
  | replayComplete
  | eclipseTimeout
  | joinWaitExpiry (hs : List Holder)
  | twinFenceInChange (asserted : Bool)
  | switchover (ses : Session)
  | railSample (codes : List Nat)
  | pwrFail
  | pwrGoodIn
  | aonResetRelease (straps : Nat)
  | startPulse (us : Nat)
  | seqSyncRise
  | sequenceFault
  | resetStretchExpiry (j : Nat)
  | e2LimitExpiry
  | e2Complete
  | e3Complete
  | drainComplete
  | sealWritten
  | downSequenceEnd
  | inputReturned
  | drainRateSecond
  | sfdpReadComplete (ok : Bool)
  | imageReadComplete (slot : Nat)
  | sramInitComplete (fails : List SramFail)
  | trainingComplete (rs : List ChanTrain)
  | hostLinkChange (port : Nat) (up : Bool)
  | portWaitExpiry
  | maintenanceModeAlternate
  | restart (ses : Session)
  | clampClr (ses : Session)
  | stageBegin (ses : Session)
  | stageWrite (ses : Session)
  | stageCommit (ses : Session)
  | stageAbort (ses : Session)
  | stageOperationComplete
  | stageTimeout
  | flashRecordWritten
  | challengeExpiry (ses : Session)
  | lockoutExpiry (src : Option (BitVec 128))
  | i2cRoleTimeout
  | powerTable (ses : Session) (t : PowerTable)
  | mac (ses : Session) (m : BitVec 48)
  | rootHash (ses : Session) (h : BitVec 384)
  | lock (ses : Session)
  | unlock (ses : Session)
  | disableForever (ses : Session)
  | ticketKeyLoad (ses : Session) (slot : Nat)
  | ticketKeyClear (ses : Session) (slot : Nat)
  | attestationGo (ses : Session)
  | attestationDone
  | recorderBlockCopy
  | archiveRead (ses : Session) (partner : Bool)
  | archiveReadDone (words : Option (List Word))
  | floodWindowEnd
  | alertClear (ses : Session)
  | evrCursorWrite (ses : Session) (v : Word)
  | latchingRead (ses : Session) (addr : Nat)
  | clearingRead (ses : Session) (addr : Nat)
  | i2cWrite (bytes : List Byte) (pec : Option Byte)
  | i2cRead (addrBytes : List Byte) (words : Nat)
  | i2cTimeout
  | registerWrite (ses : Session) (addr : Nat) (v : Word)
  | alwaysOnSupplyLoss
  | driveShutdownComplete (d : Nat)
  | drvPerstPulseExpiry (d : Nat)
  | rdThrottleMinExpiry (ch : Nat) (c : Nat) (bank : Nat)
  | tapInstruction (t : TapInstr)
  | backgroundEraseComplete (a : StoreArea)
  | returnStableWaitExpiry
  | minOffExpiry
  deriving DecidableEq, Repr

end Sys2Proof
end

