-- ==== Sys2Proof/Config.lean ====
section
/-!
DEFINITION. What the spec leaves open: free values, and the cryptographic functions of brainpoolP384r1 and SHA-384.
Each is a constant with no body, so no proof can see a value of it.
-/
namespace Sys2Proof.Config

/-- A draw of the TRNG (03 R68, 15 R376), numbered by the counter of the state (log 5). FREE VALUE. -/
opaque trng : Nat → Nat

/-- The value of a register word whose layout or content spec/ does not give, by address and draw (log 17). FREE VALUE. -/
opaque openWord : Nat → Nat → BitVec 32

/-- A register word of which spec/ gives the contents and not the layout, by address and contents (log 17). FREE VALUE. -/
opaque statusWord : Nat → List Nat → BitVec 32

/-- The code of a payload item whose codes spec/ does not list, by item and case (log 31). FREE VALUE. -/
opaque openCode : Nat → Nat → BitVec 8

/-- The SHA-384 of a byte string (log 6). -/
opaque sha384 : List (BitVec 8) → BitVec 384

/-- Whether an ECDSA signature on brainpoolP384r1 with SHA-384 verifies: public key, message, r and s (log 6). -/
opaque ecdsaVerify : List (BitVec 8) → List (BitVec 8) → List (BitVec 8) → Bool

/-- Whether an ECDSA signature over a message verifies under a root key whose SHA-384 is the one given (15 R374, log 6). -/
opaque rootVerify : BitVec 384 → List (BitVec 8) → List (BitVec 8) → Bool

/-- The power table that SEC_PROV_DATA spells, if it spells one: spec/ gives it no layout (15 R380, log 41). -/
opaque provTable : List (BitVec 32) → Option PowerTable

/-- The base MAC address that SEC_PROV_DATA spells (15 R380, log 41). -/
opaque provMac : List (BitVec 32) → BitVec 48

/-- The root key hash that SEC_PROV_DATA spells (15 R380, log 41). -/
opaque provHash : List (BitVec 32) → BitVec 384

/-- The signature, r then s, that the identity key of a draw makes over a message (log 6). -/
opaque ecdsaSign : Nat → List (BitVec 8) → BitVec 768

/-- The public key of the identity key pair that LOCK draws (15 R382, log 6). -/
opaque identityPub : Nat → BitVec 768

/-- Whether 96 bytes are a point of the curve (14 R361, 15 R383, log 6). -/
opaque onCurve : List (BitVec 8) → Bool

/-- Whether the wrap of the identity key opens at a start, by boot count (15 R382, log 6). FREE VALUE. -/
opaque wrapOpens : Nat → Bool

/-- The estimate in µs of the replay time that remains (12 R311, log 19). FREE VALUE. -/
opaque replayEstimate : Nat → Nat

/-- Which of its residency words a full translation cache gives up, by draw (08 R191). FREE VALUE. -/
opaque tcacheVictim : Nat → Nat

/-- A byte of a chunk on the drives that this unit has not written, by persistent byte address and draw (09 R243, R247).
FREE VALUE. -/
opaque foundByte : Nat → Nat → BitVec 8

end Sys2Proof.Config
end

