-- ==== Sys2Proof/Machine/Types.lean ====
section
/-!
DEFINITION. The plain data that the units of the block hold: states, table entries and queue entries, with the names
that the chapters of spec/ give them.
-/
namespace Sys2Proof.Machine

/-- Sparse memory in canonical form: addresses strictly rising, no entry equal to what an unlisted address reads as. -/
abbrev Memory := List Host.Cell

/-- Device states (00 Table 0-6). -/
inductive DevState where
  | off | start | maintenance | umbra | takeover | active | eclipse | sealed | fault
  deriving DecidableEq, Repr

/-- Twin roles (12 R294). -/
inductive TwinRole where
  | none | active | umbra | fenced
  deriving DecidableEq, Repr

/-- Pair states of the active unit (12 Table 12-1). -/
inductive PairState where
  | noTwin | catchingUp | paired | inDoubt | solo
  deriving DecidableEq, Repr

/-- Connection states (03 Table 3-15); a FREE connection is not listed. -/
inductive ConnState where
  | opening | established | closing | aborting
  deriving DecidableEq, Repr

/-- Message states (04 Table 4-1); an ABSENT message is not listed, a REFUSED one leaves at once. -/
inductive MsgState where
  | partialMsg | complete | executing
  deriving DecidableEq, Repr

/-- A device packet (03 Table 3-3), sent or held until it is acknowledged (R71). -/
structure DevPkt where
  cls : Nat                 -- class (03 Table 3-5)
  conn : Nat
  op : Nat
  psn : Nat
  msgId : Nat
  index : Nat
  count : Nat
  key : Nat
  offset : Nat
  opField : Nat
  payload : List Byte
  chain : Option Handle     -- its host-egress cells
  retry : Bool
  port : Nat                -- the logical port it last went out on
  turn : Option Nat         -- its turn among the packets that wait for cells (06 Table 6-3)
  deriving DecidableEq, Repr

/-- A message of a connection: its message-table entry (04 R91), its guard entry (06 R142) and its context record (06 R141). -/
structure Msg where
  op : Nat
  id : Nat
  first : Nat               -- first PSN
  count : Nat
  bitmap : Nat              -- packets placed
  parts : Tab (List Byte)   -- payload of each packet placed
  start : Nat               -- derived start offset (03 R62)
  len : Nat                 -- M, read length, or 8
  flags : Nat
  opField : Nat
  key : Nat
  resp : Nat                -- READ_RESP packet size (03 R64)
  hint : Nat
  arrived : Nat             -- ns
  checked : Bool            -- some packet of it has passed its key checks (06 R143)
  region : Nat              -- region index
  old : Bool                -- its last key check used the entry before the last commit (05 R132)
  base : Nat                -- persistent byte address of its first byte
  pair : Bool               -- policy of its last key check (05 R125)
  mirror : Bool
  comet : Nat
  charge : Nat              -- comet charged for its ingress cells (06 R161)
  chains : Tab Handle       -- ingress chain of each packet's payload
  egress : List Handle      -- egress cells reserved, one chain for each response packet
  needCells : List Nat      -- cells of each response packet still to be reserved (06 R158)
  st : MsgState
  guarded : Bool            -- holds a guard entry
  waited : Bool             -- counted in GUARD_FULL_CNT
  ready : Option Nat        -- the time it became ready (06 R146)
  urgent : Bool
  started : Bool            -- passed its start stage
  parked : Bool             -- has given its context up (06 R138)
  stalls : List Nat         -- stall causes it is counted in (08 R219)
  done : Nat                -- line operations that have taken effect, by bit
  busy : Nat                -- line operations a bank or the page manager holds, by bit
  got : Tab (List Byte)     -- bytes fixed, by line index
  held : Nat                -- journal position its response waits for (02 R44), 0 none
  holds : Nat               -- journal entries its response waits for that have no position yet
  posted : Nat              -- packets whose DATA entry has its position, by bit
  bad : Option (Nat × Nat)  -- lowest line index refused, and its NAK code (03 R86)
  lost : Nat                -- lines refused under 02 R50, by bit
  pos : Nat                 -- last journal position that carries its bytes, 0 none
  owed : Nat                -- LINE entries of its lines that have no position yet
  dup : Option Nat          -- a READ_REQ re-executed for a duplicate (04 R99): the PSN its response names
  prior : List Byte         -- an atomic's prior value
  stored : Bool             -- an atomic stored
  probed : Bool             -- its deadline probe has been made (04 R109)
  ddl : Option Nat          -- default deadline of the entry that it passed its checks against, µs (05 R127, R133)
  pairWaits : Nat           -- lines counted in LCC_PAIRFULL_CNT, by bit (07 R174)
  deriving DecidableEq, Repr

/-- A write or atomic that later FLUSHes of its connection cover (04 Table 4-4). -/
structure Covered where
  psn : Nat
  pair : Bool
  mirror : Bool
  pos : Nat                 -- journal position awaited, 0 none
  owed : Nat                -- LINE entries still without a position
  stamp : Nat               -- write stamp that a seal must reach
  pages : List Nat
  deriving DecidableEq, Repr

/-- A FLUSH, or a DURABLE WRITE's answer, that waits (04 R105, R107). -/
structure FlushWait where
  psn : Nat
  comet : Nat               -- message-table entry (04 R91): comet, packet count and bitmap
  count : Nat
  bitmap : Nat
  level : Nat
  msgId : Nat
  key : Nat
  offset : Nat
  turn : Nat                -- order of arrival among the FLUSHes of the chip
  stalled : Bool            -- counted under cause drives not ready (08 R216, R219)
  deriving DecidableEq, Repr

/-- An entry of the refusal record (04 R97), or a refusal whose NAK is still due in `copies` copies (R96). -/
structure RefusedMsg where
  first : Nat
  last : Nat
  msgId : Nat
  key : Nat
  code : Nat
  hint : Nat
  offset : Nat
  copies : Nat
  deriving DecidableEq, Repr

/-- An entry of the atomic result cache (04 R100). -/
structure AtomicResult where
  psn : Nat
  op : Nat
  msgId : Nat
  key : Nat
  offset : Nat
  prior : List Byte
  deriving DecidableEq, Repr

/-- A connection that is not FREE (03 R77). -/
structure Conn where
  st : ConnState
  mgmt : Bool
  home : Nat
  group : Nat
  tktGen : Nat
  host : BitVec 128
  sport : Nat
  nonce : List Byte
  ka : Nat                  -- keepalive granted, ms
  cum : Nat                 -- cumulative PSN received
  frontier : Nat            -- guard frontier F (06 R143)
  placed : Tab Nat          -- payload bytes of the PSNs placed beyond it
  settled : List Nat        -- PSNs beyond it that an ACK may cover
  ackCum : Nat              -- last ACK: cumulative PSN, bitmap, windows
  ackMap : Nat
  adv : List (Nat × Nat × Nat)   -- windows advertised with their time, newest first
  wp : Nat                  -- packet window W_P
  noBuffer : Bool           -- a NO_BUFFER since the last ACK
  newly : Nat               -- packets newly coverable since the last ACK
  malformed : Nat           -- packet-scope MALFORMED since the cumulative PSN advanced
  respPsn : Nat             -- PSN of the CONNECT_RESP (device initial PSN)
  resp : List Byte          -- its payload, sent again for a repeated CONNECT
  tx : Nat                  -- last device PSN assigned
  behind : List DevPkt      -- control packets that wait for its first NOTIFY (03 R88), oldest first
  hostCum : Nat
  hostMap : Nat
  hostWp : Nat
  hostWb : Nat
  held : List DevPkt        -- sent and not acknowledged, in PSN order
  wait : List DevPkt        -- built and waiting for the host's window or for cells
  expiries : Nat
  hint : Nat
  ports : List (Nat × Nat)  -- ports received on, with the time
  connPort : Nat
  rr : Nat                  -- the port it last sent on: round-robin goes on after it
  msgs : List Msg           -- in order of first arrival
  refused : List RefusedMsg    -- newest first
  nakDue : List RefusedMsg  -- refusals with copies of the NAK still due, oldest first (04 R96)
  atomics : List AtomicResult    -- newest first
  covered : List Covered
  flushes : List FlushWait
  guardFull : Nat           -- GUARD_FULL_CNT
  fetches : List Nat        -- pages of its background fetches (04 R111)
  codes : Nat               -- subscribed codes
  sev : Nat
  notifies : Nat            -- EVENT NOTIFYs unacknowledged or waiting
  causes : Nat              -- refusal causes recorded in this second (05 R137)
  reason : Nat              -- why the device ended it (03 Table 3-14)
  deriving DecidableEq, Repr

/-- A region table entry (05 Table 5-1). -/
structure Region where
  base : Nat
  len : Nat
  gen : Nat
  live : Bool
  offInst : Bool
  offTko : Bool
  offRbld : Bool
  pair : Bool
  mirror : Bool
  cls : Nat                 -- 0 PINNED, 1 WARM, 2 COLD
  set : Nat
  ddlEn : Bool
  ddl : Nat
  rights : BitVec 192
  deriving DecidableEq, Repr

/-- Page states (08 Table 8-2). -/
inductive PageState where
  | free | fetching | clean | dirty | destaging | evicting | lostPartial
  deriving DecidableEq, Repr

/-- What the page manager keeps with a page that is not FREE (08 R190 to R213, 11 R283, 12 R302). -/
structure Page where
  st : PageState
  frame : Option Nat
  use : Bool
  since : Nat               -- dirty-since sequence (write stamp of the first unsealed write)
  charged : Bool
  redirty : Bool
  lost : Nat                -- lost sectors, by bit
  gap : Bool                -- journal-gap bit
  reloc : Bool              -- relocation mark
  demand : Nat              -- time of the last demand
  cls : Nat                 -- fetch class, 3 map fault to 7 map background (09 Table 9-6)
  issued : Option Nat       -- when its drive reads were submitted
  fresh : Nat               -- write stamp of the newest write
  copied : Nat              -- newest write stamp its destage copy holds
  sealed : Nat              -- newest write stamp a sealed stripe holds
  jpos : Nat                -- dirty-since journal position, 0 none
  jnext : Nat               -- first journal position after the destage copy began, 0 none
  pinned : Bool             -- holds a locked line
  chain : Option Handle     -- drive fetch/destage cells of its fetch (06 Table 6-2)
  due : Bool                -- its stripe was sealed while an atomic was in progress on it (01 R21)
  deriving DecidableEq, Repr

/-- A delta line (08 R201): bytes of one line and the mask of those that are valid. -/
structure Delta where
  mask : BitVec 64
  data : List Byte
  deriving DecidableEq, Repr

/-- A leaf entry (08 Table 8-5) without its CHECK. -/
structure Leaf where
  kind : Nat
  set : Nat
  col : Nat
  slot : Nat
  lost : Nat
  deriving DecidableEq, Repr

/-- One column of a stripe: the page, its lost mask, and the frame bytes as they were copied. -/
structure Column where
  page : Nat
  lost : Nat
  bytes : Memory
  old : Option Leaf         -- a cleaner's copy: the leaf entry it copies
  deriving DecidableEq, Repr

/-- A stripe that is being built or written (09 R236). -/
structure Stripe where
  seq : Nat
  slot : Nat
  map : Bool                -- kind MAP: it holds map nodes in place of pages
  cols : List Column
  nodes : List (List Nat)   -- MAP: the nodes of each column, by level * 2^30 + index
  ecl : Bool                -- written during Eclipse
  present : List Nat        -- its present list L
  since : Nat               -- time its first page was chosen
  failed : Bool             -- a Write of it has failed
  pend : List Nat           -- positions whose Write has not completed
  clean : Bool              -- written by the cleaner
  commit : Option Nat       -- record sequence of its COMMIT record, once that is written
  chain : Option Handle     -- its drive fetch/destage cells
  deriving DecidableEq, Repr

/-- Segment states (09 R244). -/
inductive SegState where
  | free | opened | full | cleaning | pendingFree
  deriving DecidableEq, Repr

/-- A segment that is not FREE. -/
structure Segment where
  st : SegState
  next : Nat                -- slots used
  superseded : Nat          -- newest stripe sequence that superseded its contents
  closed : Bool             -- closed to new stripes (R247)
  dead : List Nat           -- slots used that hold no sealed stripe: abandoned, or found unwritten
  deriving DecidableEq, Repr

/-- Set states (09 Table 9-7). -/
inductive SetState where
  | waiting | ready | degraded | rebuilding | failed
  deriving DecidableEq, Repr

/-- An urgent run of the destager and its current second (13 R340): start, charged bytes released, stripes sealed. -/
structure UrgentRun where
  start : Nat
  bytes : Nat
  seals : Nat
  second : Nat
  secBytes : Nat
  secSeals : Nat
  deriving DecidableEq, Repr

/-- A position of a set: its drive port, if one holds it, and what has been counted on it (09 R250). -/
structure Position where
  drive : Option Nat
  ready : Bool
  lost : Bool
  errors : List Nat         -- times of its media errors of the last 60 s
  deriving DecidableEq, Repr

/-- A configuration of a set as STR_SET_CFG holds it (17 Table 17-11). -/
structure SetCfg where
  on : Bool
  layout : Nat
  n : Nat
  mask : Nat
  fg : List Nat
  deriving DecidableEq, Repr

/-- A stripe set (09 R232 to R254). -/
structure StripeSet where
  cfg : SetCfg              -- value in force
  st : SetState
  full : Bool
  ident : BitVec 64
  labelGen : Nat
  z : Nat
  pos : List Position
  segs : Tab Segment
  parts : Tab (List Nat)    -- present lists of the slots written with positions missing (09 R238)
  jpos : List Nat           -- journal positions
  jlive : List Nat          -- journal copies in service
  jseq : Nat                -- last record sequence
  jckpt : Nat               -- record sequence of its latest checkpoint
  jfix : Nat                -- record sequence when the running checkpoint fixed C
  jwait : Bool              -- a wait for a checkpoint has been counted (09 R242)
  jrecs : List JRec         -- the live part of the ring: records newer than its checkpoint, and those of the current block
  jcopy : Option (Nat × Nat)  -- a journal position that the ring is being copied to, and the last record copied (09 R241)
  scanAt : Option Nat       -- when its journal check began
  scanMs : Nat              -- how long it took
  scanned : Bool
  slotScan : Bool           -- the Reads of its slots have gone out (09 R247 step 3)
  opened : Option Stripe    -- the stripe being filled
  writing : List Stripe     -- stripes whose Writes or COMMIT are outstanding
  rbState : Nat             -- 0 IDLE, 1 RUNNING, 2 SUSPENDED, 3 DONE
  rbPos : Nat
  rbDrive : Nat
  rbSlot : Nat
  rbRemain : Nat
  rbLost : Nat
  rbRead : Option Nat       -- the slot that the rebuild reads (09 R252)
  rbBad : List (Nat × Nat)  -- sectors of it that did not read back: position and sector
  copying : Option (Nat × Stripe)  -- a cleaner stripe whose chunks are being read, and the class of its writes
  visit : Option (Nat × PatrolFinding × Option Nat)  -- the patrol visit whose Reads are under way: slot, what they find, end of a lap
  patrolAt : Nat            -- where patrol goes on
  gaps : Tab (Tab Nat)      -- lost masks of the member parts that a rebuild wrote, by slot and position (09 Table 9-4)
  orbit : Nat
  m : Int                   -- fetch mean, 1/64 µs (04 R110)
  v : Int
  urgent : Bool             -- the cleaner is urgent
  waited : Bool             -- STR_READY_WAIT has passed
  deriving DecidableEq, Repr

/-- The NVMe commands of 09 Table 9-1. -/
inductive NvmeCmd where
  | identify (cns : Nat)
  | createCq (q size : Nat)
  | createSq (q size : Nat)
  | deleteSq (q : Nat)
  | deleteCq (q : Nat)
  | errorLog                -- Get Log Page, Error Information
  | smartLog                -- Get Log Page, SMART / Health Information
  | setQueues (n : Nat)     -- Set Features, Number of Queues
  | setArbitration          -- Set Features, Arbitration: round-robin
  | getQueues
  | getArbitration
  | register (key : BitVec 64)
  | acquire (key : BitVec 64)             -- Reservation Acquire, type Exclusive Access
  | preempt (key old : BitVec 64)         -- Reservation Acquire, Preempt and Abort, type Exclusive Access
  | release (key : BitVec 64)
  | report
  | read (lba n : Nat)
  | write (lba n : Nat) (data : List Byte)  -- FUA set; empty data: zeros
  | flush
  | deallocate (lba n : Nat)
  deriving DecidableEq, Repr

/-- What a drive command is for. -/
inductive CmdUse where
  | none
  | fetch (page : Nat)
  | node (key : Nat)
  | stripe (seq : Nat)
  | journal (set seq : Nat)
  | ring (set : Nat)
  | repair (set slot : Nat)
  | rebuild (set slot : Nat)
  | rebuildRead (set slot pos : Nat)
  | rebuildSector (set slot pos sec : Nat)
  | clean (set page : Nat)
  | patrol (set : Nat)
  | scan (set : Nat)
  | deviceSeal
  | copy (block : Nat)                    -- a block of recorder records (16 R394)
  | archive (set : Nat) (rest : List Nat) -- a read of the recorder area, and the positions to try next (16 R395)
  deriving DecidableEq, Repr

/-- A drive command with its class of 09 Table 9-6; an admin command has class 0. -/
structure DriveCmd where
  cls : Nat
  cmd : NvmeCmd
  use : CmdUse
  again : Bool              -- issued once more after an AER error (09 R222)
  deriving DecidableEq, Repr

/-- A drive port (09 R221 to R231). -/
structure Drive where
  pin : Bool                -- DRV_PRSNT_N says that a drive is there
  present : Bool
  perst : Bool              -- DRV_PERST_N low
  pulse : Bool              -- in its 10 ms reset pulse
  up : Bool
  width : Nat
  rate : Nat                -- 0 16, 1 32, 2 64 GT/s
  flit : Bool               -- the link runs in FLIT mode, else in 128b/130b encoding
  ready : Bool
  refused : Bool
  lost : Bool
  label : Option Label
  size : Nat
  serial : Nat
  pairs : Nat               -- I/O queue pairs granted
  queue : Nat               -- the submission queue used last
  enabled : Bool            -- CC.EN
  shn : Bool                -- CC.SHN asks for a normal shutdown
  resets : List Nat
  cmds : List (Nat × DriveCmd)  -- commands outstanding, by identifier
  next : Nat                -- next command identifier
  waitCmds : List DriveCmd  -- commands not submitted yet
  back : Nat                -- class 8 submissions since the last one of a rebuild (09 R240)
  warn : Nat
  registered : Bool
  holder : Bool             -- this unit holds its reservation
  shut : Bool
  deriving DecidableEq, Repr

/-- A cached line (07 R166). -/
structure CacheLine where
  tag : Nat
  locked : Bool
  data : List Byte
  deriving DecidableEq, Repr

/-- The source tag of a request at a channel (10 R261): a connection, or an internal agent (log 190). -/
inductive Src where
  | conn (c : Nat)
  | pgm
  | str
  | syz
  | mei
  | lcc
  deriving DecidableEq, Repr

/-- Why a bank keeps a line operation of a message. -/
inductive Wait where
  | fill | fetch | atomic | turn
  deriving DecidableEq, Repr

/-- A line operation that a bank or the page manager holds. -/
structure LineWait where
  conn : Nat
  first : Nat
  idx : Nat
  line : Nat
  kind : Wait
  data : List Byte          -- bytes fixed at the bank for a read that waits for a fill
  poison : Bool             -- the line was marked poison when the bank accepted the read (02 R51)
  alloc : Bool              -- the data arrays were in use then (07 R184)
  relock : Option Nat       -- the locked way whose array error made it a miss (07 R186)
  errs : List (Nat × Byte)  -- symbols in error of the burst that a request waiting its turn reads (11 R281)
  arr : Nat                 -- the array error that a request waiting its turn meets (07 R186)
  mask : Nat                -- the fill's byte mask when the bank accepted it (07 R172)
  deriving DecidableEq, Repr

/-- What a bank has accepted and not yet sent towards the channels (07 R169): a write-through entry, with whether it is narrower
than its line, or a read, with whether a command brings its bytes back (a miss, an atomic). -/
inductive OutEntry where
  | write (line : Nat) (tag : Src) (narrow : Bool)
  | read (line : Nat) (tag : Src) (awaited : Bool)
  deriving DecidableEq, Repr

/-- A write in a pair-pending entry whose journal entry has no position yet (07 R174, 12 R300). -/
structure Layer where
  needs : List (Nat × Nat × Nat)  -- packets whose DATA entry must have a position: connection, first PSN, index
  line : Bool               -- a LINE entry is owed
  addr : Nat
  mask : BitVec 64
  data : List Byte
  mirror : Bool
  writer : Nat × Nat        -- connection and first PSN of its message
  readers : List (Nat × Nat)  -- messages held for it
  deriving DecidableEq, Repr

/-- A pair-pending entry of a line (07 R174): newest position, and the writes still without one, oldest first. -/
structure PairPend where
  pos : Nat
  layers : List Layer
  deriving DecidableEq, Repr

/-- The miss register of a bank (07 R170 to R172). -/
structure Miss where
  line : Nat
  set : Nat
  way : Nat
  data : List Byte          -- bytes read from DRAM, with the writes accepted since laid over them
  mask : BitVec 64          -- the fill's byte mask
  install : Bool
  locked : Bool             -- it refills a locked line (07 R186)
  deriving DecidableEq, Repr

/-- A repair of a line that its bank holds (11 R282, R283). -/
structure Repair where
  line : Nat
  first : Bool              -- the stored copy or zeros could serve when it began (11 Table 11-2 orders 1 and 2)
  tried : Bool              -- they have been tried, and failed
  deriving DecidableEq, Repr

/-- A line-cache bank (07). -/
structure Bank where
  rr : Nat                  -- round-robin pointer over hub ports (01 R22)
  lines : Tab (Tab CacheLine)    -- by set, then way
  plru : Tab Nat            -- tree bits by set
  errs : Tab Nat            -- uncorrectable and tag errors by 16 * set + way; 3 retires the way
  miss : Option Miss
  queue : List LineWait     -- miss queue, in acceptance order
  waits : List LineWait     -- merged reads of the miss register
  wtb : List OutEntry       -- write-through buffer, and the reads that leave in order with it, oldest first
  pend : Tab PairPend       -- pair-pending table, by line
  atomic : List (Nat × Nat × Nat × Bool)  -- lines held for an atomic: line, connection, first PSN, arrays in use
  repairs : List Repair     -- lines held for a repair
  marks : Nat               -- write-through entries that a CLEAN still waits for
  deriving DecidableEq, Repr

/-- A row in a bank's activation tracker (10 R272). -/
structure Tracker where
  row : Nat
  count : Nat
  tags : List (Src × Nat)   -- activations of the row by source tag, since it took its entry
  deriving DecidableEq, Repr

/-- A request at a channel (10 R261, Table 10-3). -/
structure ChanReq where
  cls : Nat
  fl : Nat                  -- frame number * 1,024 + line within the frame
  tag : Src
  write : Bool
  awaited : Bool            -- a command brings its bytes back
  sweep : Bool              -- it stands for the requests of every line of its frame
  deriving DecidableEq, Repr

/-- A throttle of one connection on one bank (10 R273). -/
structure Throttle where
  conn : Nat
  bank : Nat
  minOver : Bool            -- its 1 ms has passed
  held : List ChanReq       -- its throttle buffer, and the requests that wait behind a line in it
  windowOver : Bool         -- its window has ended
  deriving DecidableEq, Repr

/-- A timing set of a channel (10 R274): its speed, and the delays, Vref and eyes that training placed, by package rank and then
by byte lane, or by nibble for x4 devices (R265; log 158). -/
structure TimingSet where
  speed : Nat
  ranks : List (List LaneEye)
  deriving DecidableEq, Repr

/-- A DRAM channel (10) with its integrity state (11). -/
structure Channel where
  used : Bool
  excluded : Bool
  train : Nat               -- 0 NOT_RUN, 1 RUNNING, 2 PASS, 3 FAIL
  speed : Nat
  setB : Bool               -- active timing set is B
  setA : TimingSet
  setOther : TimingSet      -- set B
  rankPass : Nat
  lane : Nat
  dir : Nat
  eye : Nat
  lanes : List LaneEye      -- the byte lanes of the worst rank (10 R266)
  rows : Nat
  rfm : Option Nat          -- the RFM threshold of MR58, where RFM is required
  raa : Tab Nat             -- rolling accumulated activations by bank (10 R272)
  spd : Nat                 -- highest speed of its SPDs
  serials : List Nat        -- by slot
  slots : List Nat          -- slots whose DIMMs are in use, ascending
  temps : List (Nat × Int)  -- latest reading by slot
  mr4 : Nat                 -- ranks whose MR4 asks for doubled refresh
  doubled : Nat             -- ranks in doubled refresh
  debt : Tab Nat            -- refresh debt by rank, ns
  selfRef : Bool
  wq : List (Nat × Src)     -- frame lines in the write queue with the tags of their writes, oldest first
  execq : List Nat          -- frame lines of the reads in the execution queue, oldest first
  stopped : Bool
  inq : List ChanReq        -- requests that wait in the input classes while admission is stopped, in acceptance order
  trackers : Tab (List Tracker)  -- by bank
  throttles : List Throttle
  mgBusy : Bool
  mgHelper : Nat
  mgResult : Nat
  mgWidth : Nat
  mgHeight : Nat
  mgErrors : Nat
  mgMap : List Word
  devs : Tab Nat            -- corrections by device position in this lap
  failing : List Nat        -- device positions reported in this lap
  celog : List (Nat × Nat)  -- corrected line addresses of this lap and their counts
  ueOnce : List Nat         -- lines of the channel that a repair has written back, in this start or an earlier one
  pattern : Option (Nat × List Nat)  -- what a margin helper last wrote over the reserved rows: its selector and DMC_PAT_USER
  bad : Tab (List (Nat × Byte))  -- frame lines stored with symbols in error, until they are rewritten (11 R278)
  rewrite : Option Nat      -- frame line that the scrubber has read and is to rewrite (11 R287)
  remap : Tab (Nat × Nat)   -- entry k to (location, row and DIMM)
  lap : Nat                 -- duration of its last lap, s
  scrubAt : Nat             -- next line of the lap: frame within the channel * 1,024 + line (11 R286)
  lapAt : Nat               -- when the lap began, ns
  deriving DecidableEq, Repr

/-- A device seal (13 Table 13-7), its fixed fields left out. -/
structure Seal where
  kind : Nat                -- 1 ECLIPSE, 2 SWITCHOVER
  flags : Nat
  undrained : Nat           -- sets not drained, by bit
  writer : BitVec 64
  epoch : Nat
  boot : Nat                -- starts of this unit
  seq : Nat                 -- newest sealed stripe
  pos : Nat                 -- last journal position
  records : List Nat        -- for each set, its last stripe journal record
  head : Nat                -- EVR_HEAD
  drain : Nat               -- µs from the trigger to the end of E4
  rate : Nat                -- MB/s measured in E4, 0 where E4 gives no measurement
  dirty : Nat               -- bytes charged at the start of E4
  remap : Tab (Tab (Nat × Nat))   -- remap tables, by channel
  deriving DecidableEq, Repr

/-- Where a fetch or repair waits for the twin (12 R305). -/
structure FetchTag where
  tag : Nat
  addr : Nat
  size : Nat
  answer : Option (Nat × Nat × List Byte)  -- source, mask and data of its FETCH_RESP
  deriving DecidableEq, Repr

/-- What a reliable frame of the Syzygy link tells its receiver (12 Table 12-3). -/
inductive SyzMsg where
  | journal (epoch : Nat) (es : List JEntry)
  | mirrorWrite (es : List JEntry)
  | mirrorFetch (addr size tag : Nat)
  | fetchResp (tag source mask : Nat) (data : List Byte)
  | release (pos : Nat)
  | eclipse
  | sealed
  | join (m : RoleMsg)
  | caughtUp
  | takeover
  | switchGo
  | refuse (causes : Nat)
  deriving DecidableEq, Repr

/-- A reliable Syzygy frame that is held until the partner's JOURNAL_ACK covers it (12 R297). -/
structure SyzFrame where
  seq : Nat
  op : Nat
  link : Nat
  retry : Bool
  es : List JEntry
  body : List Nat           -- payload fields of Table 12-5, in order
  chains : List Handle      -- cells that hold it: shared host payload, or cells SYZ allocated
  turn : Nat                -- its place in the order in which frames last went out (R297)
  deriving DecidableEq, Repr

/-- A chain of the buffer pool (06 R157). -/
structure Chain where
  gen : Nat
  pool : Nat
  cells : List Nat
  owner : Agent
  sharers : List Agent
  last : Option Agent
  rel : Nat
  deferred : Bool
  group : Option Nat
  comet : Option Nat
  deriving DecidableEq, Repr

/-- The device's own view of a running management session (15 R375 to R379, 17 R418). -/
structure SesState where
  role : Nat                -- 0 none, 1 operator, 2 installer, 3 maker
  serial : Nat
  challenge : Option Nat    -- draw of the TRNG, while it is live
  cred : List Byte          -- the credential of the HELLO
  latch : Tab Nat           -- 64-bit values latched by a low-word read, by address
  deriving DecidableEq, Repr

/-- The service addresses of a logical host port, and what it puts on frames it sends (03 R56). -/
structure PortAddr where
  v6 : BitVec 128
  plen : Nat                -- prefix length
  router : BitVec 128       -- default router
  v4 : BitVec 32
  pcp : Nat
  hop : Nat
  dscp : List Nat           -- of responses; control packets; NOTIFY and MGMT; ND, ARP and ICMP
  deriving DecidableEq, Repr

/-- The tag and IP class of a frame the device sends (03 R56): VID plus 1 or 0, PCP, hop limit, DSCP and ECN (Not-ECT). -/
structure IpTag where
  vlan : Nat
  pcp : Nat
  hop : Nat
  dscp : Nat
  ecn : Nat
  deriving DecidableEq, Repr

/-- A next hop that a logical port has resolved, and when it was last known to be reachable (03 Table 3-2, log 187). -/
structure Neighbor where
  port : Nat
  addr : BitVec 128
  seen : Nat
  deriving DecidableEq, Repr

/-- The IP and UDP fields of a packet the device sends (03 R56, R74). -/
structure IpHead where
  tag : IpTag
  src : BitVec 128          -- the service address of the port that transmits
  dst : BitVec 128
  next : BitVec 128         -- next hop: the destination, or the default router
  sport : Nat
  dport : Nat
  cksum : Nat
  df : Bool
  deriving DecidableEq, Repr

/-- What the chip has sent or driven, as its surroundings see it; the outbox of the model (log 4). -/
inductive Out where
  | packet (port : Nat) (ip : IpHead) (p : DevPkt) (bytes : List Byte)
  | neighborAdv (port : Nat) (tag : IpTag) (addr : BitVec 128) (solicited : Bool)
  | arpReply (port : Nat) (tag : IpTag) (addr : BitVec 32) (gratuitous : Bool)
  | neighborSol (port : Nat) (tag : IpTag) (target : BitVec 128)   -- Neighbor Solicitation, or an ARP request over IPv4
  | echoReply (port : Nat) (tag : IpTag) (dst : BitVec 128) (head : BitVec 32) (data : List Byte)
  | mldReport (port : Nat) (tag : IpTag) (addr : BitVec 128)
  | syz (link : Nat) (retry : Bool) (seq : Nat) (op : Nat) (es : List JEntry) (body : List Nat) (bytes : List Byte)
  | nvme (drive : Nat) (cid : Nat) (queue : Nat) (cls : Nat) (cmd : NvmeCmd)
  | nvmeCtl (drive : Nat) (en : Bool) (shn : Bool)   -- CC.EN and CC.SHN of a controller
  | dram (ch : Nat) (rank : Nat) (cmd : Nat)
  | startPulse (down : Bool)
  | seqSync (low : Bool)
  | i2c (bytes : List Byte)
  | tap (t : TapInstr)
  deriving DecidableEq, Repr

/-- An event record raised and not yet written (16 R387 to R390). -/
structure Event where
  src : Nat
  inst : Nat
  code : Nat
  sev : Nat
  flags : Nat
  payload : List Byte
  clamp : Option Nat        -- index of the clamp log entry it reports
  deriving DecidableEq, Repr

/-- An entry of the clamp log (14 Table 14-10). -/
structure ClampEntry where
  field : Nat
  given : Nat
  used : Nat
  src : Nat
  pending : Bool
  unrecorded : Bool
  seq : Nat
  deriving DecidableEq, Repr

/-- A rail input as its monitor keeps it (13 R320, R321): VIN_SNS is input 16. -/
structure Rail where
  cfg : RailCfg
  code : Nat
  flags : Nat               -- UV_WARN, UV_FAULT, OV_WARN, OV_FAULT, by bit
  beyond : List Nat         -- samples beyond each threshold in a row
  inside : List Nat         -- samples back inside each threshold in a row
  active : Nat              -- crossings in force, by bit
  confirmed : Bool
  enabled : Bool            -- RAIL_EN
  deriving DecidableEq, Repr

/-- A reset output (13 R329). -/
structure RstOut where
  cfg : RstCfg
  low : Bool
  counting : Bool           -- its STRETCH is running
  deriving DecidableEq, Repr

end Sys2Proof.Machine
end

