-- ==== Sys2Proof/Machine/State.lean ====
section
/-!
DEFINITION. The state of the block: one structure for each unit of 17 Table 17-2, the chip that holds them, the fuses
beside it, and the queue of waiting commands. Reset values are those of the spec; a value the spec does not give is
named in notes/assumptions/ and marked in INVENTORY.md.
-/
namespace Sys2Proof.Machine

/-- Fuses and one-time-programmable memory (15 R380 to R382, R386): written by provisioning, never cleared. -/
structure Otp where
  powerTable : Option PowerTable
  mac : Option (BitVec 48)
  rootHash : Option (BitVec 384)
  identity : Option Nat     -- the draw of the identity key pair, once LOCK has made it
  provisioned : Bool
  factoryOff : Bool
  debugOff : Bool
  deriving DecidableEq, Repr

/-- Global state (17 GLB). -/
structure Glb where
  sl4804 : Bool
  gradeI : Bool
  state : DevState
  degraded : Bool
  access : Nat              -- GLB_ACCESS_STS
  straps : Nat
  aonUp : Bool              -- the always-on island is out of reset (18 R447)
  epoch : Nat
  boot : Nat
  detail : Nat              -- how the unit came back: 0 seal, 1 warm resume, 2 neither (03 Table 3-20)
  tookOver : Bool
  sealFound : Bool
  activeAt : Option Nat
  activeSeq : Nat           -- event sequence of the entry to ACTIVE
  deriving DecidableEq, Repr

/-- Host ports (03 R53 to R57). -/
structure Hpx where
  modes : List Nat          -- mode of each HPX block: 0 400GbE, 1 200GbE, 2 100GbE
  enabled : Nat             -- logical ports the image enables, by bit
  up : Nat
  vlan : Tab Nat            -- VID plus 1 of a tagged port, 0 untagged
  frame : Tab Nat           -- maximum frame, default 1,518
  pauseEn : Nat
  paused : Tab Nat          -- end of the PAUSE in force, ns
  held : List (Nat × Out)   -- what paused ports wait to send, oldest first
  mac : BitVec 48           -- base MAC address, from the fuses at S0
  addr : Tab PortAddr
  c2c : Nat                 -- ports in C2C use, by bit; bit 16 + r is Syzygy link r
  training : Nat            -- those on which auto-negotiation and link training run (03 R55, 12 R296)
  advert : Tab Nat          -- the mode that a port's auto-negotiation advertises
  stopped : Bool
  service : Bool            -- service addresses held
  c2m : Bool                -- MAINTENANCE port 0 use
  discards : Tab Nat        -- by 16 * logical port + cause
  neigh : List Neighbor     -- next hops resolved
  echoes : Tab Nat          -- echo answers of the running second, by port
  echoSec : Nat
  deriving DecidableEq, Repr

/-- Transport (03). -/
structure Xpt where
  conns : Tab Conn
  freed : Tab Nat           -- time a connection ID was released
  unknown : List (BitVec 128 × Nat)  -- last UNKNOWN_CONNECTION by source
  dups : Nat                -- duplicates counted (04 R98)
  deriving DecidableEq, Repr

/-- Region table and edit window (05). -/
structure Rgn where
  table : Tab Region
  path : Nat                -- 0 unclaimed, 1 I2C, 2 MGMT
  conn : Nat
  data : List Word          -- RGN_EDIT_DATA
  cmd : Nat
  busy : Bool
  overrun : Bool
  result : Nat
  key : Nat
  foreign : Nat
  persisted : Bool
  logDone : Bool            -- the last edit's change-log write is complete
  logAt : Nat               -- its record sequence
  finish : Option (Nat × Nat × Nat × Nat)   -- how the committed command will end: index, code, result, key
  jwait : Nat               -- journal position the last edit waits for, 0 none
  second : Nat              -- number of the one-second interval of R137
  deriving DecidableEq, Repr

/-- Comets and steal arbiters (06, 16 R400). -/
structure Cmt where
  fenced : List Nat         -- comets fenced
  fencedBlocks : Nat        -- by bit
  fencedRegions : Nat
  stealing : List Nat       -- comets with a steal request, oldest first
  blockPtr : Tab Nat
  regionPtr : Tab Nat
  chipPtr : Nat
  portPtr : Tab Nat         -- the comet whose turn it is at the region-hub port, by block (06 R147)
  rehome : List FencedUnit  -- fenced units whose work is still to be re-homed
  deriving DecidableEq, Repr

/-- Buffer pool (06 R155 to R165). -/
structure Bpm where
  sizes : List Nat          -- pool sizes in force
  gens : Tab Nat            -- generation of a cell as a head
  cells : Tab Bool          -- allocated/free state bit
  chains : Tab Chain        -- by head cell
  waiting : List (Nat × Nat)  -- messages that wait for host-egress cells: connection and first PSN
  owed : List (Nat × Nat)   -- packets that wait for host-egress cells, in the order of failure: connection and turn
  turns : Nat               -- turns given so far
  deriving DecidableEq, Repr

/-- Line cache (07). -/
structure Lcc where
  banks : Tab Bank
  enAck : Bool
  staleRisk : Bool
  overrun : Bool
  cleared : Bool            -- a full invalidate has completed since EN last fell
  op : Nat                  -- the maintenance operation that runs, 0 none
  req : MaintReq
  busy : Bool
  result : Nat
  todo : Option (Nat × Nat) -- lines a PRELOAD still has to load: the next line, and how many
  word0 : Nat               -- LCC_MAINT word 0
  word1 : Nat
  baseLow : Nat             -- low words written to LCC_MAINT_BASE and LCC_MAINT_LEN, before their high words (17 R418)
  lenLow : Nat
  deriving DecidableEq, Repr

/-- Page manager (08). -/
structure Pgm where
  total : Nat               -- PGM_FRAMES_TOTAL
  space : Nat               -- PGM_SPACE in force
  pages : Tab Page
  freed : List Nat          -- frames that have been released
  nextFrame : Nat           -- lowest frame never used
  frames : Memory           -- content of the frames, by persistent byte address
  deltas : Tab Delta        -- by line
  replayed : List Nat       -- pages whose delta lines are replayed bytes (12 R310)
  poison : List Nat         -- poisoned lines
  wrote : Tab Nat           -- write stamp of a line's newest write, while its page has its frame (11 R284)
  leaves : Tab Leaf         -- leaf entries, by page
  evicting : Bool           -- the evictor runs
  hand : Nat                -- its clock hand, a frame number
  urgent : Bool             -- the destager is urgent
  ringUrgent : Bool
  stamp : Nat               -- write stamp
  run : Option UrgentRun
  root : Bool
  l2 : Bool
  l2s : List Nat            -- L2 nodes loaded
  bgDone : Bool
  mapReads : List Nat       -- map nodes whose read has been submitted, by level * 2^30 + index
  l1s : List Nat
  lnodes : List Nat
  pendLeaf : Tab Nat        -- pages whose leaf entry comes from the pending-delta table, with its stripe sequence (09 R243)
  store : Nat               -- delta lines that the delta store has room for (08 Table 8-1)
  tcache : List (Nat × Nat) -- pages whose residency word a translation cache holds, by silicon region (08 R191)
  eager : List Nat          -- eager fetches outstanding
  budget : Nat              -- PGM_DIRTY_BUDGET in force, MiB
  budget0 : Nat             -- its value at the start
  pinSet : Bool             -- the image set PGM_PIN_LIMIT, PGM_FREE_LOW
  lowSet : Bool
  queue : List Nat          -- pages whose fetch is queued, in order of joining their class
  fetchWaits : List LineWait   -- line operations that wait for a fetch, in order of joining
  reserved : List (Nat × Nat × Nat)  -- charges a started WRITE reserves: connection, first PSN, page
  wants : List (Nat × Nat × Nat)  -- lines held for a write that waits for delta space: line, connection, first PSN
  deriving DecidableEq, Repr

/-- Drive pool and stripe sets (09). -/
structure Str where
  drives : Tab Drive
  sets : Tab StripeSet
  pend : Tab SetCfg         -- STR_SET_CFG values held pending
  stored : Memory           -- the stored copy, by persistent byte address
  chunks : Tab Leaf         -- the chunk, as a leaf entry names it, that those bytes of a page are
  seq : Nat                 -- next stripe sequence
  lastSealed : Nat          -- newest sealed stripe sequence
  ckpt : Nat                -- stripe sequence C of the latest checkpoint
  ckptRun : Option Nat      -- C of a checkpoint that runs
  mapNodes : Tab (Nat × Nat × Nat)  -- interior entries that are known, by level * 2^30 + index of the child: slot, column, sector
  nodes : List Nat          -- map nodes modified since the last checkpoint began, by level * 2^30 + index
  fixed : Tab (Nat × Nat × Nat)   -- where the running checkpoint puts nodes
  ckptLeft : List Nat       -- MAP stripes of it that are not sealed
  ckptRec : Bool            -- its CHECKPOINT record is written
  locks : List (Nat × Nat × Nat × DriveCmd)  -- writes under a slot's repair lock: set, slot, drive; the first of a slot runs
  sealedSince : Nat         -- stripes sealed since the last checkpoint began
  seals : List Seal         -- seals written by this unit
  reuse : List Nat          -- pages whose fetch waits for a repair of their slot, and takes its result (09 R249)
  conflict : Bool           -- a Reservation Conflict has been reported
  delay : Bool              -- NVH_PERST_DLY has passed
  deriving DecidableEq, Repr

/-- DRAM channels and their integrity (10, 11). -/
structure Dmc where
  chans : Tab Channel
  map : List Nat            -- channels in use, ascending
  pop : Option Population   -- reference population
  freqBusy : Bool
  freqResult : Nat
  freqTarget : Nat
  freqChan : Nat            -- index in `map` of the channel being changed
  freqStop : Bool           -- Eclipse began during the change
  orbit : Nat
  deriving DecidableEq, Repr

/-- The twin (12). -/
structure Syz where
  role : TwinRole
  pair : PairState
  links : Nat               -- links up, by bit
  src : Nat                 -- addresses of the frames it sends, from the image (12 R296)
  dst : Nat
  last : TwinRole           -- role before this start
  sealedSelf : Bool         -- own seal written at the last stop
  ringKept : Bool
  partner : Option (BitVec 64)
  started : Bool            -- ROLE START received in this start
  txSeq : Nat
  rxSeq : Nat
  rxHeld : List (Nat × SyzMsg)  -- reliable frames received beyond the cumulative link sequence
  held : List SyzFrame
  queue : List SyzFrame     -- JOURNAL or MIRROR_WRITE frames that wait for credit
  credit : Option Nat
  rr : Nat
  pos : Nat                 -- last journal position assigned, or seen
  lastPos : Nat             -- last position sent to the twin, 0 if none (13 Table 13-7)
  acked : Nat               -- position acknowledged by the standby
  entries : List (Nat × Nat)   -- entries after the release position: position and ring bytes
  release : Nat             -- release position J
  noteAt : Nat              -- time of the last SEAL_NOTE RELEASE
  noteJ : Nat               -- release position it carried
  joinPos : Nat
  mirrorLeft : List (Nat × Nat)  -- flagged pages still to be copied (0) or acknowledged (last position of the copy)
  rgnWait : List (Nat × Nat)  -- REGION entries whose change-log write is not complete: position and record
  caughtUp : Bool
  eclSeen : Bool            -- SEAL_NOTE ECLIPSE received from the partner
  ring : List JEntry        -- as standby, in position order
  ringAt : Nat              -- where in the ring its next entry goes, in bytes
  accepted : Nat
  mirror : Memory           -- mirror frames, by persistent byte address
  mclean : List Nat         -- mirror frames whose clean bit is set
  mpages : List (Nat × Nat) -- mirror frames held, with their last position
  trigger : Nat
  step : Nat
  preempted : Nat
  replaying : Bool
  swResult : Nat
  age : Nat
  swSeq : Nat
  fenceOut : Bool
  fenceIn : Bool
  tags : List FetchTag
  nextTag : Nat
  ringGiB : Nat
  mirrorGiB : Nat
  compat : Bool
  eclSent : Bool            -- SEAL_NOTE ECLIPSE sent and not acknowledged
  refuse : Nat              -- JOIN refusal causes
  join : Nat                -- a ROLE JOIN is due: 1 on entry to UMBRA, 2 once the partner is ACTIVE
  rxKnown : Bool            -- the partner's link sequence is known
  partnerEpoch : Nat        -- epoch of the partner's last journal frame
  copy : Option (List Nat)  -- the region table copy arrives: the indices it has named
  tkoDue : Bool             -- a starting unit is to take over once its DRAM is laid out (12 R314)
  preDone : Bool            -- step 3 of a takeover is complete
  sealDone : Bool           -- step 4 is complete
  deriving DecidableEq, Repr

/-- Power supervision and sequencing (13). -/
structure Pws where
  rails : List Rail
  outs : List RstOut
  bounds : List RailBounds
  master : Bool
  dir : Nat
  state : Nat
  holding : Bool
  pgood : Bool              -- PWR_GOOD_IN as last seen
  offAt : Nat               -- when SEALED or FAULT was entered, ns
  pfail : Bool              -- PWR_FAIL_N low
  returned : Bool
  returnAt : Nat            -- when the input was judged returned, ns
  minOff : Bool             -- waits for PWS_MIN_OFF
  offDone : Bool            -- some RAIL_EN has been deasserted in this down sequence
  ended : Bool              -- the down sequence has run its last state
  abandon : Bool            -- the chip abandons a sequence: it holds the line low (13 R327)
  gated : Nat               -- domains D0 to D23 that are not powered, by bit
  deriving DecidableEq, Repr

/-- Eclipse (13 R333 to R341). -/
structure Ecl where
  step : Nat
  kind : Nat                -- 1 ECLIPSE, 2 SWITCHOVER
  times : List Nat
  t0 : Nat
  undersized : Bool
  rate : Nat                -- ECL_DRAIN_RATE
  e4At : Nat                -- when E4 was entered, ns
  e4Rate : Nat              -- rate measured in E4, 0 where it gives no measurement (13 Table 13-7)
  start : Nat
  low : Nat
  atomics : Nat
  flushes : Nat
  reads : Nat
  undrained : Nat
  dirty0 : Nat              -- charged pages at the start of E4
  overrun : Bool
  sealSent : Bool           -- the Writes of the seal have gone out
  sealed : Bool
  lostRegion : Bool         -- a silicon region was fenced during the drain
  waiting : Bool            -- E5 has ended, and input that rises is waited for
  standby : Bool            -- Eclipse of a unit that was in UMBRA
  dramFault : Bool          -- a DRAM-class rail has faulted
  deriving DecidableEq, Repr

/-- Start, configuration store and staging (14). -/
structure Cfg where
  begun : Bool              -- a start runs, or has run
  cands : List Nat          -- slots still to be tried at S1
  phase : Nat
  warm : Bool
  t0 : Nat
  times : List Nat
  flash : Memory            -- the configuration store
  flashOk : Bool
  active : Option Nat       -- active slot
  hash : BitVec 384
  gen : Nat
  crcOk : Nat               -- by slot
  sigOk : Nat
  logApplied : Bool
  pend : List (Nat × List Byte)  -- record writes outstanding: area (0 log, 1 remap, 2 power) and record
  logUsed : Nat
  logSeq : Nat
  sector : List Nat         -- current sector of the remap and power areas
  fill : List Nat           -- records in that sector
  recSeq : List Nat
  erase : Nat               -- sectors whose background erase runs, by bit
  owner : Option Session
  ofs : Nat                 -- CFG_STAGE_OFS
  nextOfs : Nat
  window : List Word
  cmd : Nat                 -- staging command that runs
  busy : Bool
  result : Nat
  log : List ClampEntry
  overflow : Bool
  segCounts : List Nat
  dramDone : Bool
  roleDone : Bool
  gateOpen : Bool           -- CFG_PORT_WAIT has passed
  last : Option (List Byte) -- the newest power record as this start found it
  deriving DecidableEq, Repr

/-- Security (15). -/
structure Sec where
  writer : BitVec 64        -- writer ID (15 R382), from the fuses at S0
  i2c : SesState
  mgmt : Tab SesState
  fails : List (Option (BitVec 128) × Nat)  -- failures by source, with the time
  locked : List (Option (BitVec 128))
  keys : Tab (List Byte)    -- ticket-key slots
  tktData : List Word
  tktSlot : Nat
  tktBusy : Bool
  tktResult : Nat
  i2cData : List Word
  i2cSts : Nat
  i2cBusy : Bool
  i2cOver : Bool
  nonce : List Word
  report : List Word
  attBusy : Bool
  attDone : Bool
  prov : List Word
  idFail : Bool
  unlocked : Bool
  everUnlocked : Bool
  tap : TapInstr
  deriving DecidableEq, Repr

/-- Event recorder (16). -/
structure Evr where
  ring : Tab (List Byte)    -- records by slot
  next : Nat                -- sequence of the next record
  first : Nat               -- first sequence of this start
  isSet : Bool              -- the sequence has been set at S2
  mark : Nat                -- last persisted high-water mark
  asked : Nat               -- last mark whose record has been asked for
  limit : Bool              -- the limit of R390 applies
  queue : List Event
  dropped : Nat
  dropSeq : Nat
  flood : Tab (Nat × Nat × Nat × Nat × Nat)  -- by source and code, in this window: written, suppressed, first and last instance, severity
  cursor : Nat
  curLow : Nat
  arch : Nat
  archLow : Nat
  archWin : List Word
  archBusy : Bool
  archResult : Nat
  archHalf : Nat
  due : List Nat            -- blocks due for copy
  missed : Tab Nat          -- by block being copied: records of it that the ring had overwritten (R394)
  deriving DecidableEq, Repr

/-- Fault collector (16 R399 to R406). -/
structure Flt where
  wdt : Bool
  cause : Nat
  faulted : Bool
  aer : Tab Nat             -- AER errors reported, by 3 * drive port + 0 correctable, 1 non-fatal, 2 fatal (09 R222)
  alert : Bool
  alertSeq : Nat
  deriving DecidableEq, Repr

/-- The chip: every unit, the parameter registers and counters, and the model's clock, outbox and draw counter. -/
structure Chip where
  glb : Glb
  regs : Tab Nat            -- parameter registers that differ from their reset value, by address
  cnts : Tab Nat            -- counters, by address
  hpx : Hpx
  xpt : Xpt
  rgn : Rgn
  cmt : Cmt
  bpm : Bpm
  lcc : Lcc
  pgm : Pgm
  str : Str
  dmc : Dmc
  syz : Syz
  pws : Pws
  ecl : Ecl
  cfg : Cfg
  sec : Sec
  evr : Evr
  flt : Flt
  now : Nat
  out : List Out
  fresh : Nat
  deriving DecidableEq, Repr

/-- The state of the model. -/
structure State where
  otp : Otp
  chip : Chip
  pending : List Instr
  deriving DecidableEq, Repr

/-- Why the model stops with a fault: nothing does (NOTES.md, Stops). -/
inductive Fault where
  /-- An access the spec says does not exist; no command raises it, so it is neither safe nor unsafe. -/
  | noSuchAddress
  deriving DecidableEq, Repr

/-- Why the model gives a command no next state. -/
inductive Refusal where
  /-- Raised by an arm of exec for a command that has no meaning yet; safe. -/
  | notModelled (mnemonic : String)
  /-- Raised by TAP_INSTRUCTION for a debug instruction while the TAP is unlocked: 15 R386 gives it no effect; safe. -/
  | debugTap
  deriving DecidableEq, Repr

/-- A rail configuration as a blank power table gives it (log 8). -/
def RailCfg.blank : RailCfg :=
  { monEn := false, uvFault := 0, uvWarn := 0, ovWarn := 0, ovFault := 0, offLevel := 0, filt := 16, actUv := 0,
    actOv := 0, dram := false, upState := 31, downState := 31 }

/-- A rail input at power-on. -/
def Rail.blank : Rail :=
  { cfg := RailCfg.blank, code := 0, flags := 0, beyond := [0, 0, 0, 0], inside := [0, 0, 0, 0], active := 0,
    confirmed := false, enabled := false }

/-- Bounds of a rail as a blank power table gives them (log 8). -/
def RailBounds.blank : RailBounds :=
  { uvFault := (0, 0), uvWarn := (0, 0), ovWarn := (0, 0), ovFault := (0, 0), filt := (16, 16), maskUv := 1, maskOv := 1 }

/-- A reset output at power-on: driven low. -/
def RstOut.blank : RstOut :=
  { cfg := { release := 0, assert := 0, stretch := 1, holdSeq := false, onFault := false }, low := true, counting := false }

/-- A maintenance request with every field 0. -/
def MaintReq.zero : MaintReq :=
  { setWay := false, force := false, all := false, bank := 0, set := 0, way := 0, base := 0, len := 0 }

/-- A free region table entry: generation 1 (14 R360). -/
def Region.blank : Region :=
  { base := 0, len := 1, gen := 1, live := false, offInst := false, offTko := false, offRbld := false, pair := false,
    mirror := false, cls := 0, set := 0, ddlEn := false, ddl := 0, rights := 0 }

/-- A FREE page. -/
def Page.blank : Page :=
  { st := .free, frame := none, use := false, since := 0, charged := false, redirty := false, lost := 0, gap := false,
    reloc := false, demand := 0, cls := 4, issued := none, fresh := 0, copied := 0, sealed := 0, jpos := 0, jnext := 0,
    pinned := false, chain := none, due := false }

/-- A leaf entry of kind ZERO. -/
def Leaf.zero : Leaf := { kind := 0, set := 0, col := 0, slot := 0, lost := 0 }

/-- A set that is not configured. -/
def SetCfg.none : SetCfg := { on := false, layout := 0, n := 0, mask := 0, fg := [] }

/-- A stripe set at start: WAITING (09 Table 9-7), fetch mean 100 µs (04 R110). -/
def StripeSet.blank : StripeSet :=
  { cfg := SetCfg.none, st := .waiting, full := false, ident := 0, labelGen := 0, z := 0, pos := [], segs := [],
    parts := [], jpos := [], jlive := [], jseq := 0, jckpt := 0, jfix := 0, jwait := false, jrecs := [], jcopy := none,
    scanAt := none, scanMs := 0, scanned := false, opened := none,
    writing := [], rbState := 0, rbPos := 0, rbDrive := 0, rbSlot := 0, rbRemain := 0, rbLost := 0, rbRead := none,
    rbBad := [], copying := none, visit := none, patrolAt := 0, gaps := [], slotScan := false, orbit := 0, m := 6400,
    v := 0, urgent := false, waited := false }

/-- A stripe with nothing in it. -/
def Stripe.blank : Stripe :=
  { seq := 0, slot := 0, map := false, cols := [], nodes := [], ecl := false, present := [], since := 0, failed := false,
    pend := [], clean := false, commit := none, chain := none }

/-- A drive port with no drive. -/
def Drive.blank : Drive :=
  { pin := false, present := false, perst := true, pulse := false, up := false, width := 0, rate := 0, flit := false,
    ready := false, refused := false, lost := false, label := none, size := 0, serial := 0, pairs := 0, queue := 0,
    enabled := false, shn := false, resets := [], cmds := [], next := 0, waitCmds := [], back := 0, warn := 0,
    registered := false, holder := false, shut := false }

/-- A bank after SRAM initialisation (07 R187, 01 R22). -/
def Bank.blank : Bank :=
  { rr := 0, lines := [], plru := [], errs := [], miss := none, queue := [], waits := [], wtb := [], pend := [],
    atomic := [], repairs := [], marks := 0 }

/-- A channel that has not been trained. -/
def Channel.blank : Channel :=
  { used := false, excluded := false, train := 0, speed := 0, setB := false, setA := { speed := 0, ranks := [] }, setOther := { speed := 0, ranks := [] }, rankPass := 0, lane := 0, dir := 0,
    eye := 0, lanes := [], rows := 0, rfm := none, raa := [], spd := 0, serials := [], slots := [], temps := [], mr4 := 0, doubled := 0, debt := [],
    selfRef := false, wq := [], execq := [], stopped := false, inq := [], trackers := [], throttles := [], mgBusy := false,
    mgHelper := 0, mgResult := 0, mgWidth := 0, mgHeight := 0, mgErrors := 0, mgMap := [], devs := [], failing := [],
    celog := [], ueOnce := [], pattern := none, bad := [], rewrite := none, remap := [], lap := 0, scrubAt := 0, lapAt := 0 }

/-- A session that holds no role. -/
def SesState.blank : SesState := { role := 0, serial := 0, challenge := none, cred := [], latch := [] }

/-- Words of a window that all read 0. -/
def zeros (n : Nat) : List Word := List.replicate n 0

/-- The fuses of a part before provisioning: factory test modes fused off (15 R380), the rest blank (log 8). -/
def Otp.blank : Otp :=
  { powerTable := none, mac := none, rootHash := none, identity := none, provisioned := false, factoryOff := true,
    debugOff := false }

/-- Global state at reset: START (17 Table 17-3). -/
def Glb.reset : Glb :=
  { sl4804 := false, gradeI := false, state := .start, degraded := false, access := 0, straps := 0, aonUp := false,
    epoch := 0, boot := 0, detail := 2, tookOver := false, sealFound := false, activeAt := none, activeSeq := 0 }

/-- Host ports at reset: the safe defaults of 14 Table 14-8 (log 9). -/
def Hpx.reset : Hpx :=
  { modes := [2, 2, 2, 2], enabled := 1, up := 0, vlan := [], frame := [], pauseEn := 0, paused := [], held := [],
    mac := 0, addr := [], c2c := 0, training := 0, advert := [], stopped := false, service := false, c2m := false, discards := [],
    neigh := [], echoes := [], echoSec := 0 }

/-- Transport at reset: every connection FREE. -/
def Xpt.reset : Xpt := { conns := [], freed := [], unknown := [], dups := 0 }

/-- Region table at reset: every entry free with generation 1. -/
def Rgn.reset : Rgn :=
  { table := [], path := 0, conn := 0, data := zeros 12, cmd := 0, busy := false, overrun := false, result := 0,
    key := 0, foreign := 0, persisted := false, logDone := false, logAt := 0, finish := none, jwait := 0, second := 0 }

/-- Comets at reset: none fenced, every arbiter at its lowest comet. -/
def Cmt.reset : Cmt :=
  { fenced := [], fencedBlocks := 0, fencedRegions := 0, stealing := [], blockPtr := [], regionPtr := [], chipPtr := 0,
    portPtr := [], rehome := [] }

/-- Buffer pool at reset: the defaults of 06 Table 6-2, every cell free. -/
def Bpm.reset : Bpm :=
  { sizes := [40960, 32768, 16384, 40960], gens := [], cells := [], chains := [], waiting := [], owed := [], turns := 0 }

/-- Line cache at reset (07 R187, 17 Table 17-9). -/
def Lcc.reset : Lcc :=
  { banks := [], enAck := true, staleRisk := false, overrun := false, cleared := true, op := 0, req := MaintReq.zero,
    busy := false, result := 0, todo := none, word0 := 0, word1 := 0, baseLow := 0, lenLow := 0 }

/-- Page manager at reset: every page FREE. -/
def Pgm.reset : Pgm :=
  { total := 0, space := 0, pages := [], freed := [], nextFrame := 0, frames := [], deltas := [], replayed := [],
    poison := [], wrote := [], leaves := [], evicting := false, hand := 0, urgent := false, ringUrgent := false, stamp := 0,
    run := none, root := false, l2 := false, l2s := [], bgDone := false, mapReads := [], l1s := [], lnodes := [], pendLeaf := [], store := 8388608,
    tcache := [], eager := [], budget := 16384, budget0 := 16384,
    pinSet := false, lowSet := false, queue := [], fetchWaits := [], reserved := [], wants := [] }

/-- Drive pool at reset: no set configured, every PERST low. -/
def Str.reset : Str :=
  { drives := [], sets := [], pend := [], stored := [], chunks := [], seq := 1, lastSealed := 0, ckpt := 0, ckptRun := none, mapNodes := [],
    nodes := [], fixed := [], ckptLeft := [], ckptRec := false, locks := [], sealedSince := 0, seals := [], reuse := [], conflict := false, delay := false }

/-- DRAM channels at reset: none trained. -/
def Dmc.reset : Dmc :=
  { chans := [], map := [], pop := none, freqBusy := false, freqResult := 0, freqTarget := 0, freqChan := 0,
    freqStop := false, orbit := 0 }

/-- The channels when a start begins: untrained; lines that a repair has written back stay known (11 R290), and a warm resume keeps
what the arrays store (10 R265). -/
def Dmc.restart (d : Dmc) (warm : Bool) : Dmc :=
  { Dmc.reset with chans := d.chans.map fun (e : Nat × Channel) =>
      (e.1, { Channel.blank with ueOnce := e.2.ueOnce, serials := e.2.serials, bad := if warm then e.2.bad else [] }) }

/-- The twin at reset: role NONE, pair state NO_TWIN, the fence line presented as asserted (18 R450). -/
def Syz.reset : Syz :=
  { role := .none, pair := .noTwin, links := 0, src := 0, dst := 0, last := .none, sealedSelf := false, ringKept := false, partner := none,
    started := false, txSeq := 0, rxSeq := 0, rxHeld := [], held := [], queue := [], credit := none,
    rr := 0, pos := 0, lastPos := 0, acked := 0, entries := [], release := 0, noteAt := 0, noteJ := 0, joinPos := 0, mirrorLeft := [],
    rgnWait := [], caughtUp := false, eclSeen := false, ring := [], ringAt := 0, accepted := 0, mirror := [],
    mclean := [], mpages := [], trigger := 0, step := 0, preempted := 0, replaying := false,
    swResult := 0, age := 0, swSeq := 0, fenceOut := true, fenceIn := true, tags := [], nextTag := 0, ringGiB := 16,
    mirrorGiB := 0, compat := false, eclSent := false, refuse := 0, join := 0,
    rxKnown := false, partnerEpoch := 0, copy := none, tkoDue := false, preDone := false, sealDone := false }

/-- Power supervision at reset: no rail enabled, every reset output low (13 Table 13-4), no power table (log 8). -/
def Pws.reset : Pws :=
  { rails := List.replicate 17 Rail.blank, outs := List.replicate 8 RstOut.blank,
    bounds := List.replicate 17 RailBounds.blank, master := false, dir := 0, state := 0, holding := false,
    pgood := false, offAt := 0, pfail := false, returned := false, returnAt := 0, minOff := false, offDone := false,
    ended := false, abandon := false, gated := 2 ^ 24 - 1 }

/-- Eclipse at reset: no step runs; ECL_DRAIN_RATE is ECL_DRAIN_INIT, since no power record is there (13 R340). -/
def Ecl.reset : Ecl :=
  { step := 0, kind := 0, times := List.replicate 7 0, t0 := 0, undersized := false, rate := 4000, e4At := 0, e4Rate := 0, start := 4000,
    low := 4000, atomics := 0, flushes := 0, reads := 0, undrained := 0, dirty0 := 0, overrun := false, sealSent := false, sealed := false,
    lostRegion := false, waiting := false, standby := false, dramFault := false }

/-- Start and configuration at reset: the store is erased (log 8). -/
def Cfg.reset : Cfg :=
  { begun := false, cands := [], phase := 0, warm := false, t0 := 0, times := List.replicate 8 0, flash := [], flashOk := false, active := none,
    hash := 0, gen := 0, crcOk := 0, sigOk := 0, logApplied := false, pend := [], logUsed := 0, logSeq := 0,
    sector := [0, 0], fill := [0, 0], recSeq := [0, 0], erase := 0, owner := none, ofs := 0, nextOfs := 0,
    window := zeros 64, cmd := 0, busy := false, result := 0, log := [], overflow := false, segCounts := [0, 0, 0, 0],
    dramDone := false, roleDone := false, gateOpen := false, last := none }

/-- Security at reset: no session holds a role, no ticket key. -/
def Sec.reset : Sec :=
  { writer := 0, i2c := SesState.blank, mgmt := [], fails := [], locked := [], keys := [], tktData := zeros 24, tktSlot := 0,
    tktBusy := false, tktResult := 0, i2cData := zeros 64, i2cSts := 0, i2cBusy := false, i2cOver := false,
    nonce := zeros 8, report := zeros 68, attBusy := false, attDone := false, prov := zeros 256, idFail := false,
    unlocked := false, everUnlocked := false, tap := .idcode }

/-- Recorder at reset: every slot unwritten, the sequence not set. -/
def Evr.reset : Evr :=
  { ring := [], next := 0, first := 0, isSet := false, mark := 0, asked := 0, limit := true, queue := [], dropped := 0,
    dropSeq := 0, flood := [], cursor := 0, curLow := 0, arch := 0, archLow := 0, archWin := zeros 16,
    archBusy := false, archResult := 0, archHalf := 0, due := [], missed := [] }

/-- Fault collector at reset. -/
def Flt.reset : Flt := { wdt := false, cause := 0, faulted := false, aer := [], alert := false, alertSeq := 0 }

/-- The chip at reset. -/
def Chip.reset : Chip :=
  { glb := Glb.reset, regs := [], cnts := [], hpx := Hpx.reset, xpt := Xpt.reset, rgn := Rgn.reset, cmt := Cmt.reset,
    bpm := Bpm.reset, lcc := Lcc.reset, pgm := Pgm.reset, str := Str.reset, dmc := Dmc.reset, syz := Syz.reset,
    pws := Pws.reset, ecl := Ecl.reset, cfg := Cfg.reset, sec := Sec.reset, evr := Evr.reset, flt := Flt.reset,
    now := 0, out := [], fresh := 0 }

/-- The block right after reset, no command waiting. -/
def State.reset : State := { otp := Otp.blank, chip := Chip.reset, pending := [] }

end Sys2Proof.Machine
end

