-- ==== Sys2Proof/Machine/Ops.lean ====
section
/-!
DEFINITION. The named operations over memory, bytes, tables and the units that every family uses.
-/
namespace Sys2Proof.Machine

/-! ### Bytes -/

/-- A number as `n` bytes, least significant first. -/
def le : Nat → Nat → List Byte
  | 0, _ => []
  | n + 1, v => BitVec.ofNat 8 v :: le n (v / 256)

/-- A number as `n` bytes, most significant first. -/
def be (n v : Nat) : List Byte := (le n v).reverse

/-- The number that bytes spell, least significant first. -/
def unle : List Byte → Nat
  | [] => 0
  | b :: r => b.toNat + 256 * unle r

/-- The number that bytes spell, most significant first. -/
def unbe (bs : List Byte) : Nat := unle bs.reverse

/-- `n` bytes of a list from an offset. -/
def slice (bs : List Byte) (off n : Nat) : List Byte := (bs.drop off).take n

/-- The little-endian number at an offset of a record. -/
def leField (bs : List Byte) (off n : Nat) : Nat := unle (slice bs off n)

/-- The big-endian number at an offset of a payload. -/
def fieldBe (bs : List Byte) (off n : Nat) : Nat := unbe (slice bs off n)

/-- A record padded with zeros to a length. -/
def padTo (n : Nat) (bs : List Byte) : List Byte := bs.take n ++ List.replicate (n - bs.length) 0

/-- A word as its bytes, least significant first (17 R410). -/
def wordBytes (w : Word) : List Byte := le 4 w.toNat

/-- The bytes of a window of words. -/
def wordsBytes (ws : List Word) : List Byte := ws.flatMap wordBytes

/-- Words from bytes, least significant first. -/
def bytesWords : Nat → List Byte → List Word
  | 0, _ => []
  | n + 1, bs => BitVec.ofNat 32 (unle (bs.take 4)) :: bytesWords n (bs.drop 4)

/-- A list with the element at an index replaced. -/
def setAt {α : Type} (l : List α) (i : Nat) (v : α) : List α := l.set i v

/-- A number with one bit set or cleared. -/
def setBit (n i : Nat) (b : Bool) : Nat :=
  if b then n ||| (2 ^ i) else if bit n i then n - 2 ^ i else n

/-- The positions of the bits set below `n`. -/
def bitsOf (n v : Nat) : List Nat := (List.range n).filter (bit v)

/-- The number of bits set below `n`. -/
def popCount (n v : Nat) : Nat := (bitsOf n v).length

/-- The numbers `lo` to `lo + n - 1`. -/
def rangeFrom (lo n : Nat) : List Nat := (List.range n).map (lo + ·)

/-- The smallest element of a list, or a default. -/
def minOf (d : Nat) : List Nat → Nat
  | [] => d
  | a :: r => Nat.min a (minOf d r)

/-- The largest element of a list, or 0. -/
def maxOf : List Nat → Nat
  | [] => 0
  | a :: r => Nat.max a (maxOf r)

/-! ### Memory -/

/-- The byte at an address; an address that is not listed reads as the default. -/
def Memory.read (d : Byte) (m : Memory) (a : Nat) : Byte := Tab.get m d a

/-- A byte written, the canonical form kept. -/
def Memory.write (d : Byte) (m : Memory) (a : Nat) (b : Byte) : Memory := Tab.set m d a b

/-- Bytes read from an address upwards. -/
def Memory.readN (d : Byte) (m : Memory) (a n : Nat) : List Byte := (List.range n).map fun i => Memory.read d m (a + i)

/-- Bytes written from an address upwards. -/
def Memory.writeN (d : Byte) (m : Memory) (a : Nat) : List Byte → Memory
  | [] => m
  | b :: r => Memory.writeN d (Memory.write d m a b) (a + 1) r

/-- The cells of an address range. -/
def Memory.sub (m : Memory) (lo n : Nat) : Memory := m.filter fun c => lo ≤ c.1 && c.1 < lo + n

/-- The memory with an address range reading as the default. -/
def Memory.clear (m : Memory) (lo n : Nat) : Memory := m.filter fun c => !(lo ≤ c.1 && c.1 < lo + n)

/-- The memory with the cells of another laid over an address range. -/
def Memory.lay (d : Byte) (m : Memory) (lo n : Nat) (o : Memory) : Memory :=
  (Memory.sub o lo n).foldl (fun acc c => Memory.write d acc c.1 c.2) (Memory.clear m lo n)

/-- Addresses rise strictly from a bound on. -/
def Memory.rising (lo : Nat) : Memory → Bool
  | [] => true
  | c :: r => lo ≤ c.1 && Memory.rising (c.1 + 1) r

/-- The canonical form: addresses strictly rising, no entry equal to the default. -/
def Memory.wf (d : Byte) (m : Memory) : Bool := Memory.rising 0 m && m.all fun c => c.2 != d

/-- Bytes of a line with new bytes laid over it where the mask has a bit. -/
def overlay (old new : List Byte) (mask : Nat) : List Byte :=
  (List.range 64).map fun i => if bit mask i then new.getD i 0 else old.getD i 0

/-- The mask of `n` bytes from an offset of a line. -/
def maskOf (off n : Nat) : Nat := (2 ^ n - 1) * 2 ^ off

/-- Bytes put at an offset of a line of zeros. -/
def placeAt (off : Nat) (bs : List Byte) : List Byte := padTo 64 (List.replicate off 0 ++ bs)

/-! ### Serial numbers -/

/-- Distance from `b` to `a` modulo 2^32 (03 R67). -/
def psnSub (a b : Nat) : Nat := (a + 2 ^ 32 - b % 2 ^ 32) % 2 ^ 32

/-- A PSN some steps on. -/
def psnAdd (a n : Nat) : Nat := (a + n) % 2 ^ 32

/-- `x` is earlier than `y` modulo 2^32 (03 R67). -/
def earlier (x y : Nat) : Bool := 1 ≤ psnSub y x && psnSub y x < 2 ^ 31

/-- `x` is `y` or earlier. -/
def notAfter (x y : Nat) : Bool := psnSub y x < 2 ^ 31

/-! ### The chip -/

/-- Code of a device state (17 Table 17-4). -/
def DevState.code : DevState → Nat
  | .off => 0 | .start => 1 | .maintenance => 2 | .umbra => 3 | .takeover => 4 | .active => 5 | .eclipse => 6
  | .sealed => 7 | .fault => 8

/-- Code of a twin role (17 Table 17-4). -/
def TwinRole.code : TwinRole → Nat
  | .none => 0 | .active => 1 | .umbra => 2 | .fenced => 3

/-- Code of a pair state (17 Table 17-4). -/
def PairState.code : PairState → Nat
  | .noTwin => 0 | .catchingUp => 1 | .paired => 2 | .inDoubt => 3 | .solo => 4

/-- Code of a connection state (17 Table 17-4). -/
def ConnState.code : ConnState → Nat
  | .opening => 1 | .established => 2 | .closing => 3 | .aborting => 4

/-- Code of a page state (08 Table 8-2). -/
def PageState.code : PageState → Nat
  | .free => 0 | .fetching => 1 | .clean => 2 | .dirty => 3 | .destaging => 4 | .evicting => 5 | .lostPartial => 6

/-- Code of a set state (17 Table 17-4). -/
def SetState.code : SetState → Nat
  | .waiting => 0 | .ready => 1 | .degraded => 2 | .rebuilding => 3 | .failed => 4

/-- Apply an update to the chip of a state. -/
def State.on (s : State) (f : Chip → Chip) : State := { s with chip := f s.chip }

/-- Something sent: it joins the outbox, newest first (log 4). -/
def Chip.emit (s : Chip) (o : Out) : Chip := { s with out := o :: s.out }

/-- Several things sent, the first of the list first. -/
def Chip.emits (s : Chip) (os : List Out) : Chip := os.foldl Chip.emit s

/-- A draw of the free-value counter. -/
def Chip.draw (s : Chip) : Nat × Chip := (s.fresh, { s with fresh := s.fresh + 1 })

/-- Comets of the variant (00 Table 0-2). -/
def Chip.comets (s : Chip) : Nat := if s.glb.sl4804 then 64 else 256

/-- Line-cache banks of the variant. -/
def Chip.nBanks (s : Chip) : Nat := if s.glb.sl4804 then 16 else 64

/-- DRAM channels of the variant. -/
def Chip.nChans (s : Chip) : Nat := if s.glb.sl4804 then 3 else 12

/-- Drive ports of the variant. -/
def Chip.nDrives (s : Chip) : Nat := if s.glb.sl4804 then 8 else 32

/-- Silicon regions of the variant. -/
def Chip.nRegions (s : Chip) : Nat := if s.glb.sl4804 then 1 else 4

/-- Blocks of the variant. -/
def Chip.nBlocks (s : Chip) : Nat := if s.glb.sl4804 then 4 else 16

/-- Syzygy links of the variant (12 R296). -/
def Chip.nLinks (s : Chip) : Nat := if s.glb.sl4804 then 1 else 4

/-- R47 is in force in every pair state except PAIRED and IN_DOUBT (12 R294). -/
def Chip.r47 (s : Chip) : Bool := s.syz.pair != .paired && s.syz.pair != .inDoubt

/-- A counter. -/
def Chip.cnt (s : Chip) (a : Nat) : Nat := Tab.get s.cnts 0 a

/-- A counter raised by `n`, saturating (17 R416). -/
def Chip.count (s : Chip) (a : Nat) (n : Nat := 1) : Chip :=
  { s with cnts := Tab.set s.cnts 0 a (Nat.min (s.cnt a + n) (2 ^ 32 - 1)) }

/-- A connection that is not FREE. -/
def Chip.conn (s : Chip) (c : Nat) : Option Conn := Tab.find s.xpt.conns c

/-- A connection's state put back. -/
def Chip.setConn (s : Chip) (c : Nat) (k : Conn) : Chip := { s with xpt := { s.xpt with conns := Tab.ins s.xpt.conns c k } }

/-- An update of a connection, if it is not FREE. -/
def Chip.modConn (s : Chip) (c : Nat) (f : Conn → Conn) : Chip :=
  match s.conn c with
  | some k => s.setConn c (f k)
  | none => s

/-- The numbers of the connections that are not FREE. -/
def Chip.connIds (s : Chip) : List Nat := s.xpt.conns.map (·.1)

/-- A message of a connection by its first PSN. -/
def Conn.msg (k : Conn) (psn : Nat) : Option Msg := k.msgs.find? (·.first == psn)

/-- A message of a connection replaced. -/
def Conn.setMsg (k : Conn) (m : Msg) : Conn := { k with msgs := k.msgs.map fun x => if x.first == m.first then m else x }

/-- A message of a connection removed: its payload is held no more (03 R69). -/
def Conn.delMsg (k : Conn) (psn : Nat) : Conn :=
  let n := match k.msg psn with
    | some m => if m.dup.isSome then 0 else m.count
    | none => 0
  { k with msgs := k.msgs.filter (·.first != psn),
           placed := k.placed.map fun e => if psnSub e.1 psn < n then (e.1, 0) else e }

/-- An update of a message, if it is there. -/
def Chip.modMsg (s : Chip) (c psn : Nat) (f : Msg → Msg) : Chip :=
  s.modConn c fun k => { k with msgs := k.msgs.map fun x => if x.first == psn then f x else x }

/-- A message of a connection of the chip. -/
def Chip.msg (s : Chip) (c psn : Nat) : Option Msg := (s.conn c).bind (·.msg psn)

/-- A page, FREE when it is not listed. -/
def Chip.page (s : Chip) (p : Nat) : Page := Tab.get s.pgm.pages Page.blank p

/-- A page put back; a FREE page is not listed. -/
def Chip.setPage (s : Chip) (p : Nat) (g : Page) : Chip :=
  { s with pgm := { s.pgm with pages := if g.st = .free then Tab.del s.pgm.pages p else Tab.ins s.pgm.pages p g } }

/-- A line-cache bank. -/
def Chip.bank (s : Chip) (b : Nat) : Bank := Tab.get s.lcc.banks Bank.blank b

/-- A bank put back. -/
def Chip.setBank (s : Chip) (b : Nat) (k : Bank) : Chip :=
  { s with lcc := { s.lcc with banks := Tab.set s.lcc.banks Bank.blank b k } }

/-- An update of a bank. -/
def Chip.modBank (s : Chip) (b : Nat) (f : Bank → Bank) : Chip := s.setBank b (f (s.bank b))

/-- A drive port. -/
def Chip.drive (s : Chip) (d : Nat) : Drive := Tab.get s.str.drives Drive.blank d

/-- An update of a drive port. -/
def Chip.modDrive (s : Chip) (d : Nat) (f : Drive → Drive) : Chip :=
  { s with str := { s.str with drives := Tab.set s.str.drives Drive.blank d (f (s.drive d)) } }

/-- A stripe set. -/
def Chip.set (s : Chip) (i : Nat) : StripeSet := Tab.get s.str.sets StripeSet.blank i

/-- An update of a stripe set. -/
def Chip.modSet (s : Chip) (i : Nat) (f : StripeSet → StripeSet) : Chip :=
  { s with str := { s.str with sets := Tab.set s.str.sets StripeSet.blank i (f (s.set i)) } }

/-- A DRAM channel. -/
def Chip.chan (s : Chip) (n : Nat) : Channel := Tab.get s.dmc.chans Channel.blank n

/-- An update of a DRAM channel. -/
def Chip.modChan (s : Chip) (n : Nat) (f : Channel → Channel) : Chip :=
  { s with dmc := { s.dmc with chans := Tab.set s.dmc.chans Channel.blank n (f (s.chan n)) } }

/-- A region table entry. -/
def Chip.region (s : Chip) (i : Nat) : Region := Tab.get s.rgn.table Region.blank i

/-- A region table entry put back. -/
def Chip.setRegion (s : Chip) (i : Nat) (r : Region) : Chip :=
  { s with rgn := { s.rgn with table := Tab.set s.rgn.table Region.blank i r } }

/-- A management session. -/
def Chip.ses (s : Chip) : Session → SesState
  | .i2c => s.sec.i2c
  | .mgmt c => Tab.get s.sec.mgmt SesState.blank c

/-- An update of a management session. -/
def Chip.modSes (s : Chip) (q : Session) (f : SesState → SesState) : Chip :=
  match q with
  | .i2c => { s with sec := { s.sec with i2c := f s.sec.i2c } }
  | .mgmt c => { s with sec := { s.sec with mgmt := Tab.set s.sec.mgmt SesState.blank c (f (s.ses q)) } }

/-- A session that exists: the I2C target, which works while the always-on island does (17 R412), or a MGMT connection
that is not FREE (15 R375). -/
def Chip.sesLive (s : Chip) : Session → Bool
  | .i2c => s.glb.aonUp
  | .mgmt c => match s.conn c with
    | some k => k.mgmt
    | none => false

/-- A device's writer ID: the first 8 bytes of the SHA-384 of its identity public key (15 R382), 0 before LOCK. -/
def writerOf (otp : Otp) : BitVec 64 := match otp.identity with
  | some n => BitVec.ofNat 64 (unle ((be 48 (Config.sha384 (be 96 (Config.identityPub n).toNat)).toNat).take 8))
  | none => 0

/-- The page of a line number, and of a byte address. -/
def pageOfLine (l : Nat) : Nat := l / 1024

/-- The first live region entry that covers a page. -/
def Chip.regionOf (s : Chip) (p : Nat) : Option (Nat × Region) :=
  s.rgn.table.find? fun e => e.2.live && e.2.base ≤ p && p < e.2.base + e.2.len

/-- The placement class of a page: COLD where no live entry covers it (05 R124). -/
def Chip.classOf (s : Chip) (p : Nat) : Nat := match s.regionOf p with
  | some e => e.2.cls
  | none => 2

/-- The stripe set of a page: its region's, or the one its leaf entry names. -/
def Chip.setOf (s : Chip) (p : Nat) : Nat := match s.regionOf p with
  | some e => e.2.set
  | none => (Tab.get s.pgm.leaves Leaf.zero p).set

end Sys2Proof.Machine
end

