-- ==== Sys2Proof/Machine/Codes.lean ====
section
/-!
DEFINITION. The check codes of the spec: CRC-32C (03 R59), CRC-64 (09 R235), CRC-8 (08 Table 8-5), and what the DRAM
decoder makes of an error pattern (11 R277 to R279).
-/
namespace Sys2Proof.Machine

/-- `n` shifts of a reflected CRC register. -/
def crcShift (poly : Nat) : Nat → Nat → Nat
  | 0, c => c
  | n + 1, c => crcShift poly n (if c % 2 == 1 then Nat.xor (c / 2) poly else c / 2)

/-- A reflected CRC run over bytes. -/
def crcRun (poly : Nat) (c : Nat) : List Byte → Nat
  | [] => c
  | b :: r => crcRun poly (crcShift poly 8 (Nat.xor c b.toNat)) r

/-- CRC-32C: polynomial 0x1EDC6F41 reflected, initial value and final exclusive-or all ones (03 R59). -/
def crc32c (bs : List Byte) : Nat := Nat.xor (crcRun 0x82F63B78 0xFFFFFFFF bs) 0xFFFFFFFF

/-- CRC-64 of NVMe: polynomial 0xAD93_D235_94C9_3659 reflected (09 R235). -/
def crc64 (bs : List Byte) : Nat :=
  Nat.xor (crcRun 0x9A6C9329AC4BC9B5 0xFFFFFFFFFFFFFFFF bs) 0xFFFFFFFFFFFFFFFF

/-- One byte of a CRC-8 with polynomial 0x07, most significant bit first. -/
def crc8Byte : Nat → Nat → Nat
  | 0, c => c
  | n + 1, c => crc8Byte n (if 128 ≤ c then Nat.xor (c * 2 % 256) 7 else c * 2)

/-- CRC-8 of bytes, initial value 0 (08 Table 8-5). -/
def crc8 (bs : List Byte) : Nat := bs.foldl (fun c b => crc8Byte 8 (Nat.xor c b.toNat)) 0

/-- A leaf entry as its 64-bit word, CHECK included (08 Table 8-5); the CRC-8 runs from bit 63 down (log 21). -/
def Leaf.word (l : Leaf) : Nat :=
  let hi := l.kind * 2 ^ 54 + l.set * 2 ^ 52 + l.col * 2 ^ 47 + l.slot * 2 ^ 16 + l.lost
  hi * 256 + crc8 (be 7 hi)

/-- Product in GF(2^8) with field polynomial 0x11D (09 R233, 11 R277), by `n` shifts. -/
def gfMul : Nat → Nat → Nat → Nat
  | 0, _, _ => 0
  | n + 1, a, b =>
    Nat.xor (if b % 2 == 1 then a else 0)
      (gfMul n (if 128 ≤ a then Nat.xor (a * 2 % 256) 0x1D else a * 2) (b / 2))

/-- The weight 2^c of data column `c` in Q (09 R233). -/
def gfPow : Nat → Nat
  | 0 => 1
  | n + 1 => gfMul 8 (gfPow n) 2

/-- The P byte of a row of data columns: their exclusive-or. -/
def parityP (row : List Nat) : Nat := row.foldl Nat.xor 0

/-- The Q byte of a row of data columns: the Reed-Solomon syndrome with weights 2^c. -/
def parityQ (row : List Nat) : Nat :=
  (row.zipIdx).foldl (fun acc e => Nat.xor acc (gfMul 8 e.1 (gfPow e.2))) 0

/-- The nibble position of a symbol (11 R277). -/
def nibbleOf (sym : Nat) : Nat := sym % 10

/-- The device of a symbol, for the device width of the population. -/
def deviceOf (x8 : Bool) (sym : Nat) : Nat := if x8 then nibbleOf sym / 2 else nibbleOf sym

/-- The distinct devices of an error pattern. -/
def devicesOf (x8 : Bool) (errs : List (Nat × Byte)) : List Nat := (errs.map fun e => deviceOf x8 e.1).eraseDups

/-- An error pattern the decoder corrects with certainty (11 Table 11-1). -/
def correctable (x8 : Bool) (errs : List (Nat × Byte)) : Bool :=
  if x8 then errs.length ≤ 1 else errs.length ≤ 4 || (devicesOf x8 errs).length ≤ 1

/-- An error pattern that Table 11-1 guarantees to be detected. -/
def detected (x8 : Bool) (errs : List (Nat × Byte)) : Bool :=
  if x8 then 2 ≤ errs.length && errs.length ≤ 15 else 5 ≤ errs.length && errs.length ≤ 8 && !correctable x8 errs

/-- The stored poison word (11 R279) differs from the codeword of zeros in the 16 check symbols. -/
def poisonPattern : List (Nat × Byte) :=
  (List.range 80).filterMap fun s => if 8 ≤ s % 10 then some (s, 0x5A) else none

/-- The symbol-wise exclusive-or of two error patterns. -/
def xorPattern (a b : List (Nat × Byte)) : List (Nat × Byte) :=
  (List.range 80).filterMap fun s =>
    let v := Tab.get a 0 s ^^^ Tab.get b 0 s
    if v == 0 then none else some (s, v)

/-- How the decoder classifies a burst (11 R279). -/
inductive Burst where
  | good | corrected | poison | poisonCorrected | uncorrectable
  deriving DecidableEq, Repr

/-! ### RS(80,64) (11 R277) -/

/-- The burst symbol of a data byte, and of a check byte (11 R277). -/
def dataSym (b : Nat) : Nat := 10 * (b / 8) + b % 8
def checkSym (r : Nat) : Nat := 10 * (r / 2) + 8 + r % 2

/-- The power of x whose coefficient a burst symbol is: data bytes first, in order, then the check bytes (log 189). -/
def symPower (sym : Nat) : Nat := if sym % 10 < 8 then 79 - (8 * (sym / 10) + sym % 10) else 15 - (2 * (sym / 10) + (sym % 10 - 8))

/-- The burst symbol that is the coefficient of a power of x. -/
def powerSym (e : Nat) : Nat := if 16 ≤ e then dataSym (79 - e) else checkSym (15 - e)

/-- The inverse of a field element: its 254th power. -/
def gfInv (a : Nat) : Nat :=
  ((List.range 7).foldl (fun (t : Nat × Nat) _ => let q := gfMul 8 t.2 t.2; (gfMul 8 t.1 q, q)) (1, a)).1

/-- A polynomial plus a multiple of another, coefficient by coefficient from the lowest. -/
def gfAdd (a b : List Nat) (k : Nat) : List Nat :=
  (List.range (Nat.max a.length b.length)).map fun i => Nat.xor (a.getD i 0) (gfMul 8 (b.getD i 0) k)

/-- A polynomial's value. -/
def gfEval (p : List Nat) (y : Nat) : Nat := p.foldr (fun c v => Nat.xor c (gfMul 8 v y)) 0

/-- The generator polynomial, the product of x - 2^i for i = 0 to 15, lowest coefficient first (11 R277). -/
def rsGen : List Nat := (List.range 16).foldl (fun g i => gfAdd (0 :: g) g (gfPow i)) [1]

/-- The 16 check bytes of a line: the remainder of its data, as a polynomial times x^16, by the generator. -/
def rsCheck (data : List Byte) : List Byte :=
  let r := data.foldl (fun (r : List Nat) b =>
    let q := Nat.xor (r.getLast?.getD 0) b.toNat
    gfAdd (0 :: r.dropLast) (rsGen.take 16) q) (List.replicate 16 0)
  (r.map (BitVec.ofNat 8)).reverse

/-- The 80 symbols of the burst that carries a line and its check bytes (11 R277). -/
def burstSyms (data check : List Byte) : List Byte :=
  (List.range 80).map fun s => if s % 10 < 8 then data.getD (8 * (s / 10) + s % 10) 0 else check.getD (2 * (s / 10) + (s % 10 - 8)) 0

/-- What one symbol adds to each of the 16 syndromes. -/
def rsTerms : Nat → Nat → Nat → List Nat
  | 0, _, _ => []
  | n + 1, v, x => v :: rsTerms n (gfMul 8 v x) x

/-- The 16 syndromes of symbols at their places: those of a codeword are 0, so those of a burst are its error pattern's. -/
def syndromes (errs : List (Nat × Byte)) : List Nat :=
  errs.foldl (fun acc e => List.zipWith Nat.xor acc (rsTerms 16 e.2.toNat (gfPow (symPower e.1)))) (List.replicate 16 0)

/-- The state of the search for the shortest error locator that fits syndromes. -/
structure Locator where
  c : List Nat              -- the locator, lowest coefficient first
  old : List Nat            -- the locator before its length last changed, and the discrepancy then
  len : Nat
  gap : Nat
  disc : Nat

/-- One more syndrome fitted. -/
def Locator.fit (syn : List Nat) (t : Locator) (n : Nat) : Locator :=
  let d := (List.range (t.len + 1)).foldl (fun a i => Nat.xor a (gfMul 8 (t.c.getD i 0) (syn.getD (n - i) 0))) 0
  if d == 0 then { t with gap := t.gap + 1 }
  else
    let c := gfAdd t.c (List.replicate t.gap 0 ++ t.old) (gfMul 8 d (gfInv t.disc))
    if 2 * t.len ≤ n then { c, old := t.c, len := n + 1 - t.len, gap := 1, disc := d } else { t with c, gap := t.gap + 1 }

/-- The powers below `e` + `n` at whose inverses a locator is 0, with those inverses. -/
def locatorRoots (c : List Nat) : Nat → Nat → Nat → List (Nat × Nat)
  | 0, _, _ => []
  | n + 1, e, y => (if gfEval c y == 0 then [(e, y)] else []) ++ locatorRoots c n (e + 1) (gfMul 8 y (gfInv 2))

/-- The error pattern of weight 8 or less that syndromes give, if there is one (11 R278). -/
def rsPattern (syn : List Nat) : Option (List (Nat × Byte)) :=
  let t := (List.range 16).foldl (Locator.fit syn) { c := [1], old := [1], len := 0, gap := 1, disc := 1 }
  if 8 < t.len then none
  else
    let roots := locatorRoots t.c 80 0 1
    let omega := (List.range t.len).map fun k =>
      (List.range (k + 1)).foldl (fun a i => Nat.xor a (gfMul 8 (t.c.getD i 0) (syn.getD (k - i) 0))) 0
    let slope := (t.c.drop 1).zipIdx.map fun e => if e.2 % 2 == 0 then e.1 else 0
    let p := roots.map fun r =>
      (powerSym r.1, BitVec.ofNat 8 (gfMul 8 (gfMul 8 (gfInv r.2) (gfEval omega r.2)) (gfInv (gfEval slope r.2))))
    if roots.length == t.len && syndromes p == syn then some p else none

/-- The pattern that the decoder takes an error pattern for and removes, if any: the pattern itself where Table 11-1 corrects it,
else, where the table does not promise to detect it, a correctable one that differs from it by a codeword (11 R278). -/
def decodedAs (x8 : Bool) (errs : List (Nat × Byte)) : Option (List (Nat × Byte)) :=
  if correctable x8 errs then some errs
  else if detected x8 errs then none
  else (rsPattern (syndromes errs)).filter fun p => (x8 && p.length ≤ 1) || (!x8 && p.length ≤ 8 && correctable false p)

/-- What correction leaves wrong in each data byte of a line: all 0 unless a pattern was taken for another (11 R278). -/
def residue (x8 : Bool) (errs : List (Nat × Byte)) : List Byte :=
  let left := match decodedAs x8 errs with
    | some p => xorPattern errs p
    | none => []
  (List.range 64).map fun b => ((left.find? fun e => e.1 == dataSym b).map (·.2)).getD 0

/-- An error pattern as seen from the good codeword, and from the poison word. -/
def fromGood (poisoned : Bool) (errs : List (Nat × Byte)) : List (Nat × Byte) := if poisoned then xorPattern errs poisonPattern else errs
def fromPoison (poisoned : Bool) (errs : List (Nat × Byte)) : List (Nat × Byte) := if poisoned then errs else xorPattern errs poisonPattern

/-- The classification of R279 of a burst whose error pattern is given relative to what is stored: S is 0 where the pattern
seen from the good codeword leaves nothing to correct. -/
def classify (x8 poisoned : Bool) (errs : List (Nat × Byte)) : Burst :=
  let good := decodedAs x8 (fromGood poisoned errs)
  let poison := decodedAs x8 (fromPoison poisoned errs)
  if good == some [] then .good
  else if poison == some [] then .poison
  else match good.isSome, poison.isSome with
    | true, false => .corrected
    | false, true => .poisonCorrected
    | _, _ => .uncorrectable

end Sys2Proof.Machine
end

