-- ==== Sys2Proof/Machine/Params.lean ====
section
/-!
DEFINITION. The RW parameter registers of 17 Tables 17-3 and 17-20, field by field, with the defaults and ranges of the
parameter tables (06 Table 6-6, 07 7-2, 08 8-10, 09 9-9, 10 10-6, 11 11-4, 12 12-8, 13 13-8) and the clamp of 14 R365.
-/
namespace Sys2Proof.Machine

/-- One RW field: its place, default, range, step, role (1 O, 2 I, 3 M), whether it applies at the next start only, and
whether it takes listed codes only. -/
structure Field where
  lsb : Nat
  width : Nat
  dflt : Nat
  lo : Nat
  hi : Nat
  step : Nat := 1
  next : Bool := false
  coded : Bool := false
  role : Nat := 2
  deriving DecidableEq, Repr

/-- A field in the low bits of its register with a default and a range. -/
def fld (dflt lo hi : Nat) (step : Nat := 1) (next : Bool := false) (coded : Bool := false) : Field :=
  { lsb := 0, width := 32, dflt, lo, hi, step, next, coded }

/-- A field of one or more bits at a place, every value allowed. -/
def bitsFld (lsb width dflt : Nat) (next : Bool := false) : Field :=
  { lsb, width, dflt, lo := 0, hi := 2 ^ width - 1, next }

/-- Single registers of GLB, XPT, CMT and BPM. -/
def paramsA : List (Nat × List Field) :=
  [ (0x10, [bitsFld 0 1 0]),
    (0x200000, [{ lsb := 0, width := 16, dflt := 48720, lo := 0, hi := 65535 }]),
    (0x200004, [fld 50 10 1000]),
    (0x200008, [fld 256 4 256]),
    (0x20000C, [fld 2097152 16384 2097152 8192]),
    (0x200010, [fld 100 1 1000]),
    (0x200014, [fld 60000 1000 600000]),
    (0x4E0000, [fld 20 1 1000]),
    (0x4E0004, [bitsFld 0 1 1, bitsFld 1 1 1, bitsFld 2 1 1]),
    (0x500000, [fld 40960 0 0xFFFFFFFF 1 true]),
    (0x500004, [fld 32768 0 0xFFFFFFFF 1 true]),
    (0x500008, [fld 16384 0 0xFFFFFFFF 1 true]),
    (0x50000C, [fld 40960 0 0xFFFFFFFF 1 true]),
    (0x500010, [fld 2048 64 131072]),
    (0x500014, [fld 5 1 1000]) ]

/-- Single registers of LCC, PGM, NVH and STR. -/
def paramsB : List (Nat × List Field) :=
  [ (0x6E0000, [bitsFld 0 1 1, { lsb := 8, width := 4, dflt := 0, lo := 0, hi := 8 }]),
    (0x6E0010, [fld 0 0 0xFFFFFFFF]),
    (0x6E0014, [fld 0 0 0xFFFFFFFF]),
    (0x6E0018, [fld 0 0 0xFFFFFFFF]),
    (0x6E001C, [fld 0 0 0xFFFFFFFF]),
    (0x700000, [fld 0 1 (2 ^ 31) 1 true]),
    (0x700004, [fld 16384 1024 65536 64]),
    (0x700014, [fld 0 1024 0xFFFFFFFF]),
    (0x700018, [fld 500 1 60000]),
    (0x70001C, [fld 0 0 0xFFFFFFFF]),
    (0x700028, [fld 1000 100 100000]),
    (0x70002C, [fld 50 1 10000]),
    (0x8E0000, [fld 100 1 1000 1 true]),
    (0x900300, [bitsFld 0 2 0]),
    (0x900304, [fld 0 0 0xFFFFFFFF]),
    (0x900308, [fld 5000 100 60000]),
    (0x90030C, [fld 10 1 600 1 true]),
    (0x900310, [fld 25 5 50]),
    (0x900314, [fld 10 5 47]),
    (0x900318, [fld 5 2 25 1 true]),
    (0x90031C, [fld 8192 1024 32768]),
    (0x900320, [fld 10 0 3600]),
    (0x900324, [fld 1000000 1000 60000000]),
    (0x900328, [bitsFld 0 2 0, bitsFld 8 5 0, bitsFld 16 5 0, bitsFld 30 1 0]) ]

/-- Single registers of DMC, MEI and SYZ. -/
def paramsC : List (Nat × List Field) :=
  [ (0xAE0000, [fld 2 0 2 1 true true]),
    (0xAE0004, [fld 16 8 32]),
    (0xAE0008, [fld 85 75 85]),
    (0xAE000C, [fld 95 77 105]),
    (0xAE0010, [fld 2048 256 16384]),
    (0xAE0014, [fld 32 8 64]),
    (0xAE0018, [fld 500 100 100000]),
    (0xAE001C, [fld 100 1 10000]),
    (0xAE0020, [bitsFld 0 2 0]),
    (0xAE0024, [fld 0 0 2 1 false true]),
    (0xB00004, [fld 86400 3600 2592000]),
    (0xB00008, [bitsFld 0 1 1]),
    (0xB0000C, [fld 4 2 64]),
    (0xB00010, [fld 1024 16 1048576]),
    (0xC00100, [fld 0 0 1 1 true true]),
    (0xC00104, [fld 16 1 64 1 true]),
    (0xC00108, [fld 0 0 0xFFFFFFFF 1 true]),
    (0xC0010C, [{ lsb := 0, width := 16, dflt := 0x88B5, lo := 0x0600, hi := 0xFFFF, next := true }]),
    (0xC00110, [fld 3 2 10]),
    (0xC00114, [fld 2000 500 20000]),
    (0xC00118, [fld 5000 1500 100000]),
    (0xC0011C, [fld 100 10 1000]),
    (0xC00120, [fld 2000 200 20000]),
    (0xC00124, [fld 700 300 10000 1 true]),
    (0xC00128, [fld 20 5 1000]),
    (0xC0012C, [fld 75 50 90]),
    (0xC00130, [fld 4096 64 65536]),
    (0xC00134, [fld 1 0 1 1 true true]),
    (0xC00138, [fld 30 1 1000]) ]

/-- Single registers of PWS, ECL, CFG and FLT. -/
def paramsD : List (Nat × List Field) :=
  [ (0xD00008, [fld 50 50 10000]),
    (0xE00000, [fld 1000000 100000 10000000]),
    (0xE00008, [fld 20 5 50]),
    (0xE0000C, [fld 500 100 5000]),
    (0xE00010, [fld 4000 500 200000 1 true]),
    (0xE00014, [fld 20 1 1000]),
    (0xF00034, [fld 900 100 60000]),
    (0x1200008, [fld 2 0 4]) ]

/-- An address of an array of words, `n` entries from a base, `stride` apart. -/
def inArray (a base n stride : Nat) : Bool := base ≤ a && a < base + n * stride && (a - base) % stride == 0

/-- The RW fields of a parameter register. -/
def fieldsOf (a : Nat) : Option (List Field) :=
  match (paramsA ++ paramsB ++ paramsC ++ paramsD).find? (·.1 == a) with
  | some e => some e.2
  | none =>
    if inArray a 0x201000 64 4 then some [fld 0 0 0xFFFFFFFF]
    else if inArray a 0x501000 64 4 then some [fld 8192 0 131072]
    else if inArray a 0x501100 64 4 then some [fld 8192 64 131072]
    else if inArray a 0x800000 16 0x1000 then
      some [bitsFld 0 1 0 true, { lsb := 1, width := 2, dflt := 2, lo := 0, hi := 2, next := true, coded := true }]
    else if inArray a 0x800004 16 0x1000 then some [fld 64 16 256]
    else if inArray a 0x900340 4 4 then some [fld 604800 3600 31536000]
    else if inArray (a % 0x10000) 0x300 16 4 && 0xA00000 ≤ a && a < 0xAC0000 then some [fld 0 0 0xFFFFFFFF]
    else if inArray (a - 0xA00080) 0 12 0x10000 && 0xA00080 ≤ a then some [bitsFld 0 4 0, bitsFld 4 4 0, bitsFld 8 4 0]
    else none

/-- The bits of a field in a word. -/
def Field.get (f : Field) (w : Nat) : Nat := bits w (f.lsb + f.width - 1) f.lsb

/-- A word with a field's bits replaced. -/
def Field.put (f : Field) (w v : Nat) : Nat := w - f.get w * 2 ^ f.lsb + (v % 2 ^ f.width) * 2 ^ f.lsb

/-- The reset value of a parameter register: the defaults of its fields. -/
def dfltWord (a : Nat) : Nat := match fieldsOf a with
  | some fs => fs.foldl (fun w f => f.put w f.dflt) 0
  | none => 0

/-- The value of a parameter register in force. -/
def Chip.par (s : Chip) (a : Nat) : Nat := Tab.get s.regs (dfltWord a) a

/-- A parameter register set. -/
def Chip.setPar (s : Chip) (a v : Nat) : Chip := { s with regs := Tab.set s.regs (dfltWord a) a v }

/-- Drive ports that some configured set's mask names. -/
def Chip.masked (s : Chip) : Nat := s.str.sets.foldl (fun m e => if e.2.cfg.on then m ||| e.2.cfg.mask else m) 0

/-- Highest PGM_PIN_LIMIT (08 R197). -/
def Chip.pinBound (s : Chip) : Nat := s.pgm.total - (s.pgm.budget * 16 + 4 * s.par 0x700014)

/-- budget_fit of 13 R341 in bytes, rounded down to 64 MiB. -/
def Chip.budgetFit (s : Chip) : Nat :=
  let fixed := s.par 0xE0000C + 19000
  (s.par 0xE00000 * (100 - s.par 0xE00008) - 100 * fixed) * s.ecl.rate / 200 / 67108864 * 67108864

/-- Bounds of a field, those that depend on other fields or on hardware included. -/
def Chip.bounds (s : Chip) (a : Nat) (f : Field) : Nat × Nat :=
  if inArray a 0x501000 64 4 then (0, s.bpm.sizes.getD 0 0)
  else if inArray a 0x501100 64 4 then (64, s.bpm.sizes.getD 1 0 - 256)
  else if a == 0x500010 then (64, s.bpm.sizes.getD 0 0)
  else if a == 0x700004 then (1024, Nat.min 65536 s.pgm.budget0)
  else if a == 0x700014 && s.cfg.dramDone then (1024, s.pgm.total / 8)
  else if a == 0x70001C && s.cfg.dramDone then (0, s.pinBound)
  else if a == 0x900310 then (Nat.max 5 (s.par 0x900314 + 3), 50)
  else if a == 0x900314 then (5, s.par 0x900310 - 3)
  else if a == 0xAE000C then (s.par 0xAE0008 + 2, 105)
  else if a == 0xC00118 then (s.par 0xC00114 + 1000, 100000)
  else if a == 0xC00120 then (s.par 0xE00000 / 1000 + 100, s.par 0xE00000 / 1000 + 10000)
  else (f.lo, f.hi)

/-- The clamp of 14 R365: round down to the step, then the nearest bound, or the default where codes are listed. -/
def Field.clamp (f : Field) (b : Nat × Nat) (v : Nat) : Nat :=
  let w := v - v % f.step
  if f.coded && (w < b.1 || b.2 < w) then f.dflt else Nat.max b.1 (Nat.min b.2 w)

/-- A parameter as a time in ns, from µs, ms or s. -/
def Chip.parUs (s : Chip) (a : Nat) : Nat := s.par a * 1000

/-- Logical host ports that are up. -/
def Chip.portUp (s : Chip) (p : Nat) : Bool := bit s.hpx.up p

/-- The largest multiple of 64 that fits the smallest maximum frame of an up port (03 R64): 102 bytes of an untagged
IPv6 frame stand around a payload (03, Host ports) (log 142). -/
def Chip.maxPayload (s : Chip) : Nat :=
  let fs := (bitsOf 16 s.hpx.up).map fun p => Tab.get s.hpx.frame 1518 p - (if Tab.get s.hpx.vlan 0 p == 0 then 102 else 106)
  Nat.min 8192 (minOf 8192 fs / 64 * 64)

end Sys2Proof.Machine
end

