-- ==== Sys2Proof/Machine/Pool.lean ====
section
/-!
DEFINITION. The buffer pool's cells and chains (06 R155 to R164), as the other units allocate and free them.
-/
namespace Sys2Proof.Machine

/-- The first cell of a pool. -/
def Bpm.base (b : Bpm) (p : Nat) : Nat := (b.sizes.take p).foldl (· + ·) 0

/-- Cells of a pool that are allocated. -/
def Bpm.usedIn (b : Bpm) (p : Nat) : Nat :=
  (b.cells.filter fun e => e.2 && b.base p ≤ e.1 && e.1 < b.base p + b.sizes.getD p 0).length

/-- Free cells of a pool: BPM_FREE_NOW. -/
def Bpm.freeNow (b : Bpm) (p : Nat) : Nat := b.sizes.getD p 0 - b.usedIn p

/-- Cells of a pool charged to a protection group (06 R161). -/
def Bpm.heldByGroup (b : Bpm) (p g : Nat) : Nat :=
  b.chains.foldl (fun n e => if e.2.pool == p && e.2.group == some g then n + e.2.cells.length else n) 0

/-- Host-ingress cells charged to a comet. -/
def Bpm.heldByComet (b : Bpm) (c : Nat) : Nat :=
  b.chains.foldl (fun n e => if e.2.pool == 0 && e.2.comet == some c then n + e.2.cells.length else n) 0

/-- The `n` lowest free cells from an index on (log 10). -/
def freeCells (cells : Tab Bool) : Nat → Nat → Nat → List Nat
  | 0, _, _ => []
  | _, _, 0 => []
  | fuel + 1, i, n + 1 =>
    if Tab.get cells false i then freeCells cells fuel (i + 1) (n + 1) else i :: freeCells cells fuel (i + 1) n

/-- Whether an allocation of `n` cells stays within the pool and the quotas (06 R158, R160, R161). -/
def Chip.allocFits (s : Chip) (pool : Nat) (g c : Option Nat) (n : Nat) : Bool :=
  let reserve := if pool == 1 then 256 else 0
  n + reserve ≤ s.bpm.freeNow pool &&
  (match g with
   | some g =>
     (pool != 0 || s.bpm.heldByGroup 0 g + n ≤ s.par (0x501000 + 4 * g)) &&
     (pool != 1 || s.bpm.heldByGroup 1 g + n ≤ s.par (0x501100 + 4 * g))
   | none => true) &&
  (match c with
   | some c => pool != 0 || s.bpm.heldByComet c + n ≤ s.par 0x500010
   | none => true)

/-- The cells marked allocated or free. -/
def markCells (cells : Tab Bool) (used : Bool) (l : List Nat) : Tab Bool :=
  l.foldl (fun t i => Tab.set t false i used) cells

/-- ALLOCATE: a new chain owned by the agent, or none (06 R157, R158, R162). -/
def Chip.alloc (s : Chip) (ag : Agent) (pool : Nat) (g c : Option Nat) (n : Nat) : Option Handle × Chip :=
  if s.allocFits pool g c n then
    match freeCells s.bpm.cells (s.bpm.sizes.getD pool 0) (s.bpm.base pool) n with
    | [] => (none, s)
    | h :: r =>
      let gen := (Tab.get s.bpm.gens 0 h + 1) % 256
      let ch : Chain := { gen, pool, cells := h :: r, owner := ag, sharers := [], last := none, rel := 0,
                          deferred := false, group := g, comet := c }
      (some { head := h, gen },
        { s with bpm := { s.bpm with gens := Tab.set s.bpm.gens 0 h gen, cells := markCells s.bpm.cells true (h :: r),
                                     chains := Tab.ins s.bpm.chains h ch } })
  else (none, s)

/-- The chain a handle names, if its generation matches the head cell's (06 R164 row 1). -/
def Chip.chain (s : Chip) (h : Handle) : Option Chain :=
  match Tab.find s.bpm.chains h.head with
  | some ch => if ch.gen == h.gen then some ch else none
  | none => none

/-- Cells of a chain up to the first whose state bit is already free (06 R164 row 0). -/
def walk (cells : Tab Bool) : List Nat → List Nat
  | [] => []
  | i :: r => if Tab.get cells false i then i :: walk cells r else []

/-- Every cell of a chain returns to its pool, the walk stopping at a free cell. -/
def Chip.dropChain (s : Chip) (h : Handle) : Chip :=
  match s.chain h with
  | none => s
  | some ch =>
    { s with bpm := { s.bpm with cells := markCells s.bpm.cells false (walk s.bpm.cells ch.cells),
                                 chains := Tab.del s.bpm.chains h.head } }

/-- Several chains freed. -/
def Chip.dropChains (s : Chip) (hs : List Handle) : Chip := hs.foldl Chip.dropChain s

/-- A sharer's RELEASE (06 R162, R163): the last one frees a chain whose FREE was deferred. -/
def Chip.releaseChain (s : Chip) (ag : Agent) (h : Handle) : Chip :=
  match s.chain h with
  | none => s
  | some ch =>
    if ch.sharers.contains ag && ch.last != some ag then
      let ch' := { ch with sharers := ch.sharers.filter (· != ag), rel := ch.rel - 1 }
      let s1 := { s with bpm := { s.bpm with chains := Tab.ins s.bpm.chains h.head ch' } }
      if ch.deferred && ch'.rel == 0 then s1.dropChain h else s1
    else s

/-- FREE by the owner or last owner, deferred while RELEASEs are outstanding (06 R163). -/
def Chip.freeChain (s : Chip) (ag : Agent) (h : Handle) : Chip :=
  match s.chain h with
  | none => s
  | some ch =>
    if ch.sharers.isEmpty then (if ch.owner = ag then s.dropChain h else s)
    else if ch.last = some ag then
      if ch.rel == 0 then s.dropChain h
      else
        let chains := Tab.ins s.bpm.chains h.head { ch with deferred := true }
        ({ s with bpm := { s.bpm with chains := chains } }).count 0x500018
    else s

/-- SYZ frees a chain it is last owner of, its mirror path releasing it first (06 R163; log 124). -/
def Chip.syzFree (s : Chip) (h : Handle) : Chip := (s.releaseChain .mirrorPath h).freeChain .syz h

/-- A chain shared among agents, one of them named last owner (06 R162): the final RELEASE is the last of as many as the list has sharers
less one. The spec does not say what a list that leaves out the owner or the last owner does: it is accepted as given (DESIGN CHOICE,
log 184). -/
def Chip.shareChain (s : Chip) (h : Handle) (sharers : List Agent) (last : Agent) : Chip :=
  match s.chain h with
  | none => s
  | some ch =>
    let ch' := { ch with sharers := sharers, last := some last, rel := sharers.length - 1 }
    { s with bpm := { s.bpm with chains := Tab.ins s.bpm.chains h.head ch' } }

end Sys2Proof.Machine
end

