-- ==== Sys2Proof/Machine/Wire.lean ====
section
/-!
DEFINITION. How a packet leaves a host port (03 R56 to R59, R74): its VRMT header, payload and trailer, the IP and UDP fields
around it, and the wait for a PAUSE to end.
-/
namespace Sys2Proof.Machine

/-- The host ports transmit: not stopped (01 R26) and D20 powered (13 Table 13-5). -/
def Chip.hostOn (s : Chip) : Bool := !s.hpx.stopped && !bit s.pws.gated 20

/-! ### The VRMT packet -/

/-- Flags of a packet the device sends (03 Table 3-4): FIRST, LAST and RETRY; it asks for no ACK (log 118). -/
def DevPkt.flags (p : DevPkt) : Nat := b2n (p.index == 0) + 2 * b2n (p.index + 1 == p.count) + 64 * b2n p.retry

/-- The header of a packet the device sends (03 Table 3-3); its port hint states no preference (log 118). -/
def DevPkt.header (p : DevPkt) : List Byte :=
  [BitVec.ofNat 8 (16 + p.cls), BitVec.ofNat 8 p.op] ++ be 2 p.flags ++ be 3 p.conn ++ [0xFF] ++ be 4 p.psn ++
  be 2 p.msgId ++ [BitVec.ofNat 8 p.index, BitVec.ofNat 8 p.count] ++ be 4 p.key ++ be 6 p.offset ++
  be 2 p.payload.length ++ be 4 p.opField

/-- Header, payload and CRC-32C trailer (03 R58, R59). -/
def DevPkt.bytes (p : DevPkt) : List Byte :=
  let b := p.header ++ p.payload
  b ++ be 4 (crc32c b)

/-! ### IP and UDP -/

/-- A port with no addresses: hop limit 64 (03 Table 3-2). -/
def PortAddr.blank : PortAddr := { v6 := 0, plen := 64, router := 0, v4 := 0, pcp := 0, hop := 64, dscp := [0, 0, 0, 0] }

/-- The addresses of a logical port. -/
def Chip.portAddr (s : Chip) (port : Nat) : PortAddr := Tab.get s.hpx.addr PortAddr.blank port

/-- An IPv4 address as `::ffff:a.b.c.d` (03 Table 3-10). -/
def mapV4 (a : BitVec 32) : BitVec 128 := BitVec.ofNat 128 (0xFFFF * 2 ^ 32 + a.toNat)

/-- An address that stands for an IPv4 one. -/
def isV4 (a : BitVec 128) : Bool := a.toNat / 2 ^ 32 == 0xFFFF

/-- Which of the four DSCP values a packet takes (03 Table 3-2): responses, control packets, NOTIFY and MGMT (log 153). -/
def dscpKind (op : Nat) : Nat :=
  if op == 0x14 || op == 0x21 then 2
  else if op == 0x09 || op == 0x0A || op == 0x0B || op == 0x12 || op == 0x13 then 1
  else 0

/-- The tag and IP class of a frame of one of the four kinds. -/
def Chip.ipTag (s : Chip) (port kind : Nat) : IpTag :=
  let a := s.portAddr port
  { vlan := Tab.get s.hpx.vlan 0 port, pcp := a.pcp, hop := a.hop, dscp := a.dscp.getD kind 0, ecn := 0 }

/-- Sum of the 16-bit words of bytes, most significant byte first. -/
def sum16 : List Byte → Nat
  | a :: b :: r => a.toNat * 256 + b.toNat + sum16 r
  | [a] => a.toNat * 256
  | [] => 0

/-- The UDP checksum over a pseudo-header and a datagram: never sent as 0. -/
def udpSum (bs : List Byte) : Nat :=
  let s := sum16 bs
  let c := 65535 - (if s == 0 then 0 else (s - 1) % 65535 + 1)
  if c == 0 then 65535 else c

/-- The IP and UDP fields of a datagram to a host: source port XPT_UDP_PORT and the service address of the port (03 R74)
(log 152). -/
def Chip.ipHead (s : Chip) (port kind : Nat) (dst : BitVec 128) (dport : Nat) (bytes : List Byte) : IpHead :=
  let a := s.portAddr port
  let v4 := isV4 dst
  let src := if v4 then mapV4 a.v4 else a.v6
  let near := src.toNat / 2 ^ (128 - a.plen) == dst.toNat / 2 ^ (128 - a.plen)
  let sport := s.par 0x200000
  let len := bytes.length + 8
  let udp := be 2 sport ++ be 2 dport ++ be 2 len ++ bytes
  let pseudo := if v4 then be 4 (a.v4.toNat) ++ be 4 (dst.toNat % 2 ^ 32) ++ [0, 17] ++ be 2 len
    else be 16 src.toNat ++ be 16 dst.toNat ++ be 4 len ++ be 4 17
  { tag := s.ipTag port kind, src, dst, next := if v4 || near then dst else a.router, sport, dport,
    cksum := udpSum (pseudo ++ udp), df := v4 }

/-- An address is a service address of some logical port (03 Table 3-2). -/
def Chip.ownV6 (s : Chip) (a : BitVec 128) : Bool := s.hpx.addr.any (·.2.v6 == a)
def Chip.ownV4 (s : Chip) (a : BitVec 32) : Bool := s.hpx.addr.any (·.2.v4 == a)

/-! ### The PHYs -/

/-- Auto-negotiation and link training of a port in C2C use run, or have ended with its link up (03 R55). In C2M use they
are off (log 154). -/
def Chip.train (s : Chip) (port : Nat) (on : Bool) : Chip :=
  { s with hpx := { s.hpx with training := setBit s.hpx.training port (on && bit s.hpx.c2c port) } }

/-! ### Sending -/

/-- Something sent on a logical port; it waits while a PAUSE is in force there (03 Table 3-2). -/
def Chip.send (s : Chip) (port : Nat) (o : Out) : Chip :=
  if s.now < Tab.get s.hpx.paused 0 port then { s with hpx := { s.hpx with held := s.hpx.held ++ [(port, o)] } }
  else s.emit o

/-- What waited for a PAUSE that has ended sent, the oldest first; ports that do not transmit lose it. -/
def Chip.unpause (s : Chip) : Chip :=
  let due := s.hpx.held.filter fun e => Tab.get s.hpx.paused 0 e.1 ≤ s.now
  let s1 := { s with hpx := { s.hpx with held := s.hpx.held.filter fun e => s.now < Tab.get s.hpx.paused 0 e.1 } }
  if s.hostOn then s1.emits (due.map (·.2)) else s1

/-- How long a next hop counts as reachable without being heard (RFC 4861, log 187). -/
def reachableTime : Nat := 30000000000

/-- A next hop known to be reachable on a port. -/
def Chip.reachable (s : Chip) (port : Nat) (a : BitVec 128) : Chip :=
  { s with hpx := { s.hpx with
      neigh := { port, addr := a, seen := s.now } :: s.hpx.neigh.filter fun n => !(n.port == port && n.addr == a) } }

/-- A next hop resolved (03 Table 3-2): one that is not known, or has not been heard for `reachableTime`, is solicited, and
counts as reachable again (log 187). -/
def Chip.solicit (s : Chip) (port : Nat) (a : BitVec 128) : Chip :=
  if s.hpx.neigh.any fun n => n.port == port && n.addr == a && s.now ≤ n.seen + reachableTime then s
  else (s.send port (.neighborSol port (s.ipTag port 3) a)).reachable port a

/-- A resolved next hop from which a packet arrives is reachable. -/
def Chip.hearFrom (s : Chip) (port : Nat) (a : BitVec 128) : Chip :=
  if s.hpx.neigh.any fun n => n.port == port && n.addr == a then s.reachable port a else s

/-- A VRMT packet sent on a logical port, its next hop resolved. -/
def Chip.sendPacket (s : Chip) (port : Nat) (dst : BitVec 128) (dport : Nat) (p : DevPkt) : Chip :=
  let q := { p with port }
  let head := s.ipHead port (dscpKind p.op) dst dport q.bytes
  (s.solicit port head.next).send port (.packet port head q q.bytes)

end Sys2Proof.Machine
end

