-- ==== Sys2Proof/Machine/Tx.lean ====
section
/-!
DEFINITION. What the device sends on a connection (03 R66 to R72, R82, R83): packets with their own PSN, held until they
are acknowledged, and control packets.
-/
namespace Sys2Proof.Machine

/-- The ports a connection was received on within the last keepalive interval that are up, ascending (03 R82). -/
def Chip.portSet (s : Chip) (k : Conn) : List Nat :=
  (List.range 16).filter fun p => s.portUp p && k.ports.any fun e => e.1 == p && s.now ≤ e.2 + k.ka * 1000000

/-- The next of some ports in turn after the one last sent on. -/
def nextPort (last dflt : Nat) (ports : List Nat) : Nat := ((ports.find? (last < ·)).orElse fun _ => ports.head?).getD dflt

/-- The port a packet goes out on (03 R82): the hint, else round-robin over the ports received on, else the CONNECT's;
a retransmission leaves the previous port where the set holds more than one. -/
def Chip.txPort (s : Chip) (k : Conn) (prev : Option Nat) : Nat :=
  let ports := s.portSet k
  let first := if k.hint < 16 && s.portUp k.hint then k.hint else nextPort k.rr k.connPort ports
  match prev with
  | some q => if first == q && 1 < ports.length then nextPort k.rr first (ports.filter (· != q)) else first
  | none => first

/-- A device packet with no PSN of its own yet. -/
def DevPkt.make (conn op msgId key offset opField : Nat) (payload : List Byte) : DevPkt :=
  { cls := 1, conn, op, psn := 0, msgId, index := 0, count := 1, key, offset, opField, payload, chain := none, retry := false, port := 0, turn := none }

/-- A packet put on the wire, if the host ports transmit. -/
def Chip.wire (s : Chip) (c : Nat) (k : Conn) (p : DevPkt) (prev : Option Nat) : Chip :=
  if s.hostOn then
    let port := s.txPort k prev
    (s.setConn c { k with rr := port }).sendPacket port k.host k.sport { p with cls := if k.mgmt then 2 else 1 }
  else s.setConn c k

/-- The NOTIFY RESUMED or TAKEOVER of a connection is still to go out: it is the first device packet after CONNECT_RESP
(03 R81, R88). -/
def Conn.greeting (k : Conn) : Bool := k.wait.any fun p => p.op == 0x14 && (p.payload.take 1 == [1] || p.payload.take 1 == [2])

/-- A control packet (ACK, NAK, WINDOW, KEEPALIVE, DISCONNECT), built from the control reserve (06 R160). One that would
precede the connection's first NOTIFY waits for it, but a DISCONNECT, which ends the connection, does not (log 188). -/
def Chip.control (s : Chip) (c op psn msgId key offset opField : Nat) (payload : List Byte) : Chip :=
  match s.conn c with
  | none => s
  | some k =>
    let p := { DevPkt.make c op msgId key offset opField payload with psn }
    if k.greeting && op != 0x12 then s.setConn c { k with behind := k.behind ++ [p] } else s.wire c k p none

/-- The control packets that waited for the first NOTIFY sent, once it is out. -/
def Chip.catchUp (s : Chip) (c : Nat) : Chip :=
  match s.conn c with
  | none => s
  | some k =>
    if k.greeting then s
    else k.behind.foldl (fun t p => match t.conn c with
      | some j => t.wire c j p none
      | none => t) (s.setConn c { k with behind := [] })

/-- Cells a packet with its own PSN needs and does not bring (06 R159): one for an ATOMIC_RESP or FLUSH_RESP, two for a
NOTIFY with an event record. -/
def DevPkt.cells (p : DevPkt) : Nat :=
  if p.op == 0x14 then (if p.payload.length ≤ 16 then 1 else 2)
  else if p.op == 0x06 || p.op == 0x08 then 1
  else if p.op == 0x21 then ceilDiv p.payload.length 256
  else 0

/-- A packet has the cells that hold it until it is acknowledged. -/
def DevPkt.built (p : DevPkt) : Bool := p.chain.isSome || p.cells == 0

/-- The payload bytes of the packets held from PSN `a` + 1 on. -/
def heldBytes (l : List DevPkt) : Nat := l.foldl (fun n p => n + p.payload.length) 0

/-- Whether the host's window admits one more packet (03 R67). -/
def Conn.admits (k : Conn) (p : DevPkt) : Bool :=
  let d := psnSub (psnAdd k.tx 1) k.hostCum
  1 ≤ d && d ≤ k.hostWp && heldBytes k.held + p.payload.length ≤ k.hostWb

/-- The first waiting packet sent under the next device PSN, if it is built and the window admits it. -/
def Chip.pumpOne (s : Chip) (c : Nat) : Chip :=
  match s.conn c with
  | none => s
  | some k =>
    match k.wait with
    | [] => s
    | p :: rest =>
      if !s.hostOn || !k.admits p || k.st == .aborting || !p.built then s
      else
        let psn := psnAdd k.tx 1
        let q := { p with cls := if k.mgmt then 2 else 1, psn }
        let port := s.txPort k none
        (s.wire c { k with tx := psn, wait := rest, held := k.held ++ [{ q with port }] } q none).catchUp c

/-- Waiting packets sent while they can be. -/
def Chip.pump : Nat → Chip → Nat → Chip
  | 0, s, _ => s
  | n + 1, s, c => Chip.pump n (s.pumpOne c) c

/-- Every packet of a connection that can go out sent. -/
def Chip.pumpAll (s : Chip) (c : Nat) : Chip := match s.conn c with
  | some k => Chip.pump k.wait.length s c
  | none => s

/-- A packet with its own PSN queued: it takes its cells at once, or waits for them in turn, counted once (06 R159,
Table 6-3). -/
def Chip.queueTx (s : Chip) (c : Nat) (p : DevPkt) : Chip :=
  match s.conn c with
  | none => s
  | some k =>
    if k.st == .aborting then s
    else if p.built then (s.setConn c { k with wait := k.wait ++ [p] }).pumpAll c
    else
      match s.alloc .xpt 1 (some k.group) none p.cells with
      | (some h, t) => (t.setConn c { k with wait := k.wait ++ [{ p with chain := some h }] }).pumpAll c
      | (none, _) =>
        let t := s.count 0x500034
        let n := t.bpm.turns
        ({ t with bpm := { t.bpm with owed := t.bpm.owed ++ [(c, n)], turns := n + 1 } }).setConn c
          { k with wait := k.wait ++ [{ p with turn := some n }] }

/-- A packet that waits for cells, and whether it is built: if they are there now, or it has gone. -/
def Chip.buildOwed (s : Chip) (e : Nat × Nat) : Bool × Chip :=
  match s.conn e.1 with
  | none => (true, s)
  | some k =>
    match k.wait.find? fun p => p.turn == some e.2 with
    | none => (true, s)
    | some p =>
      match s.alloc .xpt 1 (some k.group) none p.cells with
      | (some h, t) =>
        let wait := k.wait.map fun x => if x.turn == some e.2 then { x with chain := some h, turn := none } else x
        (true, (t.setConn e.1 { k with wait }).pumpAll e.1)
      | (none, _) => (false, s)

/-- Waiting packets built in their order, till one finds no cells; with those that wait on. -/
def Chip.buildInOrder : List (Nat × Nat) → Chip → List (Nat × Nat) × Chip
  | [], s => ([], s)
  | e :: r, s =>
    let x := s.buildOwed e
    if x.1 then Chip.buildInOrder r x.2 else (e :: r, s)

/-- Host-egress cells were freed: packets that wait for cells are built, in the order their failures occurred (06 Table 6-3): one that
still finds none holds back those after it (log 52). -/
def Chip.pumpOwed (s : Chip) : Chip :=
  let x := Chip.buildInOrder s.bpm.owed s
  let new := x.2.bpm.owed.drop s.bpm.owed.length
  { x.2 with bpm := { x.2.bpm with owed := x.1 ++ new } }

/-- The notice period after the unit became ACTIVE runs (03 R88). -/
def Chip.noticed (s : Chip) : Bool := match s.glb.activeAt with
  | some t => s.now ≤ t + s.par 0x200014 * 1000000
  | none => false

/-- A NOTIFY payload (03 Table 3-17). -/
def Chip.notifyBytes (s : Chip) (code flags detail seq : Nat) (body : List Byte) : List Byte :=
  [BitVec.ofNat 8 code, BitVec.ofNat 8 flags, BitVec.ofNat 8 detail, 0] ++ be 4 s.glb.epoch ++ be 8 seq ++ body

/-- A NOTIFY sent on a connection. -/
def Chip.notify (s : Chip) (c code flags detail seq : Nat) (body : List Byte := []) : Chip :=
  s.queueTx c (DevPkt.make c 0x14 0 0 0 0 (s.notifyBytes code flags detail seq body))

/-- A NOTIFY sent on every MGMT connection subscribed to its code (03 Table 3-20). -/
def Chip.notifySubs (s : Chip) (code detail seq : Nat) : Chip :=
  s.xpt.conns.foldl (fun t e =>
    if e.2.mgmt && bit e.2.codes (code - 1) then t.notify e.1 code 0 detail seq else t) s

/-- The unit and count encoding of a retry hint in µs (03 R83). -/
def hintCode (us : Nat) : Nat :=
  if us ≤ 16383 then us
  else if ceilDiv us 1000 ≤ 16383 then 0x4000 + ceilDiv us 1000
  else 0x8000 + Nat.min 16383 (ceilDiv us 1000000)

/-- A NAK sent (03 Table 3-9). -/
def Chip.nak (s : Chip) (c code scope psn msgId key offset hint : Nat) : Chip :=
  s.control c 0x0A psn msgId key offset (code * 2 ^ 24 + scope * 2 ^ 23 + hint) []

/-- A DISCONNECT sent (03 Table 3-14). -/
def Chip.sendDisconnect (s : Chip) (c reason : Nat) : Chip :=
  s.control c 0x12 0 0 0 0 0 [BitVec.ofNat 8 reason, 0, 0, 0]

end Sys2Proof.Machine
end

