-- ==== Sys2Proof/Machine/Store.lean ====
section
/-!
DEFINITION. The records of the configuration store (14 R347 to R351): their layout, and the writes that are pending.
-/
namespace Sys2Proof.Machine

/-- Bytes 0 to 119 of a record made into its 128 bytes: CRC-32C at 120, valid word at 124 (14 R349). -/
def sealRecord (body : List Byte) : List Byte :=
  let b := padTo 120 body
  b ++ le 4 (crc32c b) ++ le 4 0x0F1E2D3C

/-- A record counts when its valid word reads 0x0F1E_2D3C and its CRC matches (14 R349). -/
def recordOk (r : List Byte) : Bool :=
  leField r 124 4 == 0x0F1E2D3C && leField r 120 4 == crc32c (r.take 120)

/-- Byte address of the areas of 14 Table 14-1. -/
def logHead : Nat := 0x820000
def logBase : Nat := 0x830000
def remapBase : Nat := 0xA30000
def powerBase : Nat := 0xA50000

/-- A byte of the flash; an erased byte reads all ones. -/
def Chip.flashRead (s : Chip) (a n : Nat) : List Byte := Memory.readN 0xFF s.cfg.flash a n

/-- The record slots of an area that hold any programmed byte, ascending. -/
def Chip.usedRecords (s : Chip) (base n : Nat) : List Nat :=
  ((Memory.sub s.cfg.flash base (128 * n)).map fun c => (c.1 - base) / 128).eraseDups

/-- The good records of an area, in ascending position. -/
def Chip.goodRecords (s : Chip) (base n : Nat) : List (Nat × List Byte) :=
  ((s.usedRecords base n).map fun i => (i, s.flashRead (base + 128 * i) 128)).filter fun e => recordOk e.2

/-- Bytes programmed into the flash. -/
def Chip.flashWrite (s : Chip) (a : Nat) (bs : List Byte) : Chip :=
  { s with cfg := { s.cfg with flash := Memory.writeN 0xFF s.cfg.flash a bs } }

/-- Flash bytes erased. -/
def Chip.flashErase (s : Chip) (a n : Nat) : Chip :=
  { s with cfg := { s.cfg with flash := Memory.clear s.cfg.flash a n } }

/-- A record write asked for: area 0 change log, 1 remap, 2 power. FLASH_RECORD_WRITTEN completes it. -/
def Chip.askRecord (s : Chip) (area : Nat) (body : List Byte) : Chip :=
  { s with cfg := { s.cfg with pend := s.cfg.pend ++ [(area, body)] } }

/-- The next record sequence of the remap (0) or power (1) area. -/
def Chip.nextRec (s : Chip) (i : Nat) : Nat × Chip :=
  let q := s.cfg.recSeq.getD i 0 + 1
  (q, { s with cfg := { s.cfg with recSeq := setAt s.cfg.recSeq i q } })

/-- The power record's body with a recorder high-water mark (14 Table 14-12). -/
def Chip.powerBody (s : Chip) (seq mark : Nat) : List Byte :=
  let pop := s.dmc.pop
  let get (f : Population → Nat) : Nat := match pop with
    | some p => f p
    | none => 0
  le 4 0x50524356 ++ [1, 0, 0, 0] ++ le 8 seq ++ le 4 s.ecl.rate ++ le 4 s.glb.boot ++ le 4 s.glb.epoch ++ le 4 0 ++
  le 8 mark ++ s.cfg.segCounts.flatMap (le 4) ++ be 48 s.cfg.hash.toNat ++
  le 2 (s.dmc.map.foldl (fun m c => setBit m c true) 0) ++
  le 1 (get (·.dimms)) ++ le 1 (get (·.ranks)) ++ le 1 (get (·.stack)) ++
  le 1 (get (·.width) % 16 + 16 * get (·.density)) ++ le 2 (get (·.capGiB)) ++ le 1 (s.chan (s.dmc.map.getD 0 0)).speed

/-- A power record write asked for (14 R348). -/
def Chip.askPower (s : Chip) (mark : Nat) : Chip :=
  let q := s.nextRec 1
  (q.2.askRecord 2 (s.powerBody q.1 mark))

/-- A change-log record's body (14 Table 14-13). -/
def logBody (kind seq : Nat) (body : List Byte) : List Byte :=
  le 4 0x474C4356 ++ [1, BitVec.ofNat 8 kind, 0, 0] ++ le 8 seq ++ padTo 104 body

/-- A change-log record asked for, under the next record sequence. -/
def Chip.askLog (s : Chip) (kind : Nat) (body : List Byte) : Chip :=
  let q := s.cfg.logSeq + 1
  ({ s with cfg := { s.cfg with logSeq := q, logUsed := s.cfg.logUsed + 1 } }).askRecord 0 (logBody kind q body)

/-- A free record is left in the change log (05 R135: 4,096 records). -/
def Chip.logRoom (s : Chip) : Bool := s.cfg.logUsed < 4096

/-- A remap-area record asked for (14 Table 14-14): entry 0xFF is CLEAR. -/
def Chip.askRemap (s : Chip) (ch entry kind loc row : Nat) : Chip :=
  let q := s.nextRec 0
  q.2.askRecord 1 (le 4 0x504D5256 ++ [1, BitVec.ofNat 8 ch, BitVec.ofNat 8 entry, BitVec.ofNat 8 kind] ++ le 8 q.1 ++
    le 4 loc ++ le 4 row)

end Sys2Proof.Machine
end

