-- ==== Sys2Proof/Machine/Evr.lean ====
section
/-!
DEFINITION. The event recorder (16 R387 to R398): raising an event, the queue, flood control, ALERT and NOTIFY EVENT.
-/
namespace Sys2Proof.Machine

/-- EVR_HEAD: the sequence of the last record written. -/
def Evr.head (e : Evr) : Nat := e.next - 1

/-- EVR_TAIL: the larger of the first sequence of this start and EVR_HEAD - 65,535 (16 R392). -/
def Evr.tail (e : Evr) : Nat := Nat.max e.first (e.head - 65535)

/-- The 64 bytes of a record (16 Table 16-1). -/
def Event.bytes (e : Event) (seq : Nat) : List Byte :=
  let b := le 8 seq ++ le 2 e.src ++ le 2 e.inst ++ le 2 e.code ++ le 1 e.sev ++ le 1 e.flags ++ padTo 44 e.payload
  b ++ le 4 (crc32c b)

/-- A clamp log entry completed with its record's sequence, or marked UNRECORDED (14 R367). -/
def Chip.clampSeq (s : Chip) (i : Option Nat) (seq : Option Nat) : Chip :=
  match i with
  | none => s
  | some i =>
    match s.cfg.log[i]? with
    | none => s
    | some e =>
      let e' := match seq with
        | some q => { e with pending := false, seq := q % 65536 }
        | none => { e with pending := false, unrecorded := true }
      { s with cfg := { s.cfg with log := setAt s.cfg.log i e' } }

/-- A record that may be written now: the sequence is set, and it would not pass the last persisted mark plus 65,535
(16 R390). -/
def Evr.canWrite (e : Evr) : Bool := e.isSet && (!e.limit || e.next ≤ e.mark + 65535)

/-- ALERT set by a record that asks for it (16 R397). -/
def Chip.alertFor (s : Chip) (e : Event) (seq : Nat) : Chip :=
  if s.par 0x1200008 ≤ e.sev || e.flags % 2 == 1 then
    ({ s with flt := { s.flt with alert := true, alertSeq := if s.flt.alert then s.flt.alertSeq else seq } }).count 0x1200010
  else s

/-- NOTIFY EVENT to the subscribed connections whose minimum severity a record reaches (16 R398). -/
def Chip.notifyEvent (s : Chip) (e : Event) (seq : Nat) : Chip :=
  if bit s.pws.gated 20 || s.glb.state == .fault then s
  else s.xpt.conns.foldl (fun t x =>
    if x.2.mgmt && bit x.2.codes 5 && x.2.sev ≤ e.sev then
      if x.2.notifies < 32 then (t.notify x.1 6 0 e.sev seq (e.bytes seq)).modConn x.1 fun k => { k with notifies := k.notifies + 1 }
      else t.count 0x1100088
    else t) s

/-- The mark of R390 asked for when EVR_HEAD reaches the last persisted mark plus 16,384. -/
def Chip.markDue (s : Chip) : Chip :=
  if s.evr.limit && s.evr.mark + 16384 ≤ s.evr.head && s.evr.asked < s.evr.mark + 16384 then
    ({ s with evr := { s.evr with asked := s.evr.head } }).askPower s.evr.head
  else s

/-- A record written to the ring under the next sequence (16 R389, R391), with what follows from it. -/
def Chip.writeRecord (s : Chip) (e : Event) : Chip :=
  let q := s.evr.next
  let due := if q % 4096 == 4095 then s.evr.due ++ [q / 4096] else s.evr.due
  let s1 := { s with evr := { s.evr with ring := Tab.ins s.evr.ring (q % 65536) (e.bytes q), next := q + 1, due } }
  ((((s1.clampSeq e.clamp (some q)).alertFor e q).notifyEvent e q).markDue)

/-- Flood control (16 R396): whether a record below ERROR is suppressed, and the window's counts after it, with the severity of
the first record suppressed (log 140). -/
def Chip.flooded (s : Chip) (e : Event) : Bool × Chip :=
  if 3 ≤ e.sev || e.flags / 8 % 2 == 1 then (false, s)
  else
    let key := e.src * 65536 + e.code
    let r := Tab.get s.evr.flood (0, 0, 0, 0, 0) key
    if r.1 < 64 then
      (false, { s with evr := { s.evr with flood := Tab.ins s.evr.flood key (r.1 + 1, r.2) } })
    else
      let none_ := r.2.1 == 0
      let first := if none_ then e.inst else r.2.2.1
      let sev := if none_ then e.sev else r.2.2.2.2
      (true, { s with evr := { s.evr with flood := Tab.ins s.evr.flood key (r.1, r.2.1 + 1, first, e.inst, sev) } })

/-- A record put through flood control and written, or counted as suppressed. -/
def Chip.record (s : Chip) (e : Event) : Chip :=
  let f := s.flooded e
  if f.1 then f.2.clampSeq e.clamp none else f.2.writeRecord e

/-- Queued records written, in the order raised, while they may be. -/
def Chip.drainEvents : Nat → Chip → Chip
  | 0, s => s
  | n + 1, s =>
    match s.evr.queue with
    | [] => s
    | e :: rest =>
      if s.evr.canWrite then Chip.drainEvents n (({ s with evr := { s.evr with queue := rest } }).record e) else s

/-- The EVR DROPPED record of kind 0, once the queue has room again (16 R390). -/
def Chip.reportDropped (s : Chip) : Chip :=
  if s.evr.dropped != 0 && s.evr.queue.isEmpty && s.evr.canWrite then
    let e : Event := { src := 0x11, inst := 0xFFFF, code := 1, sev := 2, flags := 0, clamp := none,
                       payload := le 4 s.evr.dropped ++ le 8 s.evr.dropSeq ++ [0] }
    ({ s with evr := { s.evr with dropped := 0 } }).record e
  else s

/-- Everything that may be written from the queue written. -/
def Chip.flushEvents (s : Chip) : Chip := (Chip.drainEvents s.evr.queue.length s).reportDropped

/-- An event raised (16 R389, R390): queued, and written at once if it may be. -/
def Chip.raiseClamp (s : Chip) (clamp : Option Nat) (src inst code sev flags : Nat) (payload : List Byte) : Chip :=
  let e : Event := { src, inst, code, sev, flags, payload, clamp }
  if s.evr.queue.length < 256 then
    ({ s with evr := { s.evr with queue := s.evr.queue ++ [e] } }).flushEvents
  else
    let s1 := ({ s with evr := { s.evr with
      dropSeq := if s.evr.dropped == 0 then s.evr.head else s.evr.dropSeq, dropped := s.evr.dropped + 1 } }).count 0x1100080
    s1.clampSeq clamp none

/-- An event raised by a unit: source, instance number, code, severity, flags and payload. -/
def Chip.raise (s : Chip) (src inst code sev flags : Nat) (payload : List Byte) : Chip :=
  s.raiseClamp none src inst code sev flags payload

/-- GLB_STATE changed, with its GLB STATE record (00 R8, 16 Table 16-5). -/
def Chip.enter (s : Chip) (d : DevState) : Chip :=
  if s.glb.state = d then s
  else ({ s with glb := { s.glb with state := d } }).raise 0 0xFFFF 2 0 0 [BitVec.ofNat 8 s.glb.state.code, BitVec.ofNat 8 d.code]

/-- A clamp reported (14 R367): an entry of the log while it has room, and a CFG CLAMP record. -/
def Chip.clamped (s : Chip) (field given used src : Nat) : Chip :=
  let n := s.cfg.log.length
  let e : ClampEntry := { field, given, used, src, pending := true, unrecorded := false, seq := 0 }
  let pay := le 4 field ++ le 4 given ++ le 4 used ++ le 4 (src * 2 ^ 30 + 2 ^ 29)
  if n < 256 then
    ({ s with cfg := { s.cfg with log := s.cfg.log ++ [e] } }).raiseClamp (some n) 0x0F 0xFFFF 2 1 0 pay
  else
    ({ s with cfg := { s.cfg with overflow := true } }).raise 0x0F 0xFFFF 2 1 0 pay

/-- Field ID of a register field in the clamp log (14 Table 14-10). -/
def regField (addr lsb : Nat) : Nat := lsb * 2 ^ 25 + addr

/-- Field ID of an image item in the clamp log. -/
def itemField (code idx : Nat) : Nat := 2 ^ 31 + code * 2 ^ 16 + idx

/-- The window of R396 ends: one SUPPRESSED record for each pair that met its limit. -/
def Chip.floodEnd (s : Chip) : Chip :=
  let rows := s.evr.flood.filter fun e => e.2.2.1 != 0
  let s1 := { s with evr := { s.evr with flood := [] } }
  rows.foldl (fun t e =>
    t.raise (e.1 / 65536) 0xFFFF (e.1 % 65536) e.2.2.2.2.2 8 (le 4 e.2.2.1 ++ le 2 e.2.2.2.1 ++ le 2 e.2.2.2.2.1)) s1

end Sys2Proof.Machine
end

