-- ==== Sys2Proof/Machine/Journal.lean ====
section
/-!
DEFINITION. What the Syzygy engine sends (12 R296 to R304): reliable frames with their link sequence and credit, journal
entries with their positions, and the pair-pending tables of the banks (07 R174).
-/
namespace Sys2Proof.Machine

/-- The units exchange a journal: this unit is ACTIVE with a standby that has joined (12 R299 to R301). -/
def Chip.journaled (s : Chip) : Bool :=
  s.syz.role == .active && (s.syz.pair == .catchingUp || s.syz.pair == .paired || s.syz.pair == .inDoubt)

/-- Bytes of an entry in a frame: its head and its data padded to 8 (12 R299). -/
def entrySize (e : JEntry) : Nat := 32 + ceilDiv e.data.length 8 * 8

/-! ### Frames (12 R296, R297, R299) -/

/-- An entry as a frame carries it (12 Table 12-4). -/
def entryBytes (e : JEntry) : List Byte :=
  let pad := ceilDiv e.data.length 8 * 8 - e.data.length
  le 1 e.kind ++ [0] ++ le 2 e.data.length ++ le 4 0 ++ le 8 e.pos ++ le 8 e.addr ++ le 8 e.mask.toNat ++ e.data ++ List.replicate pad 0

/-- The payload of a frame (12 Tables 12-4, 12-5), its small payloads in network byte order (log 138). -/
def syzPayload (op : Nat) (es : List JEntry) (body : List Nat) : List Byte :=
  let v (i : Nat) : Nat := body.getD i 0
  if op == 0x40 || op == 0x43 then es.flatMap entryBytes
  else if op == 0x41 then be 8 (v 0) ++ be 4 (v 1) ++ be 2 (v 2) ++ be 2 0
  else if op == 0x42 then be 1 (v 0) ++ be 1 (v 1) ++ be 1 (v 2) ++ be 5 0 ++ be 8 (v 3) ++ be 16 0
  else if op == 0x44 then be 8 (v 0) ++ be 2 (v 1) ++ be 2 (v 2) ++ be 4 0
  else if op == 0x45 then
    let data := body.drop 3
    be 2 (v 0) ++ be 1 (v 1) ++ be 5 0 ++ le (data.length / 8) (v 2) ++ data.map (BitVec.ofNat 8)
  else if op == 0x46 then be 1 (v 0) ++ be 7 0 ++ be 8 (v 1) ++ be 8 (v 2)
  else be 1 (v 0) ++ be 1 (v 1) ++ be 1 (v 2) ++ be 1 (v 3) ++ be 4 (v 4) ++ be 8 (v 5) ++ be 8 (v 6) ++ be 8 (v 7) ++ be 8 (v 8) ++
    be 24 0

/-- A frame as it stands on a link without its FCS (12 R296, Table 12-2): addresses, EtherType, header, payload and trailer. -/
def Chip.syzBytes (s : Chip) (f : SyzFrame) : List Byte :=
  let p := syzPayload f.op f.es f.body
  let b := [0x13, BitVec.ofNat 8 f.op] ++ be 2 (64 * b2n f.retry) ++ be 4 s.sec.writer.toNat ++ be 4 f.seq ++ be 4 s.glb.epoch ++
    be 10 0 ++ be 2 p.length ++ be 4 0 ++ p
  be 6 s.syz.dst ++ be 6 s.syz.src ++ be 2 (s.par 0xC0010C) ++ b ++ be 4 (crc32c b)

/-- Cells of pool 2 that a frame takes, its FCS included (06 Table 6-2; 12 R299). -/
def SyzFrame.cells (f : SyzFrame) : Nat := ceilDiv (54 + (syzPayload f.op f.es f.body).length) 256

/-- A frame may leave: D21 is powered, and a unit in FAULT sends HEARTBEAT only (12 R307). -/
def Chip.syzOn (s : Chip) (op : Nat) : Bool := !bit s.pws.gated 21 && (s.glb.state != .fault || op == 0x42)

/-- The next up link in turn (12 R298), another than the previous one when there is one (R297). -/
def Chip.nextLink (s : Chip) (prev : Option Nat) : Option Nat :=
  let up := bitsOf 4 s.syz.links
  let pick (l : List Nat) : Option Nat := l[s.syz.rr % Nat.max 1 l.length]?
  match prev with
  | none => pick up
  | some q => match up.filter (· != q) with
    | [] => pick up
    | o => pick o

/-- A frame put on a link. -/
def Chip.syzWire (s : Chip) (f : SyzFrame) (prev : Option Nat) : Nat × Chip :=
  match s.nextLink prev with
  | some l =>
    if s.syzOn f.op then
      (l, ({ s with syz := { s.syz with rr := s.syz.rr + 1 } }).emit (.syz l f.retry f.seq f.op f.es f.body (s.syzBytes f)))
    else (f.link, s)
  | none => (f.link, s)

/-- A frame with a small payload, not numbered yet. -/
def SyzFrame.small (op : Nat) (body : List Nat) : SyzFrame :=
  { seq := 0, op, link := 0, retry := false, es := [], body, chains := [], turn := 0 }

/-- A frame that is not reliable, on one link. -/
def Chip.syzLoose (s : Chip) (op : Nat) (body : List Nat) : Chip := (s.syzWire (SyzFrame.small op body) none).2

/-- A reliable frame sent under the next link sequence and held (12 R297); the last position that it carries is noted. -/
def Chip.syzReliable (s : Chip) (f : SyzFrame) : Chip :=
  let g := { f with seq := psnAdd s.syz.txSeq 1 }
  let lastPos := f.es.foldl (fun n e => Nat.max n e.pos) s.syz.lastPos
  let w := ({ s with syz := { s.syz with txSeq := g.seq, lastPos } }).syzWire g none
  { w.2 with syz := { w.2.syz with held := w.2.syz.held ++ [{ g with link := w.1, turn := s.syz.rr }] } }

/-- A frame is a JOURNAL or MIRROR_WRITE: the standby's credit limits it (12 R298). -/
def SyzFrame.entries (f : SyzFrame) : Bool := f.op == 0x40 || f.op == 0x43

/-- JOURNAL and MIRROR_WRITE frames sent and not covered. -/
def Syz.inFlight (y : Syz) : Nat := (y.held.filter SyzFrame.entries).length

/-- A reliable frame sent from cells of the Syzygy pool, or none where it lacks them (06 Table 6-3); a frame that shares a
host payload has its cells. -/
def Chip.syzSend (s : Chip) (f : SyzFrame) : Option Chip :=
  if f.chains.isEmpty then
    let a := s.alloc .syz 2 none none f.cells
    match a.1 with
    | some h => some (a.2.syzReliable { f with chains := [h] })
    | none => none
  else some (s.syzReliable f)

/-- Frames other than JOURNAL and MIRROR_WRITE that wait for cells. -/
def Syz.control (y : Syz) : List SyzFrame := y.queue.filter fun f => !f.entries

/-- A reliable frame with a small payload: it waits behind others that wait for cells. -/
def Chip.syzSmall (s : Chip) (op : Nat) (body : List Nat) : Chip :=
  let f := SyzFrame.small op body
  let later : Chip := { s with syz := { s.syz with queue := s.syz.queue ++ [f] } }
  if s.syz.control.isEmpty then
    match s.syzSend f with
    | some t => t
    | none => later.count 0x500038
  else later

/-- The frame that goes next: one the credit does not limit, else the oldest that it does, while it allows (12 R298). -/
def Syz.nextFrame (y : Syz) : Option SyzFrame := match y.control with
  | f :: _ => some f
  | [] => match y.queue, y.credit with
    | f :: _, some c => if y.inFlight < c then some f else none
    | _, _ => none

/-- Waiting frames sent while the standby's credit and the Syzygy pool allow (12 R298, 06 Table 6-3). -/
def Chip.pumpSyz : Nat → Chip → Chip
  | 0, s => s
  | n + 1, s => match s.syz.nextFrame with
    | none => s
    | some f => match ({ s with syz := { s.syz with queue := s.syz.queue.erase f } }).syzSend f with
      | some t => Chip.pumpSyz n t
      | none => s.count 0x500038

/-- Every waiting frame that may go sent. -/
def Chip.pumpJournal (s : Chip) : Chip := Chip.pumpSyz s.syz.queue.length s

/-- A journal entry given the next position and queued as a frame of its own (log 34); entries kept in the ring are
listed with their ring bytes (12 R301, R304). -/
def Chip.post (s : Chip) (mirror : Bool) (kind addr : Nat) (mask : BitVec 64) (data : List Byte) (chains : List Handle) :
    Nat × Chip :=
  let pos := s.syz.pos + 1
  let e : JEntry := { kind, pos, addr, mask, data }
  let f : SyzFrame := { seq := 0, op := if mirror then 0x43 else 0x40, link := 0, retry := false, es := [e], body := [], chains, turn := 0 }
  let entries := if mirror then s.syz.entries else s.syz.entries ++ [(pos, entrySize e + 16)]
  (pos, ({ s with syz := { s.syz with pos, entries, queue := s.syz.queue ++ [f] } }).pumpJournal)

/-- Dirty-since positions of the pages an entry touches (12 R302). -/
def Chip.touchPos (s : Chip) (pos addr len : Nat) : Chip :=
  (rangeFrom (addr / 65536) ((addr + len - 1) / 65536 - addr / 65536 + 1)).foldl (fun t p =>
    let g := t.page p
    if g.st = .free then t
    else
      t.setPage p { g with jpos := if g.jpos == 0 then pos else g.jpos,
                           jnext := if g.st == .destaging && g.jnext == 0 then pos else g.jnext }) s

/-- The ring bytes held by entries after the release position, on either unit (12 R301, R302). -/
def Syz.ringBytes (y : Syz) : Nat :=
  if y.role == .umbra then (y.ring.map fun e => entrySize e + 16).sum else (y.entries.map (·.2)).sum

/-- Ring size in bytes. -/
def Syz.ringSize (y : Syz) : Nat := y.ringGiB * 2 ^ 30

/-- A response of a message waits for one more position. -/
def Chip.holdPos (s : Chip) (r : Nat × Nat) (pos : Nat) : Chip :=
  s.modMsg r.1 r.2 fun m => { m with held := Nat.max m.held pos, holds := m.holds - 1 }

/-- A position made known to the FLUSH coverage of a message that waited for it. -/
def Chip.ownedPos (s : Chip) (w : Nat × Nat) (pos : Nat) : Chip :=
  s.modConn w.1 fun k =>
    { k with covered := k.covered.map fun c => if c.psn == w.2 then { c with pos := Nat.max c.pos pos, owed := c.owed - 1 } else c }

/-- A layer's position made known to the messages held for it, a compare-and-swap that stored nothing among them (04 R116),
and to its writer's FLUSH coverage. -/
def Chip.settleLayer (s : Chip) (l : Layer) (pos : Nat) : Chip :=
  let s1 := l.readers.foldl (fun t r =>
    let u := t.holdPos r pos
    if r == l.writer then u else u.ownedPos r pos) s
  let s2 := s1.modMsg l.writer.1 l.writer.2 fun m =>
    { m with pos := Nat.max m.pos pos, owed := if l.line then m.owed - 1 else m.owed }
  if l.line then s2.ownedPos l.writer pos
  else s2.modConn l.writer.1 fun k =>
    { k with covered := k.covered.map fun c => if c.psn == l.writer.2 then { c with pos := Nat.max c.pos pos } else c }

/-- The layers of a line whose packets all have positions resolved, oldest first: a LINE entry is emitted after both
entries concerned (12 R300). -/
def Chip.resolve : Nat → Chip → Nat → Nat → Nat → Chip
  | 0, s, _, _, _ => s
  | n + 1, s, b, line, pos =>
    match Tab.find (s.bank b).pend line with
    | none => s
    | some e =>
      match e.layers with
      | [] => s
      | l :: rest =>
        if !l.needs.isEmpty then s
        else
          let r := if l.line then s.post l.mirror 2 l.addr l.mask l.data [] else (pos, s)
          let t := if l.line then r.2.touchPos r.1 l.addr 64 else r.2
          let t1 := t.modBank b fun k => { k with pend := Tab.ins k.pend line { pos := r.1, layers := rest } }
          Chip.resolve n (t1.settleLayer l r.1) b line r.1

/-- A packet's DATA entry has its position: the layers that waited for it are told. -/
def Chip.positioned (s : Chip) (b line : Nat) (pkt : Nat × Nat × Nat) (pos : Nat) : Chip :=
  match Tab.find (s.bank b).pend line with
  | none => s
  | some e =>
    let ls := e.layers.map fun l => { l with needs := l.needs.filter (· != pkt) }
    let s1 := s.modBank b fun k => { k with pend := Tab.ins k.pend line { e with layers := ls } }
    Chip.resolve (ls.length) s1 b line pos

/-- Pair-pending entries freed that a JOURNAL_ACK covers, in every bank (07 R174). -/
def Chip.freePend (s : Chip) (acked : Nat) : Chip :=
  { s with lcc := { s.lcc with banks := s.lcc.banks.map fun e =>
      (e.1, { e.2 with pend := e.2.pend.filter fun x => !(x.2.layers.isEmpty && x.2.pos ≤ acked) }) } }

/-- Every pair-pending entry freed: R47 is in force (07 R174). -/
def Chip.clearPend (s : Chip) : Chip :=
  { s with lcc := { s.lcc with banks := s.lcc.banks.map fun e => (e.1, { e.2 with pend := [] }) } }

/-- Credit in frames that a standby states (12 R298). -/
def Chip.creditNow (s : Chip) : Nat := Nat.min 65535 ((s.bpm.freeNow 2 - 144) / 36)

/-- A JOURNAL_ACK sent (12 R298): position accepted, cumulative link sequence, credit. -/
def Chip.sendJournalAck (s : Chip) : Chip :=
  let standby := s.syz.role == .umbra
  s.syzLoose 0x41 [if standby then s.syz.accepted else 0, s.syz.rxSeq, if standby then s.creditNow else 0]

/-- The standby's credit has risen from 0: a JOURNAL_ACK carries it (12 R298). -/
def Chip.creditRose (s0 s : Chip) : Chip :=
  if s.glb.state == .umbra && s0.creditNow == 0 && s.creditNow != 0 then s.sendJournalAck else s

/-- Cells of the Syzygy pool have been freed: frames that wait for them go, and a credit that has risen is told. -/
def Chip.syzFreed (s0 s : Chip) : Chip := s0.creditRose s.pumpJournal

/-- The release position J (12 R302). -/
def Chip.releasePos (s : Chip) : Nat :=
  let next := s.syz.pos + 1
  let pages := s.pgm.pages.filterMap fun e => if e.2.charged && e.2.jpos != 0 then some e.2.jpos else none
  minOf (minOf next pages) (s.syz.rgnWait.map (·.1)) - 1

/-- The payload of a ROLE frame, field by field (12 Table 12-5). -/
def Chip.roleBody (s : Chip) (kind refuse pos : Nat) : List Nat :=
  let y := s.syz
  [kind, y.last.code, b2n y.sealedSelf + 2 * b2n y.ringKept, b2n y.compat, refuse, y.ringGiB, y.mirrorGiB, pos,
   s.sec.writer.toNat]

/-- A ROLE frame sent. -/
def Chip.sendRole (s : Chip) (kind refuse pos : Nat) : Chip := s.syzSmall 0x47 (s.roleBody kind refuse pos)

/-- ROLE START sent (12 R314, Table 12-5): with a ring kept by a warm resume, the highest position kept. -/
def Chip.sendStart (s : Chip) : Chip := s.sendRole 1 0 (if s.syz.ringKept then Nat.max s.syz.accepted s.syz.pos else 0)

/-- The role that SYZ_ROLE reports: none during START and MAINTENANCE (12 R294). -/
def Chip.roleShown (s : Chip) : TwinRole := if s.glb.state == .start || s.glb.state == .maintenance then .none else s.syz.role

/-- The pair state moves, with its record (12 Table 12-1); pair-pending entries go where R47 comes into force (07 R174). -/
def Chip.setPair (s : Chip) (p : PairState) : Chip :=
  if s.syz.pair = p then s
  else
    let s1 := ({ s with syz := { s.syz with pair := p } }).raise 0x0C 0xFFFF 1 2 0
      [BitVec.ofNat 8 s.syz.pair.code, BitVec.ofNat 8 p.code]
    if s1.r47 then s1.clearPend else s1

/-- Entries of the region table copy that still wait to be sent (12 R301). -/
def Chip.copyWaits (s : Chip) : Bool := s.syz.queue.any fun f => f.es.any fun e => e.kind == 4 && leField e.data 48 4 == 0

/-- CATCHING_UP ends once the release position has passed the join position and the mirror copy is complete (12 Table 12-1);
ROLE CAUGHT_UP follows the copy of the region table on the link (log 64). -/
def Chip.judgePair (s : Chip) : Chip :=
  if s.syz.role == .active && s.syz.pair == .catchingUp && s.syz.joinPos ≤ s.syz.release && s.syz.mirrorLeft.isEmpty && !s.copyWaits then
    let s1 := (s.setPair .paired).sendRole 3 0 0
    s1.notifySubs 5 0 s1.evr.head
  else s

/-- J advanced if it can be, and a SEAL_NOTE RELEASE sent, at most once per 10 µs (12 R302). While a takeover's ring is still
to be replayed, its entries hold J (12 R310). -/
def Chip.advanceRelease (s : Chip) : Chip :=
  if s.syz.role == .active && !s.syz.replaying then
    let j := s.releasePos
    let s1 := if s.syz.release < j then
        { s with syz := { s.syz with release := j, entries := s.syz.entries.filter fun e => j < e.1 } }
      else s
    let s2 := if s1.journaled && s1.syz.noteJ < s1.syz.release && (s.syz.noteJ == 0 || s.syz.noteAt + 10000 ≤ s.now) then
        ({ s1 with syz := { s1.syz with noteAt := s.now, noteJ := s1.syz.release } }).syzSmall 0x46 [1, s1.syz.release, 0]
      else s1
    s2.judgePair
  else s

end Sys2Proof.Machine
end

