-- ==== Sys2Proof/Machine/Operands.lean ====
section
/-!
DEFINITION. The operand forms of the commands: the fields of a packet and of its payload (03 Tables 3-3 to 3-18), and the
line operations of a message (02 R32).
-/
namespace Sys2Proof.Machine

/-- Flag First of 03 Table 3-4. -/
def flagFirst (f : Nat) : Bool := bit f 0
/-- Flag Last of 03 Table 3-4. -/
def flagLast (f : Nat) : Bool := bit f 1
/-- Flag Ordered of 03 Table 3-4. -/
def flagOrdered (f : Nat) : Bool := bit f 2
/-- Flag AckReq of 03 Table 3-4. -/
def flagAckReq (f : Nat) : Bool := bit f 3
/-- Flag Durable of 03 Table 3-4. -/
def flagDurable (f : Nat) : Bool := bit f 4
/-- Flag Deadline of 03 Table 3-4. -/
def flagDeadline (f : Nat) : Bool := bit f 5

end Sys2Proof.Machine

namespace Sys2Proof
open Sys2Proof.Machine

/-- The connection an ID field names (03 Table 3-3). -/
def Packet.connId (p : Packet) : Nat := p.conn.toNat % 16384

/-- The first PSN of a packet's message (03 R61). -/
def Packet.firstPsn (p : Packet) : Nat := psnSub p.psn.toNat p.index

/-- The message length M of a WRITE (03 R62). -/
def Packet.total (p : Packet) : Nat := bits p.opField.toNat 20 0

/-- The derived start offset of a WRITE packet (03 R62); it may be negative. -/
def Packet.start (p : Packet) : Int :=
  if flagLast p.flags.toNat then (p.offset : Int) - ((p.total : Int) - p.payload.length)
  else (p.offset : Int) - (p.index : Int) * p.payload.length

/-- READ_REQ payload: read length (03 Table 3-7). -/
def Packet.readLen (p : Packet) : Nat := fieldBe p.payload 0 4

/-- READ_REQ payload: response packet size. -/
def Packet.respSize (p : Packet) : Nat := fieldBe p.payload 4 2

end Sys2Proof

namespace Sys2Proof.Machine

/-- Length that Table 3-6 fixes for an opcode. -/
def lengthOk (op n : Nat) : Bool :=
  match op with
  | 0x01 => 1 ≤ n && n ≤ 8192
  | 0x02 | 0x04 => n == 8
  | 0x05 => n == 16
  | 0x07 | 0x13 => n == 0
  | 0x09 | 0x0B => n == 16
  | 0x10 => n == 144
  | 0x12 => n == 4
  | 0x20 => 8 ≤ n && n ≤ 1032
  | _ => n ≤ 8192

/-- Opcodes that carry their own PSN from the host. -/
def ownPsn (op : Nat) : Bool := [0x01, 0x02, 0x04, 0x05, 0x07, 0x12, 0x20].contains op

/-- Opcodes a host may send on a connection of a class (03, after Table 3-6). -/
def opAllowed (mgmt : Bool) (op : Nat) : Bool :=
  if mgmt then [0x09, 0x0B, 0x10, 0x12, 0x13, 0x20].contains op
  else [0x01, 0x02, 0x04, 0x05, 0x07, 0x09, 0x0B, 0x10, 0x12, 0x13].contains op

end Sys2Proof.Machine

namespace Sys2Proof
open Sys2Proof.Machine

/-- The conditions of R60 that the header alone decides. -/
def Packet.badHeader (p : Packet) (mgmt : Bool) (op : Nat) : Bool :=
  let f := p.flags.toNat
  p.cls != (if mgmt then 2 else 1) || !opAllowed mgmt op || 16384 ≤ p.conn.toNat ||
  flagFirst f != (p.index == 0) || flagLast f != (p.index + 1 == p.count) || p.count ≤ p.index ||
  128 < p.count || (1 < p.count && op != 0x01) || !lengthOk op p.payload.length ||
  (flagDurable f && op != 0x01) || (flagDeadline f && op != 0x02)

/-- A WRITE packet breaks R62 by itself: its stride, M against its length, or a start below 0 (log 25). -/
def Packet.badStride (p : Packet) : Bool :=
  let n := p.payload.length
  let m := p.total
  m == 0 || 1048576 < m || (p.count == 1 && m != n) || p.start < 0 ||
  (if !flagLast p.flags.toNat then n % 64 != 0 || m ≤ (p.count - 1) * n || p.count * n < m
   else if 1 < p.count then
     let s := (m - n) / (p.count - 1)
     (m - n) % (p.count - 1) != 0 || s % 64 != 0 || s < 64 || 8192 < s || s < n || m < n
   else false)

end Sys2Proof

namespace Sys2Proof.Machine

/-- The READ_RESP packet size of R64. -/
def Chip.respFor (s : Chip) (req : Nat) : Nat := Nat.max 64 (Nat.min req s.maxPayload)

/-- A READ_REQ is malformed by itself (03 Table 3-7, R64). -/
def Chip.badRead (s : Chip) (p : Packet) : Bool :=
  p.readLen == 0 || 1048576 < p.readLen || p.respSize < 64 || 8192 < p.respSize || p.respSize % 64 != 0 ||
  128 < ceilDiv p.readLen (s.respFor p.respSize)

end Sys2Proof.Machine

namespace Sys2Proof
open Sys2Proof.Machine

/-- A DATA message's length (05 R121). -/
def Packet.msgLen (p : Packet) (op : Nat) : Nat :=
  if op == 0x01 then p.total else if op == 0x02 then p.readLen else 8

end Sys2Proof

namespace Sys2Proof.Machine

/-! ### Line operations of a message (02 R32) -/

/-- First line of a message's range. -/
def Msg.line0 (m : Msg) : Nat := m.base / 64

/-- How many line operations a message has. -/
def Msg.lines (m : Msg) : Nat := (m.base + m.len - 1) / 64 - m.base / 64 + 1

/-- The line of its `i`-th line operation. -/
def Msg.line (m : Msg) (i : Nat) : Nat := m.line0 + i

/-- Offset within the line of the first byte of the `i`-th line operation. -/
def Msg.off (m : Msg) (i : Nat) : Nat := if i == 0 then m.base % 64 else 0

/-- Bytes of the `i`-th line operation. -/
def Msg.num (m : Msg) (i : Nat) : Nat :=
  Nat.min (m.base + m.len) ((m.line i + 1) * 64) - (m.line i * 64 + m.off i)

/-- Offset within the message of the first byte of the `i`-th line operation. -/
def Msg.at (m : Msg) (i : Nat) : Nat := m.line i * 64 + m.off i - m.base

/-- Stride of a message's packets: the length of any but the last. -/
def Msg.stride (m : Msg) : Nat := match m.parts with
  | (i, b) :: _ => if i + 1 == m.count then m.len else b.length
  | [] => m.len

/-- The bytes of a WRITE, its packets put together. -/
def Msg.bytes (m : Msg) : List Byte := m.parts.flatMap (·.2)

/-- The packets whose bytes the `i`-th line operation carries. -/
def Msg.packetsOf (m : Msg) (i : Nat) : List Nat :=
  let s := Nat.max 1 m.stride
  rangeFrom (m.at i / s) ((m.at i + m.num i - 1) / s - m.at i / s + 1)

/-- The line operations that a packet's bytes fall in. -/
def Msg.linesOf (m : Msg) (pkt : Nat) : List Nat := (List.range m.lines).filter fun i => (m.packetsOf i).contains pkt

/-- The pages of a message's range. -/
def Msg.pages (m : Msg) : List Nat := rangeFrom (m.base / 65536) ((m.base + m.len - 1) / 65536 - m.base / 65536 + 1)

/-- Every line operation has taken effect or been refused. -/
def Msg.allDone (m : Msg) : Bool := (m.done ||| m.lost) == 2 ^ m.lines - 1

/-- A message that writes. -/
def Msg.writes (m : Msg) : Bool := m.op == 0x01 || m.op == 0x04 || m.op == 0x05

/-- An atomic. -/
def Msg.atomic (m : Msg) : Bool := m.op == 0x04 || m.op == 0x05

/-- Last PSN of a message. -/
def Msg.last (m : Msg) : Nat := psnAdd m.first (m.count - 1)

/-- Two messages overlap (02 Table 2-1). -/
def Msg.overlaps (a b : Msg) : Bool := a.base < b.base + b.len && b.base < a.base + a.len

/-! ### Connect tickets (03 Tables 3-10, 3-11) -/

/-- A ticket or payload of CONNECT is malformed (03 Table 3-13, log 26: a group above 63 counts as malformed). -/
def badConnect (b : List Byte) : Bool :=
  b.length != 144 || fieldBe b 0 2 != 0x5654 || fieldBe b 2 1 != 1 || fieldBe b 10 2 != 0 || fieldBe b 28 4 != 0 ||
  4 ≤ fieldBe b 9 1 || 63 < fieldBe b 8 1

end Sys2Proof.Machine
end

