-- ==== Sys2Proof/Machine/Rx.lean ====
section
/-!
DEFINITION. The receiving side of a connection: windows and ACKs (03 R66 to R72), refusals (04 R96, R97), the overlap
guard (06 R142 to R145), FLUSH coverage (04 R105 to R107) and the end of a connection (03 R77 to R79).
-/
namespace Sys2Proof.Machine

/-! ### Windows and ACKs -/

/-- Pages whose charge a started WRITE reserves and that are not charged yet (08 R209). -/
def Chip.reservedPages (s : Chip) : List Nat :=
  ((s.pgm.reserved.map (·.2.2)).eraseDups).filter fun p => !(s.page p).charged

/-- PGM_DIRTY_NOW: charged pages (08 R206). -/
def Chip.dirtyNow (s : Chip) : Nat := (s.pgm.pages.filter fun e => e.2.charged).length + s.reservedPages.length

/-- Dirty bytes D and the budget B (08 R206). -/
def Chip.dirtyBytes (s : Chip) : Nat := s.dirtyNow * 65536
def Chip.budgetBytes (s : Chip) : Nat := s.pgm.budget * 1048576

/-- The byte window advertised (03 R72, 08 R208). -/
def Chip.winBytes (s : Chip) : Nat :=
  let w := s.par 0x20000C
  if s.pgm.urgent then
    let b := s.budgetBytes
    Nat.min w (Nat.max 16384 (w * (b - s.dirtyBytes) / Nat.max 1 (b / 4) / 8192 * 8192))
  else w

/-- The packet window advertised: never below 4, nor above the configured value (03 R72). -/
def Chip.winPkts (s : Chip) (k : Conn) : Nat := Nat.max 4 (Nat.min (s.par 0x200008) k.wp)

/-- Windows advertised in the last 10 µs (03 R69): the newest, and each older one that was still in force then. -/
def liveAdv (now : Nat) : List (Nat × Nat × Nat) → List (Nat × Nat × Nat)
  | [] => []
  | [a] => [a]
  | a :: b :: r => a :: (if now ≤ a.1 + 10000 then liveAdv now (b :: r) else [])

/-- A connection on which the device still sends (03 Table 3-15). -/
def Conn.live (k : Conn) : Bool := k.st != .aborting

/-- The received bitmap of an ACK (03 Table 3-8). -/
def Conn.bitmap (k : Conn) : Nat :=
  (List.range 64).foldl (fun b i =>
    let p := psnAdd k.cum (1 + i)
    setBit b i ((Tab.find k.placed p).isSome || k.settled.contains p)) 0

/-- The payload of an ACK or WINDOW (03 Table 3-8). -/
def ackBytes (wp wb map : Nat) : List Byte := be 2 wp ++ be 2 0 ++ be 4 wb ++ be 8 map

/-- The NAK of a refusal record sent (04 R96, R97). -/
def Chip.nakAgain (s : Chip) (c : Nat) (r : RefusedMsg) : Chip :=
  s.nak c r.code 1 r.first r.msgId r.key r.offset r.hint

/-- Whether a copy of a NAK goes before this ACK (04 R96). -/
def RefusedMsg.due (r : RefusedMsg) (cum : Nat) : Bool := r.copies == 1 || (r.copies == 2 && notAfter r.last cum)

/-- An ACK sent, with the copies of NAKs due before it, and the window raise of R72. -/
def Chip.sendAck (s : Chip) (c : Nat) : Chip :=
  match s.conn c with
  | none => s
  | some k =>
    if !k.live || k.st == .opening then s
    else
      let wp := if k.noBuffer then k.wp else Nat.min (s.par 0x200008) (k.wp + 4)
      let due := k.nakDue.filter fun r => r.due k.cum
      let nakDue := k.nakDue.filterMap fun r =>
        if !r.due k.cum then some r else if r.copies == 1 then none else some { r with copies := r.copies - 1 }
      let map := k.bitmap
      let s1 := due.foldl (fun t r => t.nakAgain c r) s
      let wb := s.winBytes
      let s2 := s1.modConn c fun k => { k with
        wp := wp, nakDue := nakDue, ackCum := k.cum, ackMap := map, noBuffer := false, newly := 0,
        adv := liveAdv s.now ((s.now, Nat.max 4 (Nat.min (s.par 0x200008) wp), wb) :: k.adv) }
      s2.control c 0x09 k.cum 0 0 0 0 (ackBytes (Nat.max 4 (Nat.min (s.par 0x200008) wp)) wb map)

/-- An ACK is due on the timer: what the last one said has changed (03 R70). -/
def Conn.ackDue (k : Conn) : Bool := k.cum != k.ackCum || k.bitmap != k.ackMap

/-- A shrink advertised at once when no ACK is due (03 R72; log 144). -/
def Chip.shrink (s : Chip) (c : Nat) : Chip :=
  match s.conn c with
  | none => s
  | some k =>
    let wp := s.winPkts k
    let wb := s.winBytes
    match k.adv with
    | (_, lp, lb) :: _ =>
      if k.live && k.st != .opening && !k.ackDue && (wp < lp || wb < lb) then
        let s1 := s.modConn c fun k => { k with adv := liveAdv s.now ((s.now, wp, wb) :: k.adv) }
        s1.control c 0x0B k.cum 0 0 0 0 (ackBytes wp wb k.bitmap)
      else s
    | [] => s

/-- Shrinks advertised on every connection (08 R208). -/
def Chip.shrinkAll (s : Chip) : Chip := s.connIds.foldl Chip.shrink s

/-- The cumulative PSN advanced over settled PSNs. -/
def Conn.advance : Nat → Conn → Conn
  | 0, k => k
  | n + 1, k =>
    let p := psnAdd k.cum 1
    if k.settled.contains p then
      Conn.advance n { k with cum := p, settled := k.settled.filter (· != p), placed := Tab.del k.placed p,
                              newly := k.newly + 1, malformed := 0 }
    else k

/-- A PSN that the last ACK reported missing now lies below the cumulative PSN (03 R70). -/
def Conn.holeFilled (k : Conn) (old : Nat) : Bool :=
  k.ackMap != 0 && (List.range 64).any fun i =>
    let p := psnAdd k.ackCum (1 + i)
    !bit k.ackMap i && k.ackMap / 2 ^ i != 0 && notAfter p k.cum && earlier old p

/-- PSNs of a message that an ACK may now cover: it is accepted or refused (02 R33, 04 R93, log 23). -/
def Chip.settle (s : Chip) (c first count : Nat) : Chip :=
  match s.conn c with
  | none => s
  | some k =>
    let ps := ((List.range count).map (psnAdd first ·)).filter fun p => earlier k.cum p && !k.settled.contains p
    let k1 := Conn.advance (k.settled.length + count) { k with settled := k.settled ++ ps }
    let s1 := s.setConn c k1
    if k1.cum != k.cum && (32 ≤ k1.newly || k1.holeFilled k.cum) then s1.sendAck c else s1

/-! ### Released work -/

/-- Host-egress cells of a message freed, and a message that waited for them taken off the list. -/
def Chip.dropMsgCells (s : Chip) (c : Nat) (m : Msg) : Chip :=
  let s1 := (s.dropChains (m.chains.map (·.2))).dropChains m.egress
  { s1 with bpm := { s1.bpm with waiting := s1.bpm.waiting.filter (· != (c, m.first)) } }

/-- A frame of SYZ still refers to a chain. -/
def Syz.uses (y : Syz) (h : Handle) : Bool := (y.held ++ y.queue).any fun f => f.chains.contains h

/-- The ingress chains of a finished message given back by its comet: released where SYZ shares them (06 R163), and freed
where no frame of SYZ needs them. -/
def Chip.giveBack (s : Chip) (m : Msg) : Chip :=
  m.chains.foldl (fun t e =>
    match t.chain e.2 with
    | some ch =>
      let u := if ch.sharers.isEmpty then t else t.releaseChain (.comet m.charge) e.2
      if u.syz.uses e.2 then u else u.dropChain e.2
    | none => t) s

/-! ### The destager's priority and the budget (08 R207, 13 R340, R341) -/

/-- SYZ_JOURNAL_FILL against its mark (12 R303): the destager is urgent, and until 5 points below. -/
def Chip.ringLevel (s : Chip) : Bool :=
  let size := s.syz.ringSize
  let fill := s.syz.ringBytes
  let mark := s.par 0xC0012C
  if s.pgm.ringUrgent then size * (mark - 5) ≤ fill * 100 && fill != 0 else size * mark ≤ fill * 100 && fill != 0

/-- PGM_DIRTY_BUDGET in force changed by a dependent check and reported (13 R341, 14 R368): source 2. -/
def Chip.lowerBudget (s : Chip) (v : Nat) : Chip :=
  if s.pgm.budget == v then s
  else
    let s1 := ({ s with pgm := { s.pgm with budget := v } }).setPar 0x700004 v
    s1.clamped (regField 0x700004 0) s.pgm.budget v 2

/-- The budget held against the hold-up fit (13 R341). -/
def Chip.fitBudget (s : Chip) : Chip :=
  let fit := s.budgetFit
  if fit < 1073741824 then
    let s1 := { s with ecl := { s.ecl with undersized := true } }
    (s1.lowerBudget 1024).raise 0x0E 0xFFFF 4 2 1 (le 8 fit)
  else
    let s1 := { s with ecl := { s.ecl with undersized := false } }
    s1.lowerBudget (Nat.min s.pgm.budget (fit / 1048576))

/-- A drain rate measurement (13 R340): a lower value replaces ECL_DRAIN_RATE, is persisted, and the fit is judged. -/
def Chip.measured (s : Chip) (ns bytes : Nat) : Chip :=
  let r := bytes * 1000 / Nat.max 1 ns
  if r < s.ecl.rate then
    let s1 := { s with ecl := { s.ecl with rate := r, low := r } }
    (s1.fitBudget).askPower (Nat.max s1.evr.mark s1.evr.asked)
  else s

/-- An urgent run that has ended gives its measurement (13 R340). -/
def Chip.runEnds (s : Chip) (r : Option UrgentRun) : Chip := match r with
  | some r => if r.start + 10000000 ≤ s.now && r.seals != 0 then s.measured (s.now - r.start) r.bytes else s
  | none => s

/-- The destager's priority judged once by its marks (08 R207, 12 R303), and shrinks advertised (R208). -/
def Chip.judge (s : Chip) : Chip :=
  let d := s.dirtyBytes
  let b := s.budgetBytes
  let ring := s.ringLevel
  let level := if s.pgm.urgent && !s.pgm.ringUrgent then 7 * b ≤ 10 * d else 3 * b ≤ 4 * d
  let keep := s.pgm.urgent && 7 * b ≤ 10 * d
  let urgent := ring || level || keep
  let run := if urgent then (if s.pgm.urgent then s.pgm.run else
      some { start := s.now, bytes := 0, seals := 0, second := s.now, secBytes := 0, secSeals := 0 }) else none
  let s1 := { s with pgm := { s.pgm with urgent, ringUrgent := ring, run } }
  if urgent then s1.shrinkAll else s1

/-- The destager's priority judged; a run that ends may lower the budget, which is judged again (13 R340, R341). -/
def Chip.levels (s : Chip) : Chip :=
  let s1 := s.judge
  if s.pgm.urgent && !s1.pgm.urgent then (s1.runEnds s.pgm.run).judge else s1

/-- The charges that a started message reserves and has not made released (08 R207, R209). -/
def Chip.unreserve (s : Chip) (c first : Nat) : Chip :=
  if s.pgm.reserved.any fun e => e.1 == c && e.2.1 == first then
    ({ s with pgm := { s.pgm with reserved := s.pgm.reserved.filter fun e => !(e.1 == c && e.2.1 == first) } }).levels
  else s

/-- A line is no longer held for a write that waited for delta space (08 R203). -/
def Chip.unwant (s : Chip) (line c first : Nat) : Chip :=
  { s with pgm := { s.pgm with wants := s.pgm.wants.filter fun e => !(e.1 == line && e.2 == (c, first)) } }

/-- The line operations of a message taken from every bank. -/
def Chip.dropWaits (s : Chip) (c first : Nat) : Chip :=
  let keep (w : LineWait) : Bool := !(w.conn == c && w.first == first)
  let banks := s.lcc.banks.map fun e => (e.1, { e.2 with waits := e.2.waits.filter keep, queue := e.2.queue.filter keep })
  let wants := s.pgm.wants.filter (fun e => e.2 != (c, first))
  ({ s with lcc := { s.lcc with banks }, pgm := { s.pgm with fetchWaits := s.pgm.fetchWaits.filter keep, wants } }).unreserve c first

/-- A message removed from its connection. -/
def Chip.removeMsg (s : Chip) (c first : Nat) : Chip := s.modConn c (·.delMsg first)

/-! ### The overlap guard -/

/-- Guard entries a connection holds. -/
def Conn.guards (k : Conn) : List Msg := k.msgs.filter (·.guarded)

/-- The guard frontier moved on (06 R143). A PSN whose message has settled and gone (a FLUSH, a refused or finished
message) is passed; an MGMT_REQ waits for the management agent. -/
def Conn.frontierOn : Nat → Conn → Conn
  | 0, k => k
  | n + 1, k =>
    let f := k.frontier
    match k.msg f with
    | some m =>
      if m.op == 0x20 || !m.checked then k
      else if 32 ≤ k.guards.length then
        if m.waited then k else { k.setMsg { m with waited := true } with guardFull := Nat.min (k.guardFull + 1) (2 ^ 32 - 1) }
      else Conn.frontierOn n { k.setMsg { m with guarded := true } with frontier := psnAdd f m.count }
    | none =>
      if notAfter f k.cum || k.settled.contains f then Conn.frontierOn n { k with frontier := psnAdd f 1 } else k

/-- Whether the guard releases a message (06 R144). -/
def Conn.releases (k : Conn) (m : Msg) : Bool :=
  k.guards.all fun e =>
    !earlier e.first m.first || (!(flagOrdered m.flags || m.op == 0x12) && (e.op == 0x12 || !e.overlaps m))

/-- Every held message of a connection re-tested (06 R144). -/
def Conn.retest (k : Conn) (now : Nat) : Conn :=
  { k with msgs := k.msgs.map fun m =>
      if m.guarded && m.st == .complete && m.ready.isNone && k.releases m then { m with ready := some now } else m }

/-- A host DISCONNECT that takes effect (03 R78, Table 3-15). -/
def Chip.takeDisconnect (s : Chip) (c : Nat) : Chip :=
  match s.conn c with
  | none => s
  | some k =>
    match k.msgs.find? fun m => m.op == 0x12 && m.ready.isSome with
    | none => s
    | some m => ((s.setConn c { k.delMsg m.first with st := if k.st == .established then .closing else k.st })).settle c m.first 1

/-- The guard of a connection run: frontier and re-test; an entry that a DISCONNECT leaves free is followed by a run of its own
(06 R143, R144). -/
def Chip.guardOn : Nat → Chip → Nat → Chip
  | 0, s, _ => s
  | n + 1, s, c => match s.conn c with
    | none => s
    | some k =>
      let k1 := Conn.frontierOn (k.settled.length + k.msgs.length + psnSub (psnAdd k.cum 1) k.frontier % 4096 + 1) k
      let s1 := s.setConn c (k1.retest s.now)
      let s2 := s1.takeDisconnect c
      match s2.conn c with
      | some k2 => if k2.msgs.length < k.msgs.length then Chip.guardOn n s2 c else s2
      | none => s2

/-- The guard of a connection run until nothing more is released. -/
def Chip.guard (s : Chip) (c : Nat) : Chip := match s.conn c with
  | some k => Chip.guardOn (k.msgs.length + 1) s c
  | none => s

/-! ### FLUSH -/

/-- A covered write is in a sealed stripe (04 Table 4-4, 08 R206). -/
def Chip.coveredSealed (s : Chip) (v : Covered) : Bool :=
  v.pages.all fun p => !(s.page p).charged || v.stamp ≤ (s.page p).sealed

/-- A covered write is journaled (12 R300). -/
def Chip.coveredJournaled (s : Chip) (v : Covered) : Bool := v.owed == 0 && v.pos ≤ s.syz.acked

/-- The condition of Table 4-4 for one covered write. -/
def Chip.covers (s : Chip) (level : Nat) (v : Covered) : Bool :=
  if level ≤ 1 then true
  else if v.pair && !s.r47 then
    s.coveredJournaled v && (level == 2 || s.coveredSealed v)
  else s.coveredSealed v

/-- A FLUSH may be answered (04 R105). -/
def Chip.flushMet (s : Chip) (k : Conn) (f : FlushWait) : Bool :=
  notAfter f.psn k.frontier &&
  (k.msgs.all fun m => !(m.writes && earlier m.first f.psn && !m.allDone)) &&
  (k.covered.all fun v => !notAfter v.psn f.psn || s.covers f.level v)

/-- FLUSH_RESP sent (03 Table 3-7). -/
def Chip.flushResp (s : Chip) (c : Nat) (f : FlushWait) : Chip :=
  s.queueTx c (DevPkt.make c 0x08 f.msgId f.key f.offset 0 (be 4 f.psn ++ [BitVec.ofNat 8 f.level, 0, 0, 0]))

/-- FLUSHes whose condition holds answered, each on its own (04 R106); covered writes that meet every level dropped. -/
def Chip.flushCheck (s : Chip) (c : Nat) : Chip :=
  match s.conn c with
  | none => s
  | some k =>
    let met := k.flushes.filter (s.flushMet k)
    let k1 := { k with flushes := k.flushes.filter fun f => !s.flushMet k f,
                       covered := k.covered.filter fun v =>
                         !(s.coveredSealed v && v.owed == 0 && (v.pos ≤ s.syz.acked || s.r47)) }
    if k.live then met.foldl (fun t f => t.flushResp c f) (s.setConn c k1) else s.setConn c k1

/-- FLUSHes of every connection judged. -/
def Chip.flushAll (s : Chip) : Chip := s.connIds.foldl Chip.flushCheck s

/-! ### Region drains (05 R132) -/

/-- An edit command ends with its result and key, and its record (05 R131, Table 5-5). A command that reports no key leaves 0 in
RGN_EDIT_STS.KEY: the spec does not say what the field then holds (DESIGN CHOICE, log 179). -/
def Chip.endEdit (s : Chip) (idx code result key : Nat) : Chip :=
  ({ s with rgn := { s.rgn with result := result, key := key, finish := none } }).raise 3 0xFFFF 1 0 0
    (le 2 idx ++ le 1 code ++ le 1 result ++ le 4 key)

/-- RGN_EDIT_STS.BUSY cleared, and the command ended, once no message was checked last against the old entry (05 R132)
(log 77). -/
def Chip.drainEdit (s : Chip) : Chip :=
  if s.rgn.busy && s.xpt.conns.all (fun e => e.2.msgs.all fun m => !m.old) then
    let s1 := { s with rgn := { s.rgn with busy := false } }
    match s.rgn.finish with
    | some (idx, code, result, key) => s1.endEdit idx code result key
    | none => s1
  else s

/-! ### The end of a connection -/

/-- What a FREE connection leaves: its packets' cells, its waiting work, its session (15 R379), its claim of the edit window
(05 R130), and a drain that waited for its messages (R132). -/
def Chip.freeConn (s : Chip) (c : Nat) : Chip :=
  match s.conn c with
  | none => s
  | some k =>
    let s1 := k.msgs.foldl (fun t m => (t.dropMsgCells c m).dropWaits c m.first) s
    let s2 := s1.dropChains ((k.held ++ k.wait).filterMap (·.chain))
    let held := (Tab.get s2.sec.mgmt SesState.blank c).role
    let serial := (Tab.get s2.sec.mgmt SesState.blank c).serial
    let s3 := { s2 with
      xpt := { s2.xpt with conns := Tab.del s2.xpt.conns c, freed := Tab.ins s2.xpt.freed c s2.now },
      bpm := { s2.bpm with owed := s2.bpm.owed.filter (·.1 != c) },
      sec := { s2.sec with mgmt := Tab.del s2.sec.mgmt c },
      rgn := if s2.rgn.path == 2 && s2.rgn.conn == c then { s2.rgn with path := 0, conn := 0 } else s2.rgn,
      cfg := if s2.cfg.owner = some (Session.mgmt c) then { s2.cfg with owner := none } else s2.cfg }
    let s4 := if held == 0 then s3 else
      s3.raise 0x10 0xFFFF 1 0 0 ([1] ++ le 4 c ++ le 4 serial ++ [BitVec.ofNat 8 held, Config.openCode 3 0])
    (s4.pumpOwed).drainEdit

/-- An ABORTING connection whose last accepted message has completed is released, with its event (03 Table 3-15). -/
def Chip.reap (s : Chip) (c : Nat) : Chip :=
  match s.conn c with
  | some k =>
    if k.st == .aborting && k.msgs.isEmpty then
      (s.freeConn c).raise 0x02 0xFFFF 1 0 0 (le 4 c ++ [BitVec.ofNat 8 k.reason])
    else s.drainEdit
  | none => s

/-- A PARTIAL message dropped with its connection (04 Table 4-1). -/
def Chip.dropPartials (s : Chip) (c : Nat) : Chip :=
  match s.conn c with
  | none => s
  | some k =>
    let gone := k.msgs.filter fun m => m.st == .partialMsg || m.op == 0x12 || m.op == 0x20
    let s1 := gone.foldl (fun t m => t.dropMsgCells c m) s
    (s1.modConn c fun k => { k with msgs := k.msgs.filter fun m => !(m.st == .partialMsg || m.op == 0x12 || m.op == 0x20) })

/-- Complete messages of an ABORTING connection that the guard would hold for ever are released by PSN order: what was
not seen can no longer arrive (log 97). -/
def Chip.openGuard (s : Chip) (c : Nat) : Chip :=
  (s.modConn c fun k => { k with msgs := k.msgs.map fun m => { m with guarded := true } }).modConn c fun k => k.retest s.now

/-- The device ends a connection (03 Table 3-14, R78): one DISCONNECT, no response after it; accepted messages complete
inside the device (log 143). -/
def Chip.endConn (s : Chip) (c reason : Nat) : Chip :=
  match s.conn c with
  | none => s
  | some k =>
    if k.st == .aborting then s
    else
      let s1 := (s.sendDisconnect c reason).dropPartials c
      let s2 := s1.dropChains ((k.held ++ k.wait).filterMap (·.chain))
      let s3 := s2.modConn c fun k => { k with st := .aborting, held := [], wait := [], flushes := [], reason := reason }
      ((s3.openGuard c).pumpOwed).reap c

/-- A CLOSING connection with every device packet acknowledged is freed (03 Table 3-15). -/
def Chip.closeIfDone (s : Chip) (c : Nat) : Chip :=
  match s.conn c with
  | some k =>
    if k.st == .closing && k.held.isEmpty && k.wait.isEmpty && k.msgs.isEmpty && k.flushes.isEmpty then
      (s.sendDisconnect c 0).freeConn c
    else s
  | none => s

/-! ### Refusals -/

/-- A message gone from its connection, refused or done: guard, drain and FLUSHes follow. -/
def Chip.gone (s : Chip) (c first : Nat) : Chip :=
  (((((s.removeMsg c first).guard c).drainEdit).flushCheck c).closeIfDone c).reap c

/-- A message refused with message scope (03 R83, 04 R96, R97): the NAK, the record, the release of its cells; its PSNs
count as received. -/
def Chip.refuse (s : Chip) (c : Nat) (m : Msg) (code offset hint : Nat) : Chip :=
  match s.conn c with
  | none => s
  | some k =>
    let r : RefusedMsg := { first := m.first, last := m.last, msgId := m.id, key := m.key, code, hint, offset, copies := 2 }
    let s1 := if k.live then
        (s.modConn c fun k => { k with refused := (r :: k.refused).take 64, nakDue := k.nakDue ++ [r] }).nakAgain c r
      else s
    let s2 := ((s1.dropMsgCells c m).dropWaits c m.first).removeMsg c m.first
    let s3 := if m.dup.isSome then s2 else s2.settle c m.first m.count
    ((s3.pumpOwed).gone c m.first)

end Sys2Proof.Machine
end

