-- ==== Sys2Proof/Machine/Chan.lean ====
section
/-!
DEFINITION. Where a line lies in DRAM (10 R260), what an access to it counts (10 R264, R272, R273), and the counters and
remapping of its line code (11 R280, R289 to R292).
-/
namespace Sys2Proof.Machine

/-- The place of a line: channel, bank (logical rank * 64 + subchannel * 32 + bank group * 4 + bank), column and row. -/
structure Place where
  ch : Nat
  bank : Nat
  col : Nat
  row : Nat
  deriving DecidableEq, Repr

/-- Exclusive-or of successive 5-bit fields (10 R260). -/
def fold5 : Nat → Nat → Nat
  | 0, _ => 0
  | n + 1, g => Nat.xor (g % 32) (fold5 n (g / 32))

/-- Rank bits Q and row bits w of the population (10 R260). -/
def Chip.logRanks (s : Chip) : Nat := match s.dmc.pop with
  | some p => Nat.log2 (Nat.max 1 (p.dimms * p.ranks * p.stack))
  | none => 0
def Chip.rowBits (s : Chip) : Nat := match s.dmc.pop with
  | some p => if p.width == 8 then 2 else 3
  | none => 3

/-- The population uses x8 devices. -/
def Chip.x8 (s : Chip) : Bool := s.rowBits == 2

/-- The placement of line `l` of frame `f` (10 R260). -/
def Chip.placeFrame (s : Chip) (f l : Nat) : Place :=
  let k := Nat.max 1 s.dmc.map.length
  let g := f / k
  let x := fold5 12 g
  let sub := l % 2
  let bg := Nat.xor (bits l 3 1) (x % 8)
  let bank := Nat.xor (bits l 5 4) (x / 8)
  let w := s.rowBits
  let lr := (g / 2 ^ w) % 2 ^ s.logRanks
  { ch := s.dmc.map.getD (f % k) 0, bank := lr * 64 + sub * 32 + bg * 4 + bank,
    col := g % 2 ^ w * 16 + bits l 9 6, row := g / 2 ^ (w + s.logRanks) }

/-- DIMM slot of a logical rank of a channel (10 R256). -/
def Chip.slotOf (s : Chip) (ch lr : Nat) : Nat := match s.dmc.pop with
  | some p => (s.chan ch).slots.getD (lr / Nat.max 1 (p.ranks * p.stack)) 0
  | none => 0

/-- A remap entry's location and row words (11 Table 11-3). -/
def Chip.remapEntry (s : Chip) (p : Place) (cause : Nat) : Nat × Nat :=
  let lr := p.bank / 64
  let slot := s.slotOf p.ch lr
  (2 ^ 31 + cause * 2 ^ 30 + bits p.bank 5 5 * 2 ^ 29 + p.bank % 4 * 2 ^ 25 + bits p.bank 4 2 * 2 ^ 22 +
     p.col * 2 ^ 10 + lr,
   p.row * 2 ^ 14 + slot * 2 ^ 13 + (s.chan p.ch).serials.getD slot 0 % 8192)

/-- Two locations are the same line, whatever the cause. -/
def sameLoc (a b : Nat × Nat) : Bool := setBit a.1 30 false == setBit b.1 30 false && a.2 == b.2

/-- Frames that a channel holds, its spare frame among them (10 R260). -/
def Chip.framesOn (s : Chip) (ch : Nat) : Nat := 2 ^ (s.rowBits + s.logRanks) * ((s.chan ch).rows - 1)

/-- The number of the frame with an index on a channel (10 R260). -/
def Chip.frameNo (s : Chip) (ch g : Nat) : Nat := g * s.dmc.map.length + (s.dmc.map.findIdx? (· == ch)).getD 0

/-- The spare frame of a channel: its last (11 R289). -/
def Chip.spareFrame (s : Chip) (ch : Nat) : Nat := s.frameNo ch (s.framesOn ch - 1)

/-- Where a request for a place is carried out: on line `k` of the spare frame where entry `k` remaps it (11 R289). -/
def Chip.remapped (s : Chip) (p : Place) : Place :=
  match (s.chan p.ch).remap.find? fun x => sameLoc x.2 (s.remapEntry p 0) with
  | some x => s.placeFrame (s.spareFrame p.ch) x.1
  | none => p

/-- A line as its frame holds it: frame number * 1,024 + line within the frame. -/
def Chip.frameLineNo (s : Chip) (line : Nat) : Option Nat := ((s.page (pageOfLine line)).frame).map fun f => f * 1024 + line % 1024

/-- The place of a frame line. -/
def Chip.placeOf (s : Chip) (fl : Nat) : Place := s.remapped (s.placeFrame (fl / 1024) (fl % 1024))

/-- A frame line's number within its channel, whatever the channels in use. -/
def Chip.chanLine (s : Chip) (fl : Nat) : Nat := fl / 1024 / Nat.max 1 s.dmc.map.length * 1024 + fl % 1024

/-- The frame line that a location of a remap entry held (10 R260, 11 Table 11-3). -/
def Chip.entryLine (s : Chip) (ch : Nat) (e : Nat × Nat) : Nat :=
  let w := s.rowBits
  let col := bits e.1 21 10
  let g := e.2 / 2 ^ 14 * 2 ^ (w + s.logRanks) + e.1 % 256 * 2 ^ w + col / 16
  let x := fold5 12 g
  let l := col % 16 * 64 + Nat.xor (bits e.1 26 25) (x / 8) * 16 + Nat.xor (bits e.1 24 22) (x % 8) * 2 + bits e.1 29 29
  s.frameNo ch g * 1024 + l

/-- The frame line that a line of a channel stores: of the spare frame, the one that its remap entry has moved to it (11 R289). -/
def Chip.heldLine (s : Chip) (ch fl : Nat) : Nat :=
  if fl / 1024 == s.spareFrame ch then
    match Tab.find (s.chan ch).remap (fl % 1024) with
    | some e => s.entryLine ch e
    | none => fl
  else fl

/-- The placement of a line of the persistent address space whose page has a frame. -/
def Chip.place (s : Chip) (line : Nat) : Option Place := (s.frameLineNo line).map s.placeOf

/-- The channel of a line, when its page has a frame. -/
def Chip.chanOf (s : Chip) (line : Nat) : Option Nat := (s.place line).map (·.ch)

/-! ### Internal areas (08 Table 8-1; log 191) -/

/-- Nodes of the map above its leaves that PGM_SPACE needs. -/
def Chip.innerNodes (s : Chip) : Nat := ceilDiv s.pgm.space 262144 + ceilDiv s.pgm.space 134217728 + 1

/-- Sizes in bytes of the areas behind the frames of pages and mirror: map area, frame descriptors, delta store, journal ring. -/
def Chip.areaSizes (s : Chip) : List Nat :=
  [ceilDiv s.pgm.space 512 * 6144 + s.innerNodes * 4096, 16 * s.pgm.total, s.pgm.store * 128, s.syz.ringGiB * 2 ^ 30]

/-- Bytes of the mirror area, whose frames follow those of pages. -/
def Chip.mirrorBytes (s : Chip) : Nat := s.syz.mirrorGiB * 2 ^ 30

/-- The frame line that holds a byte of an area: 0 map area, 1 descriptors, 2 delta store, 3 ring, 4 mirror. -/
def Chip.areaLine (s : Chip) (area off : Nat) : Nat :=
  (s.pgm.total * 65536 + (if area == 4 then 0 else s.mirrorBytes + (s.areaSizes.take area).sum) + off) / 64

/-- The area that a byte offset lies in, and its offset there. -/
def areaAt : List Nat → Nat → Nat → Option (Nat × Nat)
  | [], _, _ => none
  | n :: r, k, off => if off < n then some (k, off) else areaAt r (k + 1) (off - n)

/-- The area that a frame line lies in, and its byte offset there; none for a frame of pages or an unused one. -/
def Chip.areaOf (s : Chip) (fl : Nat) : Option (Nat × Nat) :=
  let off := (fl - s.pgm.total * 1024) * 64
  if fl < s.pgm.total * 1024 then none else if off < s.mirrorBytes then some (4, off) else areaAt s.areaSizes 0 (off - s.mirrorBytes)

/-- The package rank of a place: its logical rank without the height of the stack (10 R260, R268). -/
def Chip.packRank (s : Chip) (p : Place) : Nat := p.bank / 64 / Nat.max 1 ((s.dmc.pop.map (·.stack)).getD 1)

/-- The activation counts of a rank's banks lowered by the RFM threshold, as each REFab and RFMab does (10 R272, log 136). -/
def Chip.lowerRaa (s : Chip) (ch rank : Nat) : Chip := match (s.chan ch).rfm with
  | none => s
  | some th => s.modChan ch fun k => { k with raa := (k.raa.map fun e =>
      if s.packRank { ch, bank := e.1, col := 0, row := 0 } == rank then (e.1, e.2 - th) else e).filter (·.2 != 0) }

/-- tREFI in force for a rank, in ns (10 R268). -/
def Channel.trefi (k : Channel) (r : Nat) : Nat := if bit k.doubled r then 1950 else 3900

/-- A REFab to a package rank: it lowers the rank's debt by the tREFI in force (10 R269). -/
def Chip.refab (s : Chip) (ch rank : Nat) : Chip :=
  ((s.emit (.dram ch rank 1)).modChan ch fun k =>
    { k with debt := Tab.set k.debt 0 rank (Tab.get k.debt 0 rank - k.trefi rank) }).lowerRaa ch rank

/-- A page's frame lies on a rank of a channel. -/
def Chip.frameOn (s : Chip) (g : Page) (ch r : Nat) : Bool := match g.frame with
  | some f =>
    let p := s.placeFrame f 0
    p.ch == ch && s.packRank p == r
  | none => false

/-- A class 1 request waits for a rank (10 R269, Table 10-3): one in the channel's input class, or, in steps E2 to E4 of Eclipse,
the reads and merges of a page whose frame lies on it. -/
def Chip.class1Waits (s : Chip) (ch r : Nat) : Bool :=
  ((s.chan ch).inq.any fun q => q.cls == 1 && s.packRank (s.placeOf q.fl) == r) ||
  (2 ≤ s.ecl.step && s.ecl.step ≤ 4 && s.pgm.pages.any fun e =>
    (e.2.st == .destaging || (e.2.st == .fetching && e.2.issued.isSome)) && s.frameOn e.2 ch r)

/-- One of the next 8 requests of a channel's execution queue is for a rank (10 R269). -/
def Chip.soonFor (s : Chip) (ch r : Nat) : Bool := ((s.chan ch).execq.take 8).any fun fl => s.packRank (s.placeOf fl) == r

/-- An activation where MR58 requires RFM (10 R272): an RFMab at the threshold, or at twice it while class 1 waits. -/
def Chip.countRaa (s : Chip) (p : Place) : Chip := match (s.chan p.ch).rfm with
  | none => s
  | some th =>
    let n := Tab.get (s.chan p.ch).raa 0 p.bank + 1
    let s1 := s.modChan p.ch fun k => { k with raa := Tab.set k.raa 0 p.bank n }
    let r := s.packRank p
    if (if s.class1Waits p.ch r then 2 * th else th) ≤ n then (s1.emit (.dram p.ch r 2)).lowerRaa p.ch r else s1

/-- The row-disturbance judgement of a tracker that reaches its threshold (10 R273). -/
def Chip.judgeRow (s : Chip) (p : Place) (tag : Option Src) : Chip :=
  let s1 := if (s.chan p.ch).rfm.isSome then s else s.refab p.ch (s.packRank p)
  match tag with
  | some (.conn c) =>
    let s2 := (s1.count (0xA0001C + 0x10000 * p.ch)).modChan p.ch fun k =>
      if k.throttles.any fun t => t.conn == c && t.bank == p.bank then
        { k with throttles := k.throttles.map fun t => if t.conn == c && t.bank == p.bank then { t with minOver := false, windowOver := false } else t }
      else { k with throttles := k.throttles ++ [{ conn := c, bank := p.bank, minOver := false, held := [], windowOver := false }] }
    s2.raise 0x0A p.ch 5 2 0 (le 4 c ++ le 1 (p.bank / 64) ++ le 1 (p.bank % 64))
  | _ => s1

/-- An activation added to a tracked row under its source tag. -/
def Tracker.bump (t : Tracker) (tag : Src) : Tracker :=
  { t with count := t.count + 1,
           tags := if t.tags.any (·.1 == tag) then t.tags.map fun e => if e.1 == tag then (tag, e.2 + 1) else e else t.tags ++ [(tag, 1)] }

/-- The source tag with the most activations of a tracked row, the first seen of equals (10 R272; log 192). -/
def Tracker.tag (t : Tracker) : Option Src := (t.tags.find? fun e => e.2 == maxOf (t.tags.map (·.2))).map (·.1)

/-- An activation of a row counted in its bank's 8-entry tracker (10 R272). -/
def Chip.activate (s : Chip) (p : Place) (tag : Src) : Chip :=
  let ts := Tab.get (s.chan p.ch).trackers [] p.bank
  let ts1 :=
    if ts.any (·.row == p.row) then ts.map fun t => if t.row == p.row then t.bump tag else t
    else if ts.length < 8 then ts ++ [{ row := p.row, count := 1, tags := [(tag, 1)] }]
    else
      let low := minOf (2 ^ 32) (ts.map (·.count))
      match ts.findIdx? (·.count == low) with
      | some i => setAt ts i { row := p.row, count := low + 1, tags := [(tag, 1)] }
      | none => ts
  let s1 := (s.modChan p.ch fun k => { k with trackers := Tab.ins k.trackers p.bank ts1 }).countRaa p
  match ts1.find? (·.row == p.row) with
  | some t => if t.count == s.par 0xAE0010 then s1.judgeRow p t.tag else s1
  | none => s1

/-- A row is open: one of the last 8 requests of the execution queue targets it, and none after it another row of its bank
(10 R263; log 28). -/
def Chip.rowOpen (s : Chip) (p : Place) : Bool :=
  ((((s.chan p.ch).execq.reverse.take 8).map s.placeOf).find? (·.bank == p.bank)).any (·.row == p.row)

/-- A read admitted by its channel (10 R263, R264): answered from the write queue, from an open row, or after an activation; one
whose bytes a command brings back stays in the execution queue till then. -/
def Chip.readLine (s : Chip) (r : ChanReq) : Chip :=
  let p := s.placeOf r.fl
  let s1 := if (s.chan p.ch).wq.any (·.1 == r.fl) || s.rowOpen p then s else s.activate p r.tag
  if r.awaited then s1.modChan p.ch fun k => { k with execq := k.execq ++ [r.fl] } else s1

/-- The requests of every line of a frame, as a destage reads them or a fetch stores them: each row of it opened once
(10 R260); a read takes no line that the write queue holds (R264), and a remapped line has a place of its own (11 R289). -/
def Chip.sweepAt (s : Chip) (r : ChanReq) : Chip :=
  let f := r.fl / 1024
  let k := s.chan (s.placeFrame f 0).ch
  let queued (l : Nat) : Bool := !r.write && k.wq.any (·.1 == f * 1024 + l)
  if k.remap.isEmpty && !(k.wq.any fun e => e.1 / 1024 == f) then
    (List.range 64).foldl (fun t l => t.activate (t.placeFrame f l) r.tag) s
  else
    (List.range 64).foldl (fun t b =>
      let ls := ((List.range 16).map fun c => b + 64 * c).filter fun l => !queued l
      let ps := ls.map fun l => s.remapped (s.placeFrame f l)
      let rows := ps.foldl (fun (acc : List Place) p => if acc.any fun q => q.bank == p.bank && q.row == p.row then acc else acc ++ [p]) []
      rows.foldl (fun u p => u.activate p r.tag) t) s

/-- A read of a channel is outstanding, or waits in an input class (10 R263). -/
def Chip.readWaiting (s : Chip) (ch : Nat) : Bool := !(s.chan ch).execq.isEmpty || (s.chan ch).inq.any fun r => !r.write

/-- The writes of a batch that open a row, in order, `last` being the rows that the 8 writes before have opened (10 R263). -/
def Chip.opens (s : Chip) : List Place → List (Nat × Src) → List (Place × Src)
  | _, [] => []
  | last, e :: r =>
    let p := s.placeOf e.1
    let open_ := (last.find? (·.bank == p.bank)).any (·.row == p.row)
    (if open_ then [] else [(p, e.2)]) ++ s.opens (p :: last.take 7) r

/-- Writes sent to the DRAM until `keep` remain: a row stays open while one of the next 8 requests targets it (10 R263). -/
def Chip.writeBatch (s : Chip) (ch keep : Nat) : Chip :=
  let q := (s.chan ch).wq
  let go := s.opens [] (q.take (q.length - keep))
  go.foldl (fun t e => t.activate e.1 e.2) (s.modChan ch fun k => { k with wq := q.drop (q.length - keep) })

/-- A write of a frame line admitted: a rewrite of it that the scrubber still owes is discarded (11 R287), and it stores a good codeword
anew (R278). -/
def Channel.noRewrite (k : Channel) (fl : Nat) : Channel :=
  { k with rewrite := if k.rewrite == some fl then none else k.rewrite, bad := Tab.del k.bad fl }

/-- Every line of a frame written: no rewrite in it is owed any more (11 R287). -/
def Chip.frameWritten (s : Chip) (f : Nat) : Chip :=
  s.modChan (s.placeFrame f 0).ch fun k =>
    { k with rewrite := if k.rewrite.any (· / 1024 == f) then none else k.rewrite, bad := k.bad.filter fun e => e.1 / 1024 != f }

/-- A full line admitted by its channel: posted to the write queue (10 R263, R264), which drains at once behind a class 1 write. -/
def Chip.postLine (s : Chip) (r : ChanReq) : Chip :=
  let ch := (s.placeOf r.fl).ch
  let q := (s.chan ch).wq
  let merge := q.any (·.1 == r.fl)
  let s1 := s.modChan ch fun k => { k.noRewrite r.fl with
    wq := if merge then q.map fun e => if e.1 == r.fl then (r.fl, r.tag) else e else q ++ [(r.fl, r.tag)] }
  if r.cls == 1 then (if merge then s1.count (0xA00010 + 0x10000 * ch) else s1).writeBatch ch 0
  else if merge then s1.count (0xA00010 + 0x10000 * ch)
  else if !s.readWaiting ch then s1.writeBatch ch 0
  else if 48 ≤ q.length + 1 then s1.writeBatch ch 16
  else s1

/-- A request admitted into the execution queue. -/
def Chip.access (s : Chip) (r : ChanReq) : Chip := if r.sweep then s.sweepAt r else if r.write then s.postLine r else s.readLine r

/-- A channel admits nothing: it is stopped for a frequency change (10 Table 10-5), or its execution queue of 32 is full (R263). -/
def Channel.blocked (k : Channel) : Bool := k.stopped || 32 ≤ k.execq.length

/-- A request in the input class of its channel: admitted at once, or kept there while the channel admits nothing (10 R261). -/
def Chip.enqueue (s : Chip) (r : ChanReq) : Chip :=
  let ch := (s.placeOf r.fl).ch
  if (s.chan ch).blocked then s.modChan ch fun k => { k with inq := k.inq ++ [r] } else s.access r

/-- Two requests are for the same line, or one of them for the frame that holds the other's. -/
def ChanReq.meets (a b : ChanReq) : Bool := if a.sweep || b.sweep then a.fl / 1024 == b.fl / 1024 else a.fl == b.fl

/-- A throttle holds a request itself: a read or atomic of its connection (10 R273), not the read of a WRITE narrower than its line. -/
def Throttle.own (t : Throttle) (r : ChanReq) : Bool := r.tag == .conn t.conn && r.awaited

/-- A throttle of a connection on the bank of a line (10 R273). -/
def Chip.throttled (s : Chip) (c line : Nat) : Bool :=
  match s.place line with
  | some p => (s.chan p.ch).throttles.any fun t => t.conn == c && t.bank == p.bank
  | none => false

/-- The throttle buffer of a connection on a line's bank is full: 16 requests. -/
def Chip.throttleFull (s : Chip) (c line : Nat) : Bool :=
  match s.place line with
  | some p => (s.chan p.ch).throttles.any fun t => t.conn == c && t.bank == p.bank && 16 ≤ (t.held.filter t.own).length
  | none => false

/-- A request that reaches its channel (10 R261, R273): a throttled connection's read or atomic joins the throttle buffer, a request
that meets one held there waits behind it (R262), and any other goes to its input class. -/
def Chip.request (s : Chip) (r : ChanReq) : Chip :=
  let p := s.placeOf r.fl
  match (s.chan p.ch).throttles.find? fun t => t.held.any r.meets || (t.own r && t.bank == p.bank) with
  | some x => s.modChan p.ch fun k =>
      { k with throttles := k.throttles.map fun t => if t.conn == x.conn && t.bank == x.bank then { t with held := t.held ++ [r] } else t }
  | none => s.enqueue r

/-- A read of a line at its channel: class 3 (10 Table 10-3). -/
def Chip.dramRead (s : Chip) (line : Nat) (tag : Src) (awaited : Bool) : Chip := match s.frameLineNo line with
  | some fl => s.request { cls := 3, fl, tag, write := false, awaited, sweep := false }
  | none => s

/-- A full line stored at its channel: class 3. -/
def Chip.dramWrite (s : Chip) (line : Nat) (tag : Src) : Chip := match s.frameLineNo line with
  | some fl => s.request { cls := 3, fl, tag, write := true, awaited := false, sweep := false }
  | none => s

/-- The requests of every line of a page's frame at their channel. -/
def Chip.sweepPage (s : Chip) (page cls : Nat) (tag : Src) (write : Bool) : Chip := match (s.page page).frame with
  | some f => s.request { cls, fl := f * 1024, tag, write, awaited := false, sweep := true }
  | none => s

/-- The requests of some bytes of an internal area at their channels. -/
def Chip.areaAccess (s : Chip) (area off len cls : Nat) (tag : Src) (write : Bool) : Chip :=
  let lo := s.areaLine area off
  let hi := s.areaLine area (off + Nat.max 1 len - 1)
  if s.dmc.map.isEmpty then s
  else (rangeFrom lo (hi + 1 - lo)).foldl (fun t fl => t.request { cls, fl, tag, write, awaited := false, sweep := false }) s

/-- The next request of the input classes (10 R261, R262): the oldest of the highest class, or in its place an earlier one for
the same line. -/
def nextReq (q : List ChanReq) : Option ChanReq :=
  match q.find? fun r => r.cls == minOf 9 (q.map (·.cls)) with
  | some r => q.find? r.meets
  | none => none

/-- The requests that waited admitted, once the channel admits again. -/
def Chip.admitAll : Nat → Chip → Nat → Chip
  | 0, s, _ => s
  | n + 1, s, ch =>
    if (s.chan ch).blocked then s
    else match nextReq (s.chan ch).inq with
      | none => s
      | some r => Chip.admitAll n ((s.modChan ch fun k => { k with inq := k.inq.erase r }).access r) ch

/-- The bytes of an awaited read are back: it leaves the execution queue, and what that held up goes on (10 R263). -/
def Chip.readBack (s : Chip) (line : Nat) : Chip := match s.frameLineNo line with
  | none => s
  | some fl =>
    let ch := (s.placeOf fl).ch
    let u := s.modChan ch fun k => { k with execq := k.execq.erase fl }
    let v := Chip.admitAll (u.chan ch).inq.length u ch
    if v.readWaiting ch then v else v.writeBatch ch 0

/-- An input class of a line's channel is full: it pushes back on its sources (10 R261). -/
def Chip.classFull (s : Chip) (line cls : Nat) : Bool := match s.chanOf line with
  | some ch => 32 ≤ ((s.chan ch).inq.filter (·.cls == cls)).length
  | none => false

/-- A bank sends no read for a line whose input class is full, nor one that a full throttle buffer would have to take (10 R273). -/
def Chip.chanFull (s : Chip) (line : Nat) (tag : Src) : Bool :=
  s.classFull line 3 ||
  (match tag with
   | .conn c => s.throttleFull c line
   | _ => false)

/-- What a throttle admits next: the first request that it holds, and those for its line that wait behind it. -/
def Throttle.next (t : Throttle) : List ChanReq := match t.held with
  | [] => []
  | r :: rest => r :: (rest.filter (·.meets r)).takeWhile fun x => !t.own x

/-- A line's read waits in some throttle buffer. -/
def Chip.inThrottle (s : Chip) (line : Nat) : Bool := match s.frameLineNo line with
  | some fl => s.dmc.chans.any fun e => e.2.throttles.any fun t => t.held.any fun r => r.awaited && r.fl == fl
  | none => false

/-- A line's read waits in an input class of its channel (10 R261, R274). -/
def Chip.halted (s : Chip) (line : Nat) : Bool := match s.frameLineNo line with
  | some fl => (s.chan (s.placeOf fl).ch).inq.any fun r => r.awaited && r.fl == fl
  | none => false

/-! ### Error counters and remapping (11) -/

/-- A remap entry allocated for a frame line (11 R290): the lowest free one, its line read and stored anew on the target, persisted
and recorded; a full table is an event. A target line is never remapped. -/
def Chip.allocRemap (s : Chip) (fl cause : Nat) : Chip :=
  let p := s.placeFrame (fl / 1024) (fl % 1024)
  let e := s.remapEntry p cause
  let t := (s.chan p.ch).remap
  if fl / 1024 == s.spareFrame p.ch || t.any fun x => sameLoc x.2 e then s
  else match (List.range 16).find? fun k => (Tab.find t k).isNone with
    | some k =>
      let s1 := s.modChan p.ch fun c => { c with remap := Tab.ins t k e, bad := Tab.del c.bad fl }
      (((s1.activate p .mei).activate (s1.placeFrame (s1.spareFrame p.ch) k) .mei).askRemap p.ch k 1 e.1 e.2).raise 0x0B p.ch 4 1 0 (le 1 k ++ le 4 e.1 ++ le 4 e.2)
    | none => s.raise 0x0B p.ch 5 2 1 (le 4 e.1 ++ le 4 e.2)

/-- A corrected line address entered in the 64-entry log (11 R290), and its count (log 46). -/
def logCorrected (log : List (Nat × Nat)) (line : Nat) : Nat × List (Nat × Nat) :=
  match log.find? (·.1 == line) with
  | some e => (e.2 + 1, log.map fun x => if x.1 == line then (line, x.2 + 1) else x)
  | none =>
    if log.length < 64 then (1, log ++ [(line, 1)])
    else
      let low := minOf (2 ^ 32) (log.map (·.2))
      match log.findIdx? (·.2 == low) with
      | some i => (1, setAt log i (line, 1))
      | none => (1, log)

/-- A device position's corrections in this lap pass the threshold: one event (11 R280). -/
def Chip.deviceFailing (s : Chip) (p : Place) (d : Nat) : Chip :=
  let k := s.chan p.ch
  let n := Tab.get k.devs 0 d + 1
  let s1 := (s.count (0xB00200 + 0x40 * p.ch + 4 * d)).modChan p.ch fun k => { k with devs := Tab.set k.devs 0 d n }
  if s.par 0xB00010 < n && !k.failing.contains d then
    (s1.modChan p.ch fun k => { k with failing := d :: k.failing }).raise 0x0B p.ch 1 2 1
      [BitVec.ofNat 8 (p.bank / 64), BitVec.ofNat 8 (bits p.bank 5 5), BitVec.ofNat 8 d]
  else s1

/-- The pattern that the decoder corrected, by which devices are counted (11 R280). -/
def correction (x8 poisoned : Bool) (errs : List (Nat × Byte)) : List (Nat × Byte) :=
  match decodedAs x8 (fromGood poisoned errs), decodedAs x8 (fromPoison poisoned errs) with
  | some p, none => p
  | none, some p => p
  | _, _ => []

/-- A corrected burst of a frame line counted (11 R280), and its line's rate judged (R290): a threshold lowered below the count
already reached counts as met at the next correction; a full table is recorded once. -/
def Chip.correctedAt (s : Chip) (fl : Nat) (fixed : List (Nat × Byte)) : Chip :=
  let p := s.placeOf fl
  let s1 := (devicesOf s.x8 fixed).foldl (fun t d => t.deviceFailing p d) (s.count (0xB00080 + 4 * p.ch))
  let r := logCorrected (s.chan p.ch).celog fl
  let s2 := s1.modChan p.ch fun k => { k with celog := r.2 }
  let room := ((List.range 16).any fun k => (Tab.find (s.chan p.ch).remap k).isNone)
  if r.1 == s.par 0xB0000C || (s.par 0xB0000C < r.1 && room) then s2.allocRemap fl 0 else s2

/-- A corrected burst of a line whose page has a frame. -/
def Chip.corrected (s : Chip) (line : Nat) (fixed : List (Nat × Byte)) : Chip := match s.frameLineNo line with
  | some fl => s.correctedAt fl fixed
  | none => s

/-- An uncorrectable burst counted (11 R280). -/
def Chip.uncorrected (s : Chip) (line : Nat) : Chip := match s.chanOf line with
  | some n => s.count (0xB000C0 + 4 * n)
  | none => s

/-- A poison read counted (11 R280). -/
def Chip.poisonRead (s : Chip) (line : Nat) : Chip := match s.chanOf line with
  | some n => s.count (0xB00100 + 4 * n)
  | none => s

/-- A line marked poison. -/
def Chip.poisoned (s : Chip) (line : Nat) : Bool := s.pgm.poison.contains line

/-- The symbols in error of a frame line's burst: those that the read shows, else those that it was stored or last read with and that
stay until it is stored anew (11 R278). -/
def Chip.burstOf (s : Chip) (fl : Nat) (errs : List (Nat × Byte)) : List (Nat × Byte) :=
  if errs.isEmpty then Tab.get (s.chan (s.placeOf fl).ch).bad [] fl else errs

/-- A frame line keeps the symbols in error that a read of it has shown. -/
def Chip.staysBad (s : Chip) (fl : Nat) (errs : List (Nat × Byte)) : Chip :=
  s.modChan (s.placeOf fl).ch fun k => { k with bad := Tab.set k.bad [] fl errs }

/-- The symbols in error of a line's burst. -/
def Chip.lineBurst (s : Chip) (line : Nat) (errs : List (Nat × Byte)) : List (Nat × Byte) := match s.frameLineNo line with
  | some fl => s.burstOf fl errs
  | none => errs

/-- A burst of a line read and classified (11 R279), with its counters; its errors stay with the line (R278). -/
def Chip.readBurst (s : Chip) (line : Nat) (errs : List (Nat × Byte)) : Burst × Chip :=
  let e := s.lineBurst line errs
  let c := classify s.x8 (s.poisoned line) e
  let t := match s.frameLineNo line with
    | some fl => s.staysBad fl e
    | none => s
  let fixed := correction s.x8 (s.poisoned line) e
  (c, match c with
    | .good => t
    | .corrected => t.corrected line fixed
    | .poison => t.poisonRead line
    | .poisonCorrected => (t.corrected line fixed).poisonRead line
    | .uncorrectable => t.uncorrected line)

/-- What a read of a line adds to its true bytes: nothing, or the rest of another codeword where the decoder took its errors for
another pattern (11 R278). -/
def Chip.slip (s : Chip) (line : Nat) (errs : List (Nat × Byte)) : List Byte :=
  let e := s.lineBurst line errs
  if e.length ≤ 4 then [] else residue s.x8 (fromGood (s.poisoned line) e)

/-- Bytes from offset `off` of a line as a read gives them, those that a mask names untouched. -/
def slipped (slip : List Byte) (mask off : Nat) (data : List Byte) : List Byte :=
  if slip.isEmpty then data
  else data.zipIdx.map fun e => if bit mask (off + e.2) then e.1 else e.1 ^^^ slip.getD (off + e.2) 0

end Sys2Proof.Machine
end

