-- ==== Sys2Proof/Machine/Nvme.lean ====
section
/-!
DEFINITION. Drive commands (09 R222 to R227, R230, R240): the queues of a drive port, the order in which waiting commands are
submitted, and the commands that go out at once.
-/
namespace Sys2Proof.Machine

/-- Delta lines that the store holds: the bytes replay laid into frames take no room in it (12 R310). -/
def Chip.deltaUsed (s : Chip) : Nat := (s.pgm.deltas.filter fun e => !s.pgm.replayed.contains (pageOfLine e.1)).length

/-- The delta store is 3/4 full: merge fetches are served as demand (08 Table 8-4). -/
def Chip.storeHigh (s : Chip) : Bool := 3 * s.pgm.store ≤ 4 * s.deltaUsed

/-- The unit issues drive commands: D22 powered, no conflict reported, not in UMBRA or the Eclipse of such a unit, nor in
FAULT, SEALED or MAINTENANCE, nor in START before the role is ACTIVE (09 R230, R231; 12 R307; 13 R337; 14 R364). -/
def Chip.drivesOn (s : Chip) : Bool :=
  !bit s.pws.gated 22 && !s.str.conflict && !s.ecl.standby && s.glb.state != .umbra && s.glb.state != .fault && s.glb.state != .sealed &&
  s.glb.state != .maintenance && (s.glb.state != .start || s.syz.role == .active)

/-- Commands that may be outstanding on a drive port (09 R225). -/
def Chip.depth (s : Chip) (d : Nat) : Nat := s.par (0x800004 + 0x1000 * (d / 2))

/-- The class that work of a class is served in (09 R240). -/
def Chip.cmdClass (s : Chip) (cls : Nat) : Nat := if cls == 5 && s.storeHigh then 4 else cls

/-- The class that a waiting command is served in: a copy of recorder records moves to class 2 once 32,768 further ones have been
written (16 R394). -/
def Chip.servedIn (s : Chip) (c : DriveCmd) : Nat := match c.use with
  | .copy b => if 4096 * (b + 1) + 32768 ≤ s.evr.next then Nat.min 2 c.cls else c.cls
  | _ => s.cmdClass c.cls

/-- A command of a rebuild. -/
def DriveCmd.rebuild (c : DriveCmd) : Bool := match c.use with
  | .rebuild _ _ => true
  | .rebuildRead _ _ _ => true
  | .rebuildSector _ _ _ _ => true
  | _ => false

/-- I/O commands outstanding on a drive port: admin commands have a queue of their own (09 R225). -/
def Drive.outstanding (k : Drive) : Nat := (k.cmds.filter fun e => e.2.cls != 0).length

/-- The waiting command that goes next (09 R240), while commands may be issued (R231): the highest class; in class 8 a rebuild's after three others; class 9 only
below a quarter of the depth. -/
def Chip.nextCmd (s : Chip) (d : Nat) : Option Nat :=
  let k := s.drive d
  let best := minOf 99 (k.waitCmds.map s.servedIn)
  if !s.drivesOn || !k.ready || !k.up || k.waitCmds.isEmpty || s.depth d ≤ k.outstanding || (best == 9 && s.depth d ≤ 4 * k.outstanding) then none
  else
    let due := if best == 8 && 3 ≤ k.back then k.waitCmds.findIdx? fun c => c.cls == 8 && c.rebuild else none
    due.orElse fun _ => k.waitCmds.findIdx? fun c => s.servedIn c == best

/-- A command leaves for a submission queue: the admin queue, 0, or the next I/O queue in rotation (09 R225). -/
def Chip.ring (s : Chip) (d cls : Nat) (cmd : NvmeCmd) : Nat × Chip :=
  let k := s.drive d
  let q := if cls == 0 then 0 else k.queue % Nat.max 1 k.pairs + 1
  (k.next, (s.modDrive d fun k => { k with next := (k.next + 1) % 65536, queue := if cls == 0 then k.queue else q }).emit
    (.nvme d k.next q cls cmd))

/-- A command sent and outstanding. -/
def Chip.sendCmd (s : Chip) (d : Nat) (c : DriveCmd) : Chip :=
  let x := s.ring d c.cls c.cmd
  x.2.modDrive d fun k => { k with cmds := k.cmds ++ [(x.1, c)] }

/-- Waiting commands of a drive port submitted. -/
def Chip.submit : Nat → Chip → Nat → Chip
  | 0, s, _ => s
  | n + 1, s, d =>
    match s.nextCmd d with
    | none => s
    | some i =>
      match (s.drive d).waitCmds[i]? with
      | none => s
      | some c =>
        let s1 := s.modDrive d fun k =>
          { k with waitCmds := k.waitCmds.eraseIdx i, back := if c.cls != 8 then k.back else if c.rebuild then 0 else k.back + 1 }
        Chip.submit n (s1.sendCmd d c) d

/-- Commands of a drive port that may go submitted. -/
def Chip.submitAll (s : Chip) (d : Nat) : Chip := Chip.submit (s.drive d).waitCmds.length s d

/-- A drive that may be given commands. -/
def Chip.driveUsable (s : Chip) (d : Nat) : Bool :=
  let k := s.drive d
  s.drivesOn && k.present && !k.lost && !k.refused && k.size != 0

/-- An I/O command queued in a class of 09 Table 9-6. -/
def Chip.nvme (s : Chip) (d cls : Nat) (cmd : NvmeCmd) (use : CmdUse := .none) : Chip :=
  if s.driveUsable d then
    (s.modDrive d fun k => { k with waitCmds := k.waitCmds ++ [{ cls, cmd, use, again := false }] }).submitAll d
  else s

/-- An admin command: it goes out at once, and is outstanding until it completes (09 R225, R227). -/
def Chip.admin (s : Chip) (d : Nat) (cmd : NvmeCmd) : Chip := s.sendCmd d { cls := 0, cmd, use := .none, again := false }

/-- A command that the event which reports its outcome has already waited for (log 125). -/
def Chip.ran (s : Chip) (d cls : Nat) (cmd : NvmeCmd) : Chip := (s.ring d cls cmd).2

/-- Waiting commands of one use moved to the tail of a higher class (08 R198); submitted ones stay as they are. -/
def Drive.raise (k : Drive) (u : CmdUse) (cls : Nat) : Drive :=
  let hit (c : DriveCmd) : Bool := c.use == u && cls < c.cls
  { k with waitCmds := (k.waitCmds.filter fun c => !hit c) ++ (k.waitCmds.filter hit).map fun c => { c with cls } }

/-- The waiting commands of one use raised on every drive port. -/
def Chip.raiseCmds (s : Chip) (u : CmdUse) (cls : Nat) : Chip :=
  { s with str := { s.str with drives := s.str.drives.map fun e => (e.1, e.2.raise u cls) } }

/-- A command of one use is waiting or outstanding on some drive port. -/
def Chip.inFlight (s : Chip) (u : CmdUse) : Bool :=
  s.str.drives.any fun e => e.2.cmds.any (fun c => c.2.use == u) || e.2.waitCmds.any fun c => c.use == u

end Sys2Proof.Machine
end

