-- ==== Sys2Proof/Machine/Pages.lean ====
section
/-!
DEFINITION. Pages (08 R190 to R217): frames, charges, demand, the fetch queue, delta lines, and what a write does to the
state of its page; and the drive reads that fetches submit (09 R249).
-/
namespace Sys2Proof.Machine

/-! ### Sets as the page manager sees them -/

/-- The map set: the lowest-numbered configured set (08 R212). -/
def Chip.mapSet (s : Chip) : Option Nat := (List.range 4).find? fun i => (s.set i).cfg.on

/-- A set serves: READY, DEGRADED or REBUILDING (09 Table 9-7). -/
def Chip.setUp (s : Chip) (i : Nat) : Bool :=
  (s.set i).cfg.on && ((s.set i).st == .ready || (s.set i).st == .degraded || (s.set i).st == .rebuilding)

/-- Pages of a set are fetchable (08 R216). -/
def Chip.fetchable (s : Chip) (i : Nat) : Bool :=
  s.setUp i && s.pgm.root && s.pgm.l2 && (match s.mapSet with
    | some m => s.setUp m
    | none => false)

/-- Key of a map node (08 Table 8-7): level 0 leaf, 1 L1, 2 L2, as the node list of 09 Table 9-4 numbers them. -/
def nodeKey (level idx : Nat) : Nat := level * 2 ^ 30 + idx

/-- A map node is loaded, or the entry that would name it is 0. -/
def Chip.nodeKnown (s : Chip) (loaded : List Nat) (key idx : Nat) : Bool := (Tab.find s.str.mapNodes key).isNone || loaded.contains idx

/-- An L2 node is in the map area: loaded, or the root says that there is none (08 R212, R213). -/
def Chip.l2There (s : Chip) (idx : Nat) : Bool := s.pgm.root && s.nodeKnown s.pgm.l2s (nodeKey 2 idx) idx

/-- An L1 node is in the map area. -/
def Chip.l1There (s : Chip) (idx : Nat) : Bool := s.l2There (idx / 512) && s.nodeKnown s.pgm.l1s (nodeKey 1 idx) idx

/-- A map node is in the map area: it is loaded, or the entry above it is known and says that there is none (08 R213, R215). -/
def Chip.nodeThere (s : Chip) (level idx : Nat) : Bool :=
  if level == 2 then s.l2There idx else if level == 1 then s.l1There idx
  else s.l1There (idx / 512) && s.nodeKnown s.pgm.lnodes (nodeKey 0 idx) idx

/-- Every map node of a page is loaded (08 R215). -/
def Chip.mapped (s : Chip) (p : Nat) : Bool := s.nodeThere 0 (p / 512)

/-- The leaf entry of a page. -/
def Chip.leaf (s : Chip) (p : Nat) : Leaf := Tab.get s.pgm.leaves Leaf.zero p

/-- Positions that hold data columns of slot `i`, in column order (09 R233). -/
def SetCfg.dataPos (g : SetCfg) (slot : Nat) (l : List Nat) : List Nat :=
  let n := Nat.max 1 l.length
  let r := slot % n
  if g.layout == 0 then l.take (l.length / 2)
  else if g.layout == 1 then l.take (l.length / 3)
  else
    let p := l.getD (n - 1 - r) 0
    let q := l.getD ((n - 2 + n - r) % n) 0
    l.filter fun x => x != p && (g.layout == 2 || x != q)

/-- Data columns of a stripe over `n` positions (09 R233, Table 9-2). -/
def SetCfg.colsOf (g : SetCfg) (n : Nat) : Nat :=
  if g.layout == 0 then n / 2 else if g.layout == 1 then n / 3 else if g.layout == 2 then n - 1 else n - 2

/-- Data columns of a full stripe (09 Table 9-2). -/
def SetCfg.cols (g : SetCfg) : Nat := if g.layout == 0 then g.n / 2 else if g.layout == 1 then g.n / 3 else if g.layout == 2 then g.n - 1 else g.n - 2

/-- Missing positions a layout tolerates, T (09 Table 9-2). -/
def SetCfg.tolerance (g : SetCfg) : Nat := if g.layout == 0 || g.layout == 2 then 1 else 2

/-- Positions of a set that are present: held by a ready drive. -/
def StripeSet.presentPos (t : StripeSet) : List Nat :=
  (List.range t.cfg.n).filter fun i => match t.pos[i]? with
    | some p => p.ready && !p.lost && p.drive.isSome
    | none => false

/-- The present list that the stripe in a slot was written with (09 R233, R238). -/
def StripeSet.presentAt (t : StripeSet) (slot : Nat) : List Nat := (Tab.find t.parts slot).getD (List.range t.cfg.n)

/-- A position of a set is missing or rebuilding (04 R110). -/
def StripeSet.reduced (t : StripeSet) : Bool := t.presentPos.length < t.cfg.n || t.rbState == 1

/-- A position can be read at a slot: present, or the target of a rebuild that has passed the slot (09 R252). -/
def StripeSet.readable (t : StripeSet) (slot p : Nat) : Bool :=
  t.presentPos.contains p || (t.rbState == 1 && t.rbPos == p && slot < t.rbSlot)

/-- The position of a stripe's data column, and its further copies in a mirror layout (09 R233). -/
def StripeSet.copies (t : StripeSet) (slot col : Nat) : List Nat :=
  let l := t.presentAt slot
  if t.cfg.layout == 0 || t.cfg.layout == 1 then
    (List.range (t.cfg.layout + 2)).map fun k => l.getD (col + k * t.cfg.colsOf l.length) 0
  else [(t.cfg.dataPos slot l).getD col 0]

/-- A column has no copy that can be read: a fetch of it needs reconstruction (08 Table 8-9). -/
def StripeSet.gone (t : StripeSet) (slot col : Nat) : Bool :=
  if t.cfg.layout == 0 || t.cfg.layout == 1 then !((t.copies slot col).head?.any fun p => t.readable slot p)
  else !(t.copies slot col).any (t.readable slot)

/-- The positions that a column is reconstructed from (09 R249): the next copy of a mirror layout, else D other positions. -/
def StripeSet.others (t : StripeSet) (slot col : Nat) : List Nat :=
  let l := t.presentAt slot
  if t.cfg.layout == 0 || t.cfg.layout == 1 then (((t.copies slot col).drop 1).filter (t.readable slot)).take 1
  else ((l.filter fun p => !(t.copies slot col).contains p && t.readable slot p)).take (t.cfg.colsOf l.length)

/-- The positions that a fetch of a column reads (09 R249): its own, the first copy that is available, or the rest of the
stripe. -/
def StripeSet.sources (t : StripeSet) (slot col : Nat) : List Nat :=
  match (t.copies slot col).find? (t.readable slot) with
  | some p => [p]
  | none => t.others slot col

/-- The first LBA of a slot (09 R234): its header block, then its chunk. -/
def slotLba (slot : Nat) : Nat := 32768 + 17 * slot

/-- A command to the drive that holds a position of a set. -/
def Chip.posCmd (s : Chip) (i p cls : Nat) (cmd : NvmeCmd) (use : CmdUse := .none) : Chip := match ((s.set i).pos[p]?).bind (·.drive) with
  | some d => s.nvme d cls cmd use
  | none => s

/-- A slot of a segment in use: not FREE, nor PENDING_FREE (09 R244, R249). -/
def StripeSet.slotUsed (t : StripeSet) (slot : Nat) : Bool := match Tab.find t.segs (slot / 256) with
  | some e => e.st != .pendingFree
  | none => false

/-- A write into an existing slot under its repair lock (09 R249): it goes out once the writes before it on that slot have
ended, and is abandoned where the segment is no longer in use. -/
def Chip.lockWrite (s : Chip) (i slot p cls : Nat) (cmd : NvmeCmd) (use : CmdUse) : Chip :=
  match ((s.set i).pos[p]?).bind (·.drive) with
  | none => s
  | some d =>
    if !(s.set i).slotUsed slot || !s.driveUsable d then s
    else
      let held := s.str.locks.any fun e => e.1 == i && e.2.1 == slot
      let s1 := { s with str := { s.str with locks := s.str.locks ++ [(i, slot, d, { cls, cmd, use, again := false })] } }
      if held then s1 else s1.nvme d cls cmd use

/-- The oldest write under a slot's repair lock has ended: the next one of that slot goes out. -/
def Chip.unlock (s : Chip) (i slot : Nat) : Chip :=
  match s.str.locks.findIdx? fun e => e.1 == i && e.2.1 == slot with
  | none => s
  | some k =>
    let rest := s.str.locks.eraseIdx k
    let s1 := { s with str := { s.str with locks := rest } }
    match rest.find? fun e => e.1 == i && e.2.1 == slot with
    | some (_, _, d, c) => s1.nvme d c.cls c.cmd c.use
    | none => s1

/-- The writes under repair locks of a drive that is lost, or of a segment that is no longer in use, abandoned where they have
not been submitted; what waited behind them goes out. -/
def Chip.dropLocks (s : Chip) (hit : Nat × Nat × Nat × DriveCmd → Bool) : Chip :=
  let out (e : Nat × Nat × Nat × DriveCmd) : Bool := (s.drive e.2.2.1).cmds.any fun c => c.2.use == e.2.2.2.use
  let gone := s.str.locks.filter fun e => hit e && !out e
  let drives := s.str.drives.map fun (e : Nat × Drive) => (e.1, { e.2 with
    waitCmds := e.2.waitCmds.filter fun c => !(gone.any fun g => g.2.2.1 == e.1 && g.2.2.2.use == c.use) })
  let s1 := { s with str := { s.str with drives, locks := s.str.locks.filter fun e => !(hit e && !out e) } }
  let slots := (gone.map fun g => (g.1, g.2.1)).eraseDups
  slots.foldl (fun t x => match t.str.locks.find? fun e => e.1 == x.1 && e.2.1 == x.2 with
    | some (_, _, d, c) => if t.inFlight c.use then t else t.nvme d c.cls c.cmd c.use
    | none => t) s1

/-- The reads of a stripe's column, each of the 17 LBAs of its slot (09 R235, R249). -/
def Chip.readColumn (s : Chip) (i slot col cls : Nat) (use : CmdUse) : Chip :=
  ((s.set i).sources slot col).foldl (fun u p => u.posCmd i p cls (.read (slotLba slot) 17) use) s

/-- The drive reads of a page's fetch. -/
def Chip.readPage (s : Chip) (p cls : Nat) : Chip := s.readColumn (s.leaf p).set (s.leaf p).slot (s.leaf p).col cls (.fetch p)

/-! ### Frames and charges -/

/-- Frames in use, and PGM_FRAMES_FREE. -/
def Chip.framesFree (s : Chip) : Nat := s.pgm.total - (s.pgm.pages.filter fun e => e.2.frame.isSome).length

/-- A frame taken: one that was released, or the lowest never used. -/
def Chip.takeFrame (s : Chip) : Option (Nat × Chip) :=
  match s.pgm.freed with
  | f :: r => some (f, { s with pgm := { s.pgm with freed := r } })
  | [] =>
    if s.pgm.nextFrame < s.pgm.total then
      some (s.pgm.nextFrame, { s with pgm := { s.pgm with nextFrame := s.pgm.nextFrame + 1 } })
    else none

/-- A page charged 64 KiB (08 R206), with its dirty-since stamp. -/
def Chip.charge (s : Chip) (p : Nat) : Chip :=
  let g := s.page p
  if g.charged then s
  else (s.setPage p { g with charged := true, since := s.pgm.stamp }).levels

/-- A page has its frame. -/
def Page.resident (g : Page) : Bool := g.st != .free && g.st != .fetching

/-- A page has an atomic in progress: one that its bank has forwarded. The page does not change state (01 R21; log 156). -/
def Chip.atomicOn (s : Chip) (p : Nat) : Bool :=
  (s.page p).resident && s.lcc.banks.any fun e => e.2.atomic.any fun a => pageOfLine a.1 == p

/-- A write takes effect on a resident page (08 Table 8-3): its state, stamp, charge and journal-gap bit (11 R283). A CLEAN page with
an atomic in progress becomes DIRTY once that has completed (01 R21). -/
def Chip.writePage (s : Chip) (p : Nat) (journaled : Bool) : Chip :=
  let s0 := { s with pgm := { s.pgm with stamp := s.pgm.stamp + 1 } }
  let g := s0.page p
  let clean := g.st == .clean || g.st == .evicting
  let wait := clean && s.atomicOn p
  let g1 := { g with st := if clean && !wait then .dirty else g.st, due := g.due || wait,
                     redirty := g.redirty || g.st == .destaging, fresh := s0.pgm.stamp, gap := g.gap || !journaled }
  (s0.setPage p g1).charge p

/-- Pinned pages (08 R197): PGM_PIN_NOW. -/
def Chip.pinNow (s : Chip) : Nat :=
  (s.pgm.pages.filter fun e => s.classOf e.1 == 0 || e.2.pinned || e.2.st == .lostPartial).length

/-! ### Eviction -/

/-- Pages pinned in DRAM (08 R197). -/
def Chip.pinnedPage (s : Chip) (p : Nat) : Bool := s.classOf p == 0 || (s.page p).pinned

/-- A page sent to EVICTING; not while an atomic is in progress on it (01 R21). -/
def Chip.evictPage (s : Chip) (p : Nat) : Chip := if s.atomicOn p then s else s.setPage p { s.page p with st := .evicting }

/-- The clock over frames (08 R195): frames from the hand on, a set use bit cleared and passed, up to `n` pages chosen
(log 72). -/
def Chip.clock : Nat → Chip → List Nat → Nat → Chip
  | 0, s, _, _ => s
  | _, s, [], _ => s
  | _, s, _, 0 => s
  | f + 1, s, p :: r, n + 1 =>
    let g := s.page p
    let frame := g.frame.getD 0
    let s1 := { s with pgm := { s.pgm with hand := frame + 1 } }
    if g.use then Chip.clock f (s1.setPage p { g with use := false }) (r ++ [p]) (n + 1)
    else if g.st == .clean && s.classOf p == 1 && !g.pinned then Chip.clock f (s1.evictPage p) r n
    else Chip.clock f s1 (r ++ [p]) (n + 1)

/-- The evictor (08 R195): it runs below PGM_FREE_LOW and stops at twice that value. -/
def Chip.evict (s : Chip) : Chip :=
  let low := s.par 0x700014
  let free := s.framesFree
  let on := free < low || (s.pgm.evicting && free < 2 * low)
  let s0 := { s with pgm := { s.pgm with evicting := on } }
  if !on then s0
  else
    let going := (s.pgm.pages.filter fun e => e.2.st == .evicting).length
    let want := 2 * low - free - going
    let cold := ((s.pgm.pages.filter fun e => e.2.st == .clean && s.classOf e.1 == 2 && !e.2.pinned &&
      e.2.demand + s.par 0x700018 * 1000000 ≤ s.now).mergeSort fun a b => a.2.demand ≤ b.2.demand).map (·.1)
    let s1 := (cold.take want).foldl Chip.evictPage s0
    let framed := (s1.pgm.pages.filter fun e => e.2.frame.isSome).mergeSort fun a b => a.2.frame.getD 0 ≤ b.2.frame.getD 0
    let order := ((framed.filter fun e => s.pgm.hand ≤ e.2.frame.getD 0) ++ framed.filter fun e => e.2.frame.getD 0 < s.pgm.hand).map (·.1)
    Chip.clock (2 * order.length) s1 order (want - cold.length)

/-! ### Stalls -/

/-- A message begins to wait for a cause of 08 Table 8-9: counted once for each (R219). -/
def Chip.stall (s : Chip) (c first k : Nat) : Chip :=
  match s.msg c first with
  | none => s
  | some m => if m.stalls.contains k then s else (s.count (0x700100 + 4 * k)).modMsg c first fun m => { m with stalls := k :: m.stalls }

/-- Why a page's bytes are not there yet (08 R219): drives, map, a free frame, reconstruction or the fetch. -/
def Chip.stallFor (s : Chip) (c first p : Nat) : Chip :=
  let l := s.leaf p
  if !s.fetchable (s.setOf p) then s.stall c first 2
  else if !s.mapped p then s.stall c first 1
  else if (s.page p).frame.isNone && s.framesFree == 0 then s.stall c first 0
  else if l.kind != 0 && (s.set l.set).gone l.slot l.col then s.stall c first 3
  else s.stall c first 0

/-- Each waiting line operation counted under the cause it waits for now (08 R219). -/
def Chip.restall (s : Chip) : Chip := s.pgm.fetchWaits.foldl (fun t w => t.stallFor w.conn w.first (pageOfLine w.line)) s

/-! ### Fetches -/

/-- The class a queued fetch is served in: merge fetches as demand while the delta store is 3/4 full (08 Table 8-4). -/
def Chip.serveClass (s : Chip) (g : Page) : Nat := if s.ecl.step == 2 || s.ecl.step == 4 then 1 else s.cmdClass g.cls

/-- The read of a map node submitted once for all its waiters, in the highest of their classes (08 R198, R215; log 161). -/
def Chip.readNode (s : Chip) (level idx cls : Nat) : Chip :=
  let key := nodeKey level idx
  if s.pgm.mapReads.contains key then s.raiseCmds (.node key) cls
  else match s.mapSet, Tab.find s.str.mapNodes key with
    | some m, some (slot, col, _) =>
      ({ s with pgm := { s.pgm with mapReads := s.pgm.mapReads ++ [key] } }).readColumn m slot col cls (.node key)
    | _, _ => s

/-- The read of the map node that a page's path needs next: L1, then leaf (08 R215); in class 1 while Eclipse needs it (13 R335). -/
def Chip.mapFault (s : Chip) (p : Nat) : Chip :=
  let cls := if s.ecl.step == 2 || s.ecl.step == 4 then 1 else 3
  if !s.nodeThere 1 (p / 262144) then s.readNode 1 (p / 262144) cls else s.readNode 0 (p / 512) cls

/-- A queued fetch issued if its set is fetchable, its map nodes loaded and a frame free (08 R199, R215, R195). -/
def Chip.issueOne (s : Chip) (p : Nat) : Chip :=
  let g := s.page p
  if g.st != .fetching || g.issued.isSome then { s with pgm := { s.pgm with queue := s.pgm.queue.filter (· != p) } }
  else if !s.fetchable (s.setOf p) then s
  else if !s.mapped p then s.mapFault p
  else
    let zero := (s.leaf p).kind == 0
    let a := if zero then (none, s) else s.alloc .pgm 3 none none 272
    let fr := match g.frame with
      | some f => some (f, a.2)
      | none => a.2.takeFrame
    if !zero && a.1.isNone then s.count 0x50003C
    else match fr with
      | none => s.evict
      | some (f, s1) =>
        let s2 := s1.setPage p { g with frame := some f, issued := some s.now, chain := a.1 }
        let s3 := { s2 with pgm := { s2.pgm with queue := s2.pgm.queue.filter (· != p) } }
        (if zero then s3 else s3.readPage p (s.serveClass g)).evict

/-- Every queued fetch that can be issued, class by class in queue order (08 R198). -/
def Chip.issueFetches (s : Chip) : Chip :=
  ((rangeFrom 1 7).foldl (fun t c =>
    (t.pgm.queue.filter fun p => t.serveClass (t.page p) == c).foldl Chip.issueOne t) s).restall

/-- A fetch of a page queued, or raised to a higher class: in its queue, or with those of its drive reads that have not been
submitted (08 R198). -/
def Chip.queueFetch (s : Chip) (p cls : Nat) : Chip :=
  let g := s.page p
  if g.st = .free then
    let g1 := { Page.blank with st := .fetching, cls, demand := s.now, use := true, charged := g.charged }
    ({ (s.setPage p g1) with pgm := { (s.setPage p g1).pgm with queue := s.pgm.queue ++ [p] } }).issueFetches
  else if g.st = .fetching && cls < g.cls then
    let s1 := s.setPage p { g with cls }
    if g.issued.isSome then s1.raiseCmds (.fetch p) cls
    else ({ s1 with pgm := { s1.pgm with queue := s1.pgm.queue.filter (· != p) ++ [p] } }).issueFetches
  else s

/-- Pages that waiting FLUSHes need sealed, in the order of their FLUSHes (02 R43, 08 R210; log 69). -/
def Chip.flashPages (s : Chip) : List Nat :=
  let fs := (s.xpt.conns.flatMap fun e => e.2.flushes.map fun f => (f, e.2.covered)).mergeSort fun a b => a.1.turn ≤ b.1.turn
  (fs.flatMap fun x => x.2.flatMap fun v =>
    let flash := x.1.level == 3 || (x.1.level == 2 && !(v.pair && !s.r47))
    if flash && notAfter v.psn x.1.psn && !s.coveredSealed v then v.pages else []).eraseDups

/-- A page's drives are not ready: what would change it waits, so that Eclipse could drain it (08 Table 8-8). -/
def Chip.unready (s : Chip) (p : Nat) : Bool := !s.fetchable (s.setOf p) && (s.set (s.setOf p)).st != .failed

/-- A FLUSH waits for a page of a set that is not ready to be sealed (08 R216). -/
def Chip.flushUnready (s : Chip) (k : Conn) (f : FlushWait) : Bool :=
  k.covered.any fun v => notAfter v.psn f.psn && (f.level == 3 || (f.level == 2 && !(v.pair && !s.r47))) && !s.coveredSealed v &&
    v.pages.any fun p => (s.page p).charged && s.unready p

/-- FLUSHes of a connection that begin to wait for such a set counted, each once (08 R219). -/
def Chip.stallFlushes (s : Chip) (c : Nat) : Chip := match s.conn c with
  | none => s
  | some k =>
    let begin (f : FlushWait) : Bool := !f.stalled && s.flushUnready k f
    let n := (k.flushes.filter begin).length
    if n == 0 then s
    else (s.count 0x700108 n).setConn c { k with flushes := k.flushes.map fun f => { f with stalled := f.stalled || begin f } }

/-- What waiting FLUSHes ask of the page manager: their waits counted (08 R219), and the merge fetches of pages that a FLASH-level one
covers raised to the demand class (02 R43, 08 Table 8-4). -/
def Chip.raiseFlash (s : Chip) : Chip :=
  let s1 := s.connIds.foldl Chip.stallFlushes s
  (s1.flashPages.filter fun p => (s1.page p).st == .fetching && (s1.page p).cls == 5).foldl (fun t p => t.queueFetch p 4) s1

/-- A demand for a page (08 R193, R194): its use bit, the end of an eviction, or a fetch. -/
def Chip.demand (s : Chip) (p cls : Nat) : Chip :=
  let g := s.page p
  let s1 := match g.st with
    | .free => s.queueFetch p cls
    | .fetching => s.queueFetch p cls
    | .evicting => (s.setPage p { g with st := .clean, demand := s.now, use := true }).evict
    | _ => s
  s1.setPage p { s1.page p with demand := s.now, use := true }

/-- The estimate of a set's fetches in 1/64 µs (04 R110): m + 4v, doubled while a rebuild is in progress or a member is
missing. -/
def Chip.fetchEst64 (s : Chip) (i : Nat) : Nat :=
  let t := s.set i
  let e := (t.m + 4 * t.v).toNat
  if t.reduced then 2 * e else e

/-- PGM_FETCH_EST: the estimate rounded up to whole µs (04 R110). -/
def Chip.fetchEst (s : Chip) (i : Nat) : Nat := ceilDiv (s.fetchEst64 i) 64

/-! ### Translation caches (08 R191) -/

/-- The residency word of a page: state code and frame number. -/
def Page.word (g : Page) : Nat := g.st.code * 2 ^ 29 + (g.frame.getD 0) % 2 ^ 27

/-- A silicon region's translation cache is asked for a page: on a miss its residency word is loaded from the map area, in
place of another once 65,536 are held. A cached word is the page's current one at every step, so only its page is kept. The load is a
request of class 3 to the channel of its line (10 Table 10-3). -/
def Chip.translate (s : Chip) (r p : Nat) : Chip :=
  if s.pgm.tcache.contains (r, p) then s
  else
    let mine := s.pgm.tcache.filter (·.1 == r)
    let d := s.draw
    let kept := if mine.length < 65536 then s.pgm.tcache
      else s.pgm.tcache.filter (some · != mine[Config.tcacheVictim d.1 % 65536]?)
    let t := if mine.length < 65536 then s else d.2
    ({ t with pgm := { t.pgm with tcache := kept ++ [(r, p)] } }).areaAccess 0 (p / 512 * 6144 + 4096 + p % 512 * 4) 4 3 .pgm false

/-! ### Delta lines -/

/-- Delta lines the store holds (08 Table 8-1, R201). -/
def Chip.deltaCap (s : Chip) : Nat := s.pgm.store

/-- A write absorbed in its line's delta (08 R201); none when it needs a new delta line and the store is full (R203). -/
def Chip.absorb (s : Chip) (line : Nat) (data : List Byte) (mask : Nat) : Option Chip :=
  let put (d : Delta) (t : Chip) : Chip :=
    { t with pgm := { t.pgm with deltas := Tab.ins t.pgm.deltas line d, stamp := t.pgm.stamp + 1 } }
  match Tab.find s.pgm.deltas line with
  | some d => some (put { mask := d.mask ||| BitVec.ofNat 64 mask, data := overlay d.data data mask } s)
  | none =>
    if s.deltaUsed < s.deltaCap || s.pgm.replayed.contains (pageOfLine line) then some (put { mask := BitVec.ofNat 64 mask, data } s) else none

/-- Delta lines of a page. -/
def Chip.deltasOf (s : Chip) (p : Nat) : Tab Delta := s.pgm.deltas.filter fun e => pageOfLine e.1 == p

/-- The bytes of a line in its frame. -/
def Chip.frameLine (s : Chip) (line : Nat) : List Byte := Memory.readN 0 s.pgm.frames (line * 64) 64

/-- Bytes laid over a line in its frame. -/
def Chip.writeLine (s : Chip) (line : Nat) (data : List Byte) (mask : Nat) : Chip :=
  let new := overlay (s.frameLine line) data mask
  { s with pgm := { s.pgm with frames := Memory.writeN 0 s.pgm.frames (line * 64) new } }

end Sys2Proof.Machine
end

