-- ==== Sys2Proof/Machine/Host.lean ====
section
/-!
DEFINITION. Packets that arrive on a host port: the checks of 03 Table 3-19 up to order 9, placement (04 R91 to R95),
duplicates (04 R98 to R101), and the host's control packets (03 R66, R75, R78).
-/
namespace Sys2Proof.Machine

/-! ### The port and XPT -/

/-- Discard causes that a port counts (03 R56, log 24). -/
def Chip.discard (s : Chip) (port cause : Nat) : Chip :=
  { s with hpx := { s.hpx with discards := Tab.set s.hpx.discards 0 (16 * port + cause) (Tab.get s.hpx.discards 0 (16 * port + cause) + 1) } }

/-- Packets reach XPT: the host ports run, the port is up and the unit holds the addresses (03, Host ports). -/
def Chip.hostTakes (s : Chip) (port : Nat) : Bool := s.hostOn && s.portUp port && s.hpx.service

/-- DISCONNECT UNKNOWN_CONNECTION to a packet's source, at most once per millisecond (03 R80), with the packet's connection ID
and class, on the port it arrived on (log 175). -/
def Chip.unknownConn (s : Chip) (p : Packet) : Chip :=
  let recent := s.xpt.unknown.filter fun e => s.now < e.2 + 1000000
  if recent.any (·.1 == p.src) then s
  else
    let q := { DevPkt.make p.conn.toNat 0x12 0 0 0 0 [6, 0, 0, 0] with cls := p.cls }
    ({ s with xpt := { s.xpt with unknown := (p.src, s.now) :: recent } }).sendPacket p.port p.src p.sport q

/-- What XPT keeps of every packet of a connection: its port and its hint (03 R82). -/
def Conn.heard (k : Conn) (p : Packet) (now : Nat) : Conn :=
  { k with hint := p.hint, ports := (p.port, now) :: k.ports.filter (·.1 != p.port) }

/-- NOTIFY RESUMED or TAKEOVER as the first packet of a connection established in the notice period (03 R88). -/
def Chip.welcome (s : Chip) (c : Nat) : Chip :=
  if !s.noticed then s
  else if s.glb.tookOver then s.notify c 2 (b2n s.glb.sealFound) 0 s.glb.activeSeq
  else s.notify c 1 (b2n (s.glb.detail == 0)) s.glb.detail s.glb.activeSeq

/-- The first other packet on an OPENING connection establishes it (03 Table 3-15). -/
def Chip.establish (s : Chip) (c : Nat) : Chip :=
  match s.conn c with
  | some k => if k.st == .opening then (s.setConn c { k with st := .established }).welcome c else s
  | none => s

/-- A packet-scope NAK (03 R83): its offset is the message's start, or the packet's own. -/
def Chip.nakPacket (s : Chip) (c code op : Nat) (p : Packet) (hint : Nat) : Chip :=
  let off := if op == 0x01 && 0 ≤ p.start then p.start.toNat else p.offset
  s.nak c code 0 p.psn.toNat p.msgId p.key.toNat off hint

/-- A MALFORMED packet (03 R60, Table 3-16): NAK, and the limit of Table 3-14. -/
def Chip.malformed (s : Chip) (c op : Nat) (p : Packet) : Chip :=
  let s1 := (s.nakPacket c 0x0C op p 0).modConn c fun k => { k with malformed := k.malformed + 1 }
  match s1.conn c with
  | some k => if 16 ≤ k.malformed then s1.endConn c 4 else s1
  | none => s1

/-- Orders 3 to 5 of Table 3-19 that every packet of a connection meets; what remains is `rest`. In ECLIPSE every packet gets
NAK NOT_ACTIVE (03, Eclipse begins while a message is half received) (log 49). -/
def Chip.receive (s : Chip) (op : Nat) (p : Packet) (rest : Nat → Chip → Chip) : Chip :=
  if !s.hostTakes p.port then s.discard p.port 0
  else
    let c := p.connId
    match s.conn c with
    | none => s.unknownConn p
    | some k =>
      if k.host != p.src then (s.discard p.port 5).unknownConn p
      else if k.st == .aborting then s.discard p.port 5
      else
        let s1 := ((s.hearFrom p.port p.src).setConn c (k.heard p s.now)).establish c
        if s1.glb.state == .eclipse then s1.nakPacket c 0x0A op p 0
        else if p.badHeader k.mgmt op then s1.malformed c op p
        else rest c s1

/-! ### Placement -/

/-- Comets that may take work: enabled and not fenced, nor in a fenced block or region. -/
def Chip.cometOk (s : Chip) (n : Nat) : Bool :=
  n < s.comets && !s.cmt.fenced.contains n && !bit s.cmt.fencedBlocks (n / 16) && !bit s.cmt.fencedRegions (n / 64)

/-- Stall marks of the model: a message that holds a context at its start stage, and one whose ring wait is counted. -/
def atStart : Nat := 10
/-- See `atStart`. -/
def ringWait : Nat := 11

/-- Descriptors in a comet's local queue (06 R138): messages neither in a context nor parked in scratch. -/
def Chip.queueLen (s : Chip) (n : Nat) : Nat :=
  s.xpt.conns.foldl (fun q e => q + (e.2.msgs.filter fun m => m.comet == n && !m.started && !m.parked && !m.stalls.contains atStart && m.op != 0x12 && m.op != 0x20).length) 0

/-- The comet with most free descriptors among some, the lowest of equals, if any has one. -/
def Chip.roomiest (s : Chip) (l : List Nat) : Option Nat :=
  let best := minOf 512 (l.map s.queueLen)
  if best < 512 then l.find? fun n => s.queueLen n == best else none

/-- The comet a new message goes to (06 R140). -/
def Chip.assign (s : Chip) (home : Nat) : Option Nat :=
  if s.cometOk home && s.queueLen home < 512 then some home
  else
    let ok := (List.range s.comets).filter s.cometOk
    match s.roomiest (ok.filter fun n => n / 16 == home / 16) with
    | some n => some n
    | none => match s.roomiest (ok.filter fun n => n / 64 == home / 64) with
      | some n => some n
      | none => s.roomiest ok

/-- Cells of each response packet of a message (06 R159). -/
def Msg.needs (m : Msg) : List Nat :=
  if m.op == 0x02 then
    (List.range (ceilDiv m.len m.resp)).map fun i => ceilDiv (Nat.min m.resp (m.len - i * m.resp)) 256
  else if m.atomic then [1] else []

/-- The response cells of a message reserved all at once, or none of them (06 R158, R159). -/
def Chip.reserve (s : Chip) (group : Nat) (m : Msg) : Option (List Handle × Chip) :=
  if m.needCells.isEmpty then some (m.egress, s)
  else if s.allocFits 1 (some group) none m.needCells.sum then
    some (m.needCells.foldl (fun (acc : List Handle × Chip) n =>
      let a := acc.2.alloc .xpt 1 (some group) none n
      (acc.1 ++ a.1.toList, a.2)) ([], s))
  else none

/-- A new message-table entry (04 R91). -/
def Chip.newMsg (s : Chip) (op : Nat) (p : Packet) (comet : Nat) : Msg :=
  { op, id := p.msgId, first := p.firstPsn, count := p.count, bitmap := 0, parts := [],
    start := if op == 0x01 then p.start.toNat else p.offset, len := p.msgLen op, flags := p.flags.toNat,
    opField := p.opField.toNat, key := p.key.toNat, resp := s.respFor p.respSize, hint := p.hint, arrived := s.now,
    checked := false, region := 0, old := false, base := 0, pair := false, mirror := false, comet, charge := comet,
    chains := [], egress := [], needCells := [], st := .partialMsg, guarded := false, waited := false, ready := none,
    urgent := false, started := false, parked := false, stalls := [], done := 0, busy := 0, got := [], held := 0,
    holds := 0, posted := 0, bad := none, lost := 0, pos := 0, owed := 0, dup := none, prior := [], stored := false,
    probed := false, ddl := none, pairWaits := 0 }

/-- The cause of a refusal counted and, the first time in its interval, recorded (05 R137). -/
def Chip.checkFailed (s : Chip) (c cause key offset : Nat) : Chip :=
  let s1 := s.count (0x300110 + 4 * cause)
  match s1.conn c with
  | some k =>
    if bit k.causes cause then s1
    else (s1.setConn c { k with causes := setBit k.causes cause true }).raise 0x03 0xFFFF 2 1 0
      (le 4 c ++ le 4 key ++ le 8 offset ++ [BitVec.ofNat 8 cause])
  | none => s1

/-- The right an opcode needs in a region's rights (05 R122, Table 5-1). -/
def Region.allows (e : Region) (group op : Nat) : Bool :=
  bit e.rights.toNat (3 * group + (if op == 0x02 then 0 else if op == 0x01 then 1 else 2))

/-- The key checks of R121: the NAK code and cause of the first that fails. -/
def Chip.checkKey (s : Chip) (group op key start len : Nat) : Option (Nat × Nat) :=
  let e := s.region (key / 65536)
  if !e.live then some (0x01, 0)
  else if key % 65536 == 0 || key % 65536 != e.gen then some (0x01, 1)
  else if e.len * 65536 < start + len then some (0x02, 2)
  else if !e.allows group op then some (0x03, 3)
  else none

/-- The comet's check stage (06 Table 6-1): key checks, then alignment; a pass fixes policy and, the first time, range. -/
def Chip.checkStage (s : Chip) (c : Nat) (m : Msg) : Chip :=
  match s.conn c with
  | none => s
  | some k =>
    match s.checkKey k.group m.op m.key m.start m.len with
    | some (code, cause) => (s.checkFailed c cause m.key m.start).refuse c m code m.start 0
    | none =>
      if m.atomic && m.start % 8 != 0 then s.refuse c m 0x0D m.start 0
      else
        let e := s.region (m.key / 65536)
        s.modMsg c m.first fun m => { m with
          checked := true, region := m.key / 65536, pair := e.pair, mirror := e.mirror, ddl := if e.ddlEn then some e.ddl else none,
          base := if m.checked then m.base else e.base * 65536 + m.start }

/-- A message with every packet placed becomes COMPLETE; a READ_REQ or atomic is accepted then (02 Table 2-1). -/
def Chip.completeMsg (s : Chip) (c first : Nat) : Chip :=
  match s.msg c first with
  | none => s
  | some m =>
    if m.bitmap == 2 ^ m.count - 1 && m.st == .partialMsg then
      let s1 := s.modMsg c first fun m => { m with st := .complete }
      let s2 := if m.op == 0x02 || m.atomic then s1.settle c first m.count else s1
      s2.guard c
    else s.guard c

/-- The retry hint and window halving of NO_BUFFER (06 Table 6-3, 03 R72). -/
def Chip.noBuffer (s : Chip) (c op : Nat) (p : Packet) : Chip :=
  let s1 := (s.count 0x500030).nakPacket c 0x04 op p (hintCode (s.par 0x500014))
  (s1.modConn c fun k => { k with wp := Nat.max 4 (s.winPkts k / 2), noBuffer := true }).shrink c

/-- A packet placed in its message (04 R92), whose cells it brings. -/
def Chip.placeIn (s : Chip) (c first : Nat) (p : Packet) (h : Option Handle) : Chip :=
  let s1 := s.modMsg c first fun m =>
    { m with bitmap := setBit m.bitmap p.index true, parts := Tab.ins m.parts p.index p.payload, 
             chains := match h with
               | some x => Tab.ins m.chains p.index x
               | none => m.chains }
  s1.modConn c fun k => { k with placed := Tab.ins k.placed p.psn.toNat p.payload.length }

/-- Ingress cells of a packet (06 R156): none for 16 bytes or fewer. -/
def ingressCells (p : Packet) : Nat := if p.payload.length ≤ 16 then 0 else ceilDiv p.payload.length 256

/-- An accepted packet of a DATA message: comet, cells, placement, checks. -/
def Chip.placeData (s : Chip) (c op : Nat) (p : Packet) : Chip :=
  match s.conn c with
  | none => s
  | some k =>
    let old := k.msg p.firstPsn
    match (match old with
      | some m => some m.comet
      | none => s.assign k.home) with
    | none => s.count (0x400000 + 0x400 * k.home)
    | some comet =>
      let charge := match old with
        | some m => m.charge
        | none => comet
      let need := ingressCells p
      let a := if need == 0 then (none, s) else s.alloc (.comet charge) 0 (some k.group) (some charge) need
      if need != 0 && a.1.isNone then s.noBuffer c op p
      else
        let m := s.newMsg op p comet
        let s1 := if old.isSome then a.2 else a.2.modConn c fun k => { k with msgs := k.msgs ++ [{ m with needCells := m.needs }] }
        let s2 := s1.placeIn c p.firstPsn p a.1
        let s3 := if old.isNone && !m.needs.isEmpty then
            match s2.reserve k.group { m with needCells := m.needs } with
            | some (hs, t) => t.modMsg c p.firstPsn fun m => { m with egress := hs, needCells := [] }
            | none =>
              let t := s2.count 0x500034
              { t with bpm := { t.bpm with waiting := t.bpm.waiting ++ [(c, p.firstPsn)] } }
          else s2
        match s3.msg c p.firstPsn with
        | some m => (s3.checkStage c m).completeMsg c p.firstPsn
        | none => s3

/-- An accepted FLUSH (04 R105): a comet admits it when it is placed; with every queue full it is discarded (06 R140). -/
def Chip.placeFlush (s : Chip) (c : Nat) (p : Packet) : Chip :=
  match s.conn c with
  | none => s
  | some k =>
    match s.assign k.home with
    | none => s.count (0x400000 + 0x400 * k.home)
    | some comet =>
      let d := s.draw
      let f : FlushWait := { psn := p.psn.toNat, comet, count := 1, bitmap := 1, level := p.opField.toNat % 4, msgId := p.msgId,
                             key := p.key.toNat, offset := p.offset, turn := d.1, stalled := false }
      ((((d.2.modConn c fun k => { k with flushes := k.flushes ++ [f], placed := Tab.ins k.placed p.psn.toNat 0 }).settle c p.psn.toNat 1).guard c).flushCheck c).raiseFlash

/-- An accepted DISCONNECT or MGMT_REQ: a message of one packet that no comet takes (06 R145). -/
def Chip.placeOther (s : Chip) (c op : Nat) (p : Packet) : Chip :=
  match s.conn c with
  | none => s
  | some k =>
    let need := ingressCells p
    let a := if need == 0 then (none, s) else s.alloc .xpt 0 (some k.group) none need
    if need != 0 && a.1.isNone then s.noBuffer c op p
    else
      let m := { s.newMsg op p 0 with checked := true, st := .complete, len := 0 }
      let s1 := (a.2.modConn c fun k => { k with msgs := k.msgs ++ [m] }).placeIn c p.firstPsn p a.1
      (s1.guard c).closeIfDone c

/-! ### Duplicates (04 Table 4-2) -/

/-- A READ_REQ executed again: a new read under the duplicate's PSN, with no guard entry. -/
def Chip.rereadEffect (s : Chip) (c : Nat) (p : Packet) : Chip :=
  match s.conn c with
  | none => s
  | some k =>
    match s.assign k.home with
    | none => s.count (0x400000 + 0x400 * k.home)
    | some comet =>
      let m := s.newMsg 0x02 p comet
      let m := { m with needCells := m.needs, bitmap := 1, parts := [(0, p.payload)], st := .complete, dup := some p.psn.toNat }
      let s1 := s.modConn c fun k => { k with msgs := k.msgs ++ [m] }
      let s2 := match s1.reserve k.group m with
        | some (hs, t) => t.modMsg c m.first fun m => { m with egress := hs, needCells := [] }
        | none =>
          let t := s1.count 0x500034
          { t with bpm := { t.bpm with waiting := t.bpm.waiting ++ [(c, m.first)] } }
      match s2.msg c m.first with
      | some m => (s2.checkStage c m).modMsg c m.first fun m => { m with ready := some s.now }
      | none => s2

/-- A duplicate packet answered by its opcode and the state of its original (04 R98, R99; log 148). -/
def Chip.duplicate (s : Chip) (c op : Nat) (p : Packet) : Chip :=
  let psn := p.psn.toNat
  let s0 := { s with xpt := { s.xpt with dups := s.xpt.dups + 1 } }
  let s1 := match s0.conn c with
    | none => s0
    | some k =>
      match k.refused.find? fun (r : RefusedMsg) => notAfter r.first psn && notAfter psn r.last with
      | some r => s0.nakAgain c r
      | none =>
        if op == 0x02 then
          if (k.msg psn).isSome || (k.held ++ k.wait).any (fun d => d.op == 0x03 && d.opField == psn) then s0
          else s0.rereadEffect c p
        else if op == 0x04 || op == 0x05 then
          if (k.msg psn).isSome then s0
          else match k.atomics.find? fun (a : AtomicResult) => a.psn == psn with
            | some a => s0.queueTx c { DevPkt.make c 0x06 a.msgId a.key a.offset psn a.prior with chain := none }
            | none => s0.nakPacket c 0x06 op p 0
        else s0
  s1.sendAck c

/-! ### The path of a packet with its own PSN -/

/-- Classification of R69: 0 accept, 1 duplicate, 2 SEQ_ERROR, 3 WINDOW_EXCEEDED. -/
def Conn.classify (k : Conn) (now psn len : Nat) : Nat :=
  let d := psnSub psn (psnAdd k.cum 1)
  let adv := liveAdv now k.adv
  let held := k.placed.foldl (fun n e => n + e.2) 0
  if 2 ^ 31 ≤ d then 1
  else if 256 ≤ d then 2
  else if maxOf (adv.map (·.2.1)) ≤ d then 3
  else if maxOf (adv.map (·.2.2)) < held + len then 3
  else if (Tab.find k.placed psn).isSome || k.settled.contains psn then 1
  else 0

/-- Length of the last packet of a WRITE, where it is placed. -/
def Msg.lastLen (m : Msg) : Option Nat := (Tab.find m.parts (m.count - 1)).map (·.length)

/-- Stride of a WRITE, where a packet other than its last is placed. -/
def Msg.strideNow (m : Msg) : Option Nat := (m.parts.find? fun e => e.1 + 1 != m.count).map (·.2.length)

/-- A packet of a multi-packet WRITE disagrees with those placed: another stride, or an `M` that is not the stride times
(count - 1) plus the last length (03 R62; log 173). -/
def Msg.offStride (m : Msg) (p : Packet) : Bool :=
  let last := p.index + 1 == p.count
  let s := if last then m.strideNow else some p.payload.length
  let l := if last then some p.payload.length else m.lastLen
  (!last && (match m.strideNow with
    | some x => x != p.payload.length
    | none => false)) ||
  (match s, l with
    | some s, some l => s < l || m.len != s * (m.count - 1) + l
    | _, _ => false)

/-- R61, R62 and message ID reuse against the message table (03 R60, log 25). A FLUSH's message ID is not checked (04 R105),
and a PSN that has been settled is a duplicate (log 147). -/
def Conn.breaks (k : Conn) (op : Nat) (p : Packet) : Bool :=
  let first := p.firstPsn
  let vary (f : Nat) : Nat := f / 16 % 8 * 16 + b2n (bit f 2) * 4
  match k.msg first with
  | some m =>
    m.op != op || m.id != p.msgId || m.count != p.count || m.key != p.key.toNat ||
    vary (setBit m.flags 6 false) != vary (setBit p.flags.toNat 6 false) ||
    (op == 0x01 && (m.len != p.total || (m.start : Int) != p.start)) ||
    (op == 0x01 && 1 < m.count && m.offStride p)
  | none =>
    !(psnSub p.psn.toNat (psnAdd k.cum 1) ≥ 2 ^ 31) && !k.settled.contains p.psn.toNat &&
    (k.msgs.any fun m => (op != 0x07 && m.st == .partialMsg && m.id == p.msgId) ||
      (m.dup.isNone && notAfter m.first p.psn.toNat && notAfter p.psn.toNat m.last))

/-- An accepted packet with its own PSN placed (04 R92), and answered where it asks for an ACK (03 R70). -/
def Chip.takePacket (s : Chip) (c op : Nat) (p : Packet) : Chip :=
  let s1 := if op == 0x07 then s.placeFlush c p
    else if op == 0x12 || op == 0x20 then s.placeOther c op p
    else s.placeData c op p
  let there := match s1.conn c with
    | some k => (Tab.find k.placed p.psn.toNat).isSome || notAfter p.psn.toNat k.cum || k.settled.contains p.psn.toNat
    | none => false
  if flagAckReq p.flags.toNat && there then s1.sendAck c else s1

/-- A packet breaks R61, R62, R64 or the message table's rules (03 Table 3-19 order 5). -/
def Chip.misshapen (s : Chip) (k : Conn) (op : Nat) (p : Packet) : Bool :=
  (op == 0x01 && p.badStride) || (op == 0x02 && s.badRead p) || k.breaks op p

/-- A packet with its own PSN that passed orders 1 to 4. -/
def Chip.ownPacket (s : Chip) (c op : Nat) (p : Packet) : Chip :=
  match s.conn c with
  | none => s
  | some k =>
    if s.misshapen k op p then s.malformed c op p
    else
      match k.classify s.now p.psn.toNat p.payload.length with
      | 0 => s.takePacket c op p
      | 1 => s.duplicate c op p
      | 2 => s.nakPacket c 0x06 op p 0
      | _ => s.nakPacket c 0x05 op p 0

/-- A message packet from the host. -/
def Chip.messagePacket (op : Nat) (p : Packet) (s : Chip) : Chip := s.receive op p fun c t => t.ownPacket c op p

def execWrite (p : Packet) (s : State) : Host.Outcome State Fault Refusal := .next (s.on (Chip.messagePacket 0x01 p))
def execReadReq (p : Packet) (s : State) : Host.Outcome State Fault Refusal := .next (s.on (Chip.messagePacket 0x02 p))
def execAtomicAdd (p : Packet) (s : State) : Host.Outcome State Fault Refusal := .next (s.on (Chip.messagePacket 0x04 p))
def execAtomicCas (p : Packet) (s : State) : Host.Outcome State Fault Refusal := .next (s.on (Chip.messagePacket 0x05 p))
def execFlush (p : Packet) (s : State) : Host.Outcome State Fault Refusal := .next (s.on (Chip.messagePacket 0x07 p))
def execDisconnect (p : Packet) (s : State) : Host.Outcome State Fault Refusal := .next (s.on (Chip.messagePacket 0x12 p))

/-! ### Control packets -/

/-- A host's cumulative PSN and windows taken (03 R66, R71): packets it covers leave their cells. A window below the range of
Table 3-8 is raised to its lower bound, and a packet whose cumulative PSN is behind the last or beyond what was sent is
ignored whole (log 176). -/
def Chip.hostCovers (s : Chip) (c cum wp wb map : Nat) : Chip :=
  match s.conn c with
  | none => s
  | some k =>
    let ok := notAfter k.hostCum cum && notAfter cum k.tx
    let done := k.held.filter fun d => ok && notAfter d.psn cum
    let ev := (done.filter fun d => d.op == 0x14 && d.payload.take 1 == [6]).length
    let k1 := { k with
      hostCum := if ok then cum else k.hostCum, hostMap := if ok then map else k.hostMap,
      hostWp := if ok then Nat.max 1 (Nat.min 256 wp) else k.hostWp,
      hostWb := if ok then Nat.max 8192 (Nat.min 2097152 wb) else k.hostWb,
      expiries := if ok && cum != k.hostCum then 0 else k.expiries,
      held := k.held.filter fun d => !(ok && notAfter d.psn cum), notifies := k.notifies - ev }
    ((((s.setConn c k1).dropChains (done.filterMap (·.chain))).pumpOwed).pumpAll c).closeIfDone c

/-- An ACK or WINDOW from the host (03 Table 3-8). -/
def Chip.windowPacket (op : Nat) (p : Packet) (s : Chip) : Chip :=
  s.receive op p fun c t =>
    t.hostCovers c p.psn.toNat (fieldBe p.payload 0 2) (fieldBe p.payload 4 4) (fieldBe p.payload 8 8)

def execAck (p : Packet) (s : State) : Host.Outcome State Fault Refusal := .next (s.on (Chip.windowPacket 0x09 p))
def execWindow (p : Packet) (s : State) : Host.Outcome State Fault Refusal := .next (s.on (Chip.windowPacket 0x0B p))

/-- KEEPALIVE: heard, and nothing more (03 R75). -/
def Chip.keepalivePacket (p : Packet) (s : Chip) : Chip := s.receive 0x13 p fun _ t => t

def execKeepalive (p : Packet) (s : State) : Host.Outcome State Fault Refusal := .next (s.on (Chip.keepalivePacket p))

end Sys2Proof.Machine
end

