-- ==== Sys2Proof/Machine/Access.lean ====
section
/-!
DEFINITION. Who may command what over a management session (17 R413, R414): role tags, gated domains, and the flags of
GLB_ACCESS_STS that the I2C path raises.
-/
namespace Sys2Proof.Machine

/-- A flag of GLB_ACCESS_STS set, with its paired counter (17 Table 17-6). -/
def Chip.accessFlag (s : Chip) (i : Nat) : Chip :=
  ({ s with glb := { s.glb with access := setBit s.glb.access i true } }).count (0x20 + 4 * i)

/-- An access to a gated domain or an unmapped address: the I2C path flags it (17 R413). -/
def Chip.gatedAccess (s : Chip) (q : Session) : Chip := match q with
  | .i2c => s.accessFlag 2
  | .mgmt _ => s

/-- A write refused for its role: the I2C path flags it (17 R414). -/
def Chip.roleRefused (s : Chip) (q : Session) : Chip := match q with
  | .i2c => s.accessFlag 3
  | .mgmt _ => s

/-- A power domain's registers answer: the domain is powered (17 R413). -/
def Chip.domainOn (s : Chip) (d : Nat) : Bool := !bit s.pws.gated d

/-- A register command of a session: refused while the domain of its block is gated (17 R413), or when the session's
role is below the tag (R414). Roles: 1 operator, 2 installer, 3 maker. -/
def Chip.asRole (s : Chip) (q : Session) (domain need : Nat) (f : Chip → Chip) : Chip :=
  if !s.sesLive q then s
  else if !s.domainOn domain then s.gatedAccess q
  else if (s.ses q).role < need then s.roleRefused q
  else f s

end Sys2Proof.Machine
end

