-- ==== Sys2Proof/Machine/Line.lean ====
section
/-!
DEFINITION. Line operations at their bank (01 R20 to R22, 02 R32 to R47, 07 R167 to R174, 08 R201 to R203): what a read,
a write and an atomic do when the bank accepts them, and how their message takes effect and ends.
-/
namespace Sys2Proof.Machine

/-! ### Banks -/

/-- Exclusive-or of the 6-bit fields of a line number (07 R167). -/
def foldLine : Nat → Nat → Nat
  | 0, _ => 0
  | n + 1, a => Nat.xor (a % 64) (foldLine n (a / 64))

/-- The bank of a line (07 R167). -/
def Chip.bankOf (s : Chip) (a : Nat) : Nat :=
  let h := foldLine 7 a
  if s.glb.sl4804 then Nat.xor (h % 16) (h / 16) else h

/-- The set of a line in its bank (07 R167). -/
def Chip.cacheSet (s : Chip) (a : Nat) : Nat := (if s.glb.sl4804 then a / 16 else a / 64) % 3072

/-- The tag of a line (07 R167). -/
def Chip.cacheTag (s : Chip) (a : Nat) : Nat := (if s.glb.sl4804 then a / 16 else a / 64) / 3072

/-- The bank that serves a bank number: itself, or its counterpart in the next unfenced region (16 R405). -/
def Chip.server (s : Chip) (b : Nat) : Nat :=
  let r := b / 16
  match ((List.range 4).map fun i => (r + i) % 4).find? fun x => !bit s.cmt.fencedRegions x with
  | some x => 16 * x + b % 16
  | none => b

/-- The data arrays are in use for a bank number (07 R184, 16 R405). -/
def Chip.arrays (s : Chip) (b : Nat) : Bool := s.par 0x6E0000 % 2 == 1 && s.server b == b

/-- LOCK_WAYS (07 R175). -/
def Chip.lockWays (s : Chip) : Nat := bits (s.par 0x6E0000) 11 8

/-- A counter of a bank (17 Table 17-20). -/
def Chip.bankCount (s : Chip) (b off : Nat) (n : Nat := 1) : Chip := s.count (0x600000 + 0x800 * b + off) n

/-- The cached copy of a line: way and entry. -/
def Bank.find (k : Bank) (set tag : Nat) : Option (Nat × CacheLine) := (Tab.get k.lines [] set).find? (·.2.tag == tag)

/-- A way of a set written. -/
def Bank.putWay (k : Bank) (set way : Nat) (l : CacheLine) : Bank :=
  { k with lines := Tab.ins k.lines set (Tab.ins (Tab.get k.lines [] set) way l) }

/-- A way of a set invalidated. -/
def Bank.dropWay (k : Bank) (set way : Nat) : Bank :=
  { k with lines := Tab.set k.lines [] set (Tab.del (Tab.get k.lines [] set) way) }

/-- A way retired for its set (07 R186). -/
def Bank.retired (k : Bank) (set way : Nat) : Bool := 3 ≤ Tab.get k.errs 0 (16 * set + way)

/-- The tree bits after a use of a way: every node on its path points away from it (07 R173). -/
def plruTouch (bits way : Nat) : Nat :=
  (List.range 4).foldl (fun b i =>
    let node := 2 ^ i - 1 + way / 2 ^ (4 - i)
    setBit b node (!bit way (3 - i))) bits

/-- The way the tree names among the ways allowed, from a node that covers `2 ^ n` ways from `lo`. -/
def plruPick (bits : Nat) (ok : List Nat) : Nat → Nat → Nat → Nat
  | 0, lo, _ => lo
  | n + 1, lo, node =>
    let mid := lo + 2 ^ n
    let left := ok.any fun w => lo ≤ w && w < mid
    let right := ok.any fun w => mid ≤ w && w < mid + 2 ^ n
    if (bit bits node && right) || !left then plruPick bits ok n mid (2 * node + 2)
    else plruPick bits ok n lo (2 * node + 1)

/-- The victim way of a set (07 R173): an invalid unlocked way, else the one the tree names; none when every way is
locked or retired (log 45). -/
def Bank.victim (k : Bank) (set lock : Nat) : Option Nat :=
  let ok := (List.range 16).filter fun w => lock ≤ w && !k.retired set w
  let row := Tab.get k.lines [] set
  match ok.find? fun w => (Tab.find row w).isNone with
  | some w => some w
  | none => if ok.isEmpty then none else some (plruPick (Tab.get k.plru 0 set) ok 4 0 0)

/-! ### Locked lines -/

/-- The line that a bank, a set and a tag name (07 R167, inverted). -/
def Chip.lineAt (s : Chip) (b set tag : Nat) : Nat :=
  let q := tag * 3072 + set
  if s.glb.sl4804 then
    let f := Nat.xor (foldLine 7 (q / 4)) (q % 4 * 16)
    q * 16 + Nat.xor b (Nat.xor (f % 16) (f / 16))
  else q * 64 + Nat.xor b (foldLine 7 q)

/-- The lines a bank holds: set, way, entry. -/
def Bank.all (k : Bank) : List (Nat × Nat × CacheLine) := k.lines.flatMap fun e => e.2.map fun x => (e.1, x.1, x.2)

/-- Some bank holds a locked line of a page, or refills one (07 R177, R186). -/
def Chip.holdsLocked (s : Chip) (p : Nat) : Bool :=
  s.lcc.banks.any fun e =>
    (e.2.all.any fun x => x.2.2.locked && pageOfLine (s.lineAt e.1 x.1 x.2.2.tag) == p) ||
    (e.2.miss.any fun x => x.locked && x.install && pageOfLine x.line == p) ||
    e.2.queue.any fun w => w.relock.isSome && pageOfLine w.line == p

/-- A page's pin judged by its locked lines (07 R177); one that is no longer pinned may be evicted (08 R195). -/
def Chip.repin (s : Chip) (p : Nat) : Chip :=
  let g := s.page p
  if g.st = .free then s
  else
    let t := s.setPage p { g with pinned := s.holdsLocked p }
    if g.pinned && !s.holdsLocked p then t.evict else t

/-! ### Responses -/

/-- The READ_RESP packets of a message (03 R64), each with its reserved chain. -/
def Msg.readResp (m : Msg) (c : Nat) : List DevPkt :=
  let data := (List.range m.lines).flatMap fun i => Tab.get m.got [] i
  let n := ceilDiv m.len m.resp
  (List.range n).map fun i =>
    { DevPkt.make c 0x03 m.id m.key (m.start + i * m.resp) (m.dup.getD m.first) (slice data (i * m.resp) m.resp) with
      index := i, count := n, chain := m.egress[i]? }

/-- The ATOMIC_RESP of a message (03 R65). -/
def Msg.atomicResp (m : Msg) (c : Nat) : DevPkt :=
  { DevPkt.make c 0x06 m.id m.key m.start m.first m.prior with chain := m.egress[0]? }

/-- A message done (04 Table 4-1): its response built unless the connection is ABORTING, its cells given back, and what
waited on it judged. -/
def Chip.done (s : Chip) (c : Nat) (m : Msg) : Chip :=
  match s.conn c with
  | none => s
  | some k =>
    let s1 := (s.giveBack m).removeMsg c m.first
    let s2 :=
      if !k.live then s1.dropChains m.egress
      else if m.op == 0x02 then (m.readResp c).foldl (fun t p => t.queueTx c p) s1
      else if m.atomic then
        let r : AtomicResult := { psn := m.first, op := m.op, msgId := m.id, key := m.key, offset := m.start, prior := m.prior }
        (s1.modConn c fun k => { k with atomics := (r :: k.atomics).take 64 }).queueTx c (m.atomicResp c)
      else s1
    (s2.dropWaits c m.first).gone c m.first

/-- A response's holds have ended (02 R44 to R47). -/
def Chip.unheld (s : Chip) (m : Msg) : Bool := s.r47 || (m.holds == 0 && m.held ≤ s.syz.acked)

/-- A read or atomic whose every line operation has its result: refused for its first bad line, or answered once no hold
is left. -/
def Chip.tryFinish (s : Chip) (c first : Nat) : Chip :=
  match s.msg c first with
  | none => s
  | some m =>
    if m.op == 0x01 || !m.started || !m.allDone || m.busy != 0 then s
    else match m.bad with
      | some (i, code) => s.refuse c m code (m.start + m.at i) 0
      | none => if s.unheld m then s.done c m else s

/-- Every message of the chip with its connection, in order of connection. -/
def Chip.allMsgs (s : Chip) : List (Nat × Msg) := s.xpt.conns.flatMap fun e => e.2.msgs.map fun m => (e.1, m)

/-- Every message that a hold may have released tried. -/
def Chip.finishAll (s : Chip) : Chip :=
  (s.xpt.conns.flatMap fun e => e.2.msgs.map fun m => (e.1, m.first)).foldl (fun t x => t.tryFinish x.1 x.2) s

/-- What a WRITE or atomic that took effect leaves for later FLUSHes (04 R105, R106): the pages of the lines that did. -/
def Chip.coverWrite (s : Chip) (c : Nat) (m : Msg) (pos : Nat) (pages : List Nat) : Chip :=
  s.modConn c fun k => { k with covered := k.covered ++ [{ psn := m.first, pair := m.pair, mirror := m.mirror, pos,
                                                           owed := m.owed, stamp := s.pgm.stamp, pages }] }

/-- A WRITE whose line operations have all taken effect or been refused (04 Table 4-1, 02 R50): accepted, covered,
answered by NAK for its first refused line, and by FLUSH_RESP if DURABLE. -/
def Chip.writeDone (s : Chip) (c : Nat) (m : Msg) : Chip :=
  let pages := (((List.range m.lines).filter (bit m.done)).map fun i => pageOfLine (m.line i)).eraseDups
  let s1 := if m.done == 0 then s else s.coverWrite c m m.pos pages
  let s3 := (s1.giveBack m).unreserve c m.first
  match m.bad with
  | some (i, code) =>
    let m' := { m with chains := [], egress := [] }
    s3.refuse c m' code (m.start + m.at i) 0
  | none =>
    let s4 := if flagDurable m.flags then
        s3.draw.2.modConn c fun k => { k with flushes := k.flushes ++
          [{ psn := m.last, comet := m.comet, count := m.count, bitmap := m.bitmap, level := bits m.opField 25 24, msgId := m.id, key := m.key, offset := m.start, turn := s3.fresh, stalled := false }] }
      else s3
    (((s4.removeMsg c m.first).settle c m.first m.count).gone c m.first).raiseFlash

/-- A line operation has been issued, and its result has come. -/
def Msg.sent (m : Msg) (i : Nat) : Bool := bit (m.done ||| m.lost ||| m.busy) i
def Msg.fin (m : Msg) (i : Nat) : Bool := bit m.lost i || (bit m.done i && !bit m.busy i)

/-- The next line operation of a message in ascending offset order, where fewer than 16 below it are outstanding (06 Table 6-1). -/
def Msg.nextOp (m : Msg) : Option Nat := match (List.range m.lines).find? fun i => !m.sent i with
  | some i => if ((List.range i).filter fun j => !m.fin j).length < 16 then some i else none
  | none => none

/-- A message waits for a flash fetch, for an atomic unit, or for a hold of its response (06 R138; log 50). -/
def Chip.waitsLong (s : Chip) (c : Nat) (m : Msg) : Bool :=
  (s.pgm.fetchWaits.any fun w => w.conn == c && w.first == m.first) ||
  (s.lcc.banks.any fun e => e.2.atomic.any fun a => a.2.1 == c && a.2.2.1 == m.first) ||
  (m.allDone && m.op != 0x01 && m.busy == 0 && !s.unheld m)

/-- A message parked in its comet's scratch, which holds 256; it keeps its context while scratch is full (06 R138). -/
def Chip.parkNow (s : Chip) (c first : Nat) : Chip :=
  match s.msg c first with
  | none => s
  | some m =>
    let parked := s.xpt.conns.foldl (fun n e => n + (e.2.msgs.filter fun x => x.comet == m.comet && x.parked).length) 0
    if parked < 256 then s.modMsg c first fun m => { m with parked := true } else s

/-- A message gives its context up when it can issue nothing more and waits (06 R138; log 50). -/
def Chip.park (s : Chip) (c first : Nat) : Chip :=
  match s.msg c first with
  | none => s
  | some m => if m.started && !m.parked && m.nextOp.isNone && s.waitsLong c m then s.parkNow c first else s

/-- Contexts of a comet in use (06 R138): started messages, and those that wait at their start stage. -/
def Chip.contexts (s : Chip) (n : Nat) : Nat :=
  s.xpt.conns.foldl (fun q e => q + (e.2.msgs.filter fun m =>
    m.comet == n && !m.parked && (m.started || m.stalls.contains atStart)).length) 0

/-- A message has taken effect or found its last result: its guard entry is freed, then it ends if it can. -/
def Chip.afterLine (s : Chip) (c first : Nat) : Chip :=
  match s.msg c first with
  | none => s
  | some m =>
    if m.allDone then
      if m.op == 0x01 then s.writeDone c m
      else
        let s1 := (s.modMsg c first fun m => { m with guarded := false }).guard c
        (((s1.flushCheck c).raiseFlash).tryFinish c first).park c first
    else s.park c first

/-- The response of a read of a pair-pending line is held for its newest entry (02 R44, 07 R174). -/
def Chip.holdRead (s : Chip) (c first b line : Nat) : Chip :=
  if s.r47 then s
  else match Tab.find (s.bank b).pend line with
    | none => s
    | some e =>
      match e.layers.getLast? with
      | none => s.modMsg c first fun m => { m with held := Nat.max m.held e.pos }
      | some l =>
        let ls := e.layers.dropLast ++ [{ l with readers := l.readers ++ [(c, first)] }]
        (s.modBank b fun k => { k with pend := Tab.ins k.pend line { e with layers := ls } }).modMsg c first fun m =>
          { m with holds := m.holds + 1 }

/-- A read line operation has its bytes. -/
def Chip.readDone (s : Chip) (c first i : Nat) (data : List Byte) : Chip :=
  (s.modMsg c first fun m =>
    { m with done := setBit m.done i true, busy := setBit m.busy i false, got := Tab.ins m.got i data }).afterLine c first

/-! ### The pair-pending table -/

/-- Whether a message's writes are journaled now (12 R300). -/
def Chip.journals (s : Chip) (m : Msg) : Bool := m.pair && s.journaled

/-- Lines of a bank that an accepted atomic will enter in the table. -/
def Chip.pendDue (s : Chip) (k : Bank) : Nat :=
  (k.atomic.filter fun a => (Tab.find k.pend a.1).isNone && (match s.msg a.2.1 a.2.2.1 with
    | some m => s.journals m
    | none => false)).length

/-- Entries of the table a bank shares between the numbers it serves (07 R174, 16 R405), those kept for atomics included. -/
def Chip.pendCount (s : Chip) (b : Nat) : Nat :=
  s.lcc.banks.foldl (fun n e => if s.server e.1 == s.server b then n + e.2.pend.length + s.pendDue e.2 else n) 0

/-- A write to a line not in a full table waits (07 R174). -/
def Chip.pendRoom (s : Chip) (b line : Nat) : Bool :=
  (Tab.find (s.bank b).pend line).isSome || s.pendCount b < 512

/-- A write or atomic waits for an entry: counted once for each line (07 R174). -/
def Chip.pendStall (s : Chip) (c : Nat) (m : Msg) (b i : Nat) : Chip :=
  if bit m.pairWaits i then s
  else (s.bankCount b 0x10).modMsg c m.first fun m => { m with pairWaits := setBit m.pairWaits i true }

/-- A write entered in the pair-pending table (07 R174, 12 R300): a second unacknowledged entry on the line owes a LINE
entry. -/
def Chip.pendWrite (s : Chip) (c : Nat) (m : Msg) (b line : Nat) (pkts : List Nat) (mask : Nat) (data : List Byte) : Chip :=
  let needs := pkts.map fun p => (c, m.first, p)
  let old := Tab.find (s.bank b).pend line
  let l : Layer := { needs, line := old.isSome, addr := line * 64, mask := BitVec.ofNat 64 mask, data, mirror := m.mirror,
                     writer := (c, m.first), readers := [] }
  let e : PairPend := match old with
    | some e => { e with layers := e.layers ++ [l] }
    | none => { pos := 0, layers := [l] }
  let s1 := s.modBank b fun k => { k with pend := Tab.ins k.pend line e }
  if old.isSome then s1.modMsg c m.first fun m => { m with owed := m.owed + 1 } else s1

/-- The chain of a packet of a journaled WRITE shared with SYZ, which is last owner, and in compatibility mode with its mirror path
(06 R163), where it is not shared yet. -/
def Chip.shareSyz (s : Chip) (m : Msg) (h : Handle) : Chip := match s.chain h with
  | some ch => if ch.sharers.isEmpty then
      s.shareChain h ([Agent.comet m.charge, .syz] ++ if s.syz.compat then [.mirrorPath] else []) .syz else s
  | none => s

/-- A packet's DATA entry posted when every line operation of it has ended and some have taken effect (12 R300; log 51). Its chain
is shared by then, though no standby was there when the WRITE started. -/
def Chip.postPacket (s : Chip) (c first pkt : Nat) : Chip :=
  match s.msg c first with
  | none => s
  | some m =>
    let ls := m.linesOf pkt
    if bit m.posted pkt || !(ls.all fun i => bit (m.done ||| m.lost) i) || !(ls.any fun i => bit m.done i) then s
    else
      let data := Tab.get m.parts [] pkt
      let addr := m.base + pkt * m.stride
      let h := (Tab.find m.chains pkt).toList
      let s0 := h.foldl (fun t x => t.shareSyz m x) (s.modMsg c first fun m => { m with posted := setBit m.posted pkt true })
      let r := s0.post m.mirror 1 addr 0 data h
      let s1 := (r.2.touchPos r.1 addr data.length).modMsg c first fun m => { m with pos := Nat.max m.pos r.1 }
      ls.foldl (fun t i => t.positioned (t.bankOf (m.line i)) (m.line i) (c, first, pkt) r.1) s1

/-! ### Results of a line operation -/

/-- A line operation refused for its line (02 R50 to R52): the lowest one gives the NAK. A packet whose last line operation it ends is
journaled with the lines that took effect (12 R300). -/
def Chip.lineBad (s : Chip) (c first i code : Nat) : Chip :=
  match s.msg c first with
  | none => s
  | some m =>
    let s1 := (s.unwant (m.line i) c first).modMsg c first fun m =>
      { m with lost := setBit m.lost i true, busy := setBit m.busy i false, bad := match m.bad with
          | some (j, x) => if i < j then some (i, code) else some (j, x)
          | none => some (i, code) }
    let s2 := if m.op == 0x01 && s.journals m then (m.packetsOf i).foldl (fun t p => t.postPacket c first p) s1 else s1
    s2.afterLine c first

/-! ### Writes -/

/-- Entries of a bank's write-through buffer. -/
def Bank.writes (k : Bank) : Nat :=
  (k.wtb.filter fun e => match e with
    | .write .. => true
    | .read .. => false).length

/-- Room in a bank's write-through buffer of 32 entries (07 R169). -/
def Bank.wtRoom (k : Bank) : Bool := k.writes < 32

/-- The read of a line that a command brings back has left its bank. -/
def Bank.readLeft (k : Bank) (line : Nat) : Bool :=
  !k.wtb.any fun e => match e with
    | .read l _ awaited => l == line && awaited
    | .write .. => false

/-- A read leaves a bank for its channel behind every earlier entry of the write-through buffer (07 R169, 01 R16). -/
def Chip.sendRead (s : Chip) (b line : Nat) (tag : Src) (awaited : Bool) : Chip :=
  if (s.bank b).wtb.isEmpty && !s.chanFull line tag then s.dramRead line tag awaited
  else s.modBank b fun k => { k with wtb := k.wtb ++ [.read line tag awaited] }

/-- A write leaves its bank behind every earlier entry of the buffer (07 R169). -/
def Chip.sendWrite (s : Chip) (b line : Nat) (tag : Src) (narrow : Bool) : Chip :=
  s.modBank b fun k => { k with wtb := k.wtb ++ [.write line tag narrow] }

/-- The cached copy, where the arrays are in use, and a fill under way take a write's bytes (07 R168, R172, R184). -/
def Chip.cacheWrite (s : Chip) (b line : Nat) (data : List Byte) (mask : Nat) (use : Bool) : Chip :=
  let set := s.cacheSet line
  let s1 := match (s.bank b).find set (s.cacheTag line) with
    | some (w, l) =>
      if use then s.modBank b fun k => k.putWay set w { l with data := overlay l.data data mask } else s
    | none => s
  s1.modBank b fun k => match k.miss with
    | some x => if x.line == line then
        { k with miss := some { x with data := overlay x.data data mask, mask := x.mask ||| BitVec.ofNat 64 mask } } else k
    | none => k

/-- A message's WRITE covers a whole 4 KiB sector (02 R52). -/
def Msg.coversSector (m : Msg) (sector : Nat) : Bool := m.base ≤ sector * 4096 && (sector + 1) * 4096 ≤ m.base + m.len

/-- The mark of a lost sector cleared when the last line operation of a WRITE that covers it takes effect (02 R52, 08
Table 8-3); lines of it that a fetch discarded as deltas count as having taken effect (log 121). -/
def Chip.clearLost (s : Chip) (c first line : Nat) : Chip :=
  match s.msg c first with
  | none => s
  | some m =>
    let p := pageOfLine line
    let sec := line / 64
    let g := s.page p
    let ls := (List.range m.lines).filter fun i => m.line i / 64 == sec
    if g.st == .lostPartial && bit g.lost (sec % 16) && m.coversSector sec && ls.all (fun i => bit m.done i) then
      let lost := setBit g.lost (sec % 16) false
      (s.setPage p { g with lost, st := if lost == 0 then .dirty else .lostPartial }).charge p
    else s

/-- A MIRROR_FETCH sent for a line or a sector (12 R305). -/
def Chip.askTwin (s : Chip) (addr size : Nat) : Chip :=
  let tag := s.syz.nextTag
  let t : FetchTag := { tag, addr, size, answer := none }
  ({ s with syz := { s.syz with nextTag := (tag + 1) % 65536, tags := s.syz.tags ++ [t] } }).syzSmall 0x44
    [addr, size, tag]

/-- The request of a line or a sector that the twin was asked for. -/
def Chip.asked (s : Chip) (addr size : Nat) : Option FetchTag := s.syz.tags.find? fun t => t.addr == addr && t.size == size

/-- The twin's answer is still to come: asked, not answered, and the pair PAIRED (12 R305). -/
def Chip.askWaits (s : Chip) (addr size : Nat) : Bool := match s.asked addr size with
  | some t => t.answer.isNone && s.syz.pair == .paired
  | none => false

/-- The mask and bytes that the twin gave for a line or a sector, if it had any. -/
def Chip.twinGave (s : Chip) (addr size : Nat) : Option (Nat × List Byte) := match (s.asked addr size).bind (·.answer) with
  | some (source, mask, data) => if source == 0 then none else some (mask, padTo size data)
  | none => none

/-- A request that has served its purpose forgotten. -/
def Chip.dropAsk (s : Chip) (addr size : Nat) : Chip :=
  { s with syz := { s.syz with tags := s.syz.tags.filter fun t => !(t.addr == addr && t.size == size) } }

/-- Bytes take effect in a line's frame (01, A WRITE; 07 R168; 08 Table 8-3): a full line clears its poison, and ends its repair with
what the twin was asked for it (11 R282). -/
def Chip.writeFrame (s : Chip) (c first b line : Nat) (data : List Byte) (mask : Nat) (journaled use : Bool) : Chip :=
  let full := mask == 2 ^ 64 - 1
  let s1 := (s.writeLine line data mask).cacheWrite b line data mask use
  let s2 := { s1 with pgm := { s1.pgm with poison := if full then s1.pgm.poison.filter (· != line) else s1.pgm.poison } }
  let s3 := s2.writePage (pageOfLine line) journaled
  let s4 := { s3 with pgm := { s3.pgm with wrote := Tab.ins s3.pgm.wrote line s3.pgm.stamp } }
  let s5 := if (s.bank b).repairs.any (·.line == line) then
      (s4.modBank b fun k => { k with repairs := k.repairs.filter (·.line != line) }).dropAsk (line * 64) 64 else s4
  s5.clearLost c first line

/-- A write line operation takes effect and joins the write-through buffer (07 R169); one narrower than its line is a
read-modify-write in the controller. -/
def Chip.writeThrough (s : Chip) (c first b line : Nat) (data : List Byte) (mask : Nat) (journaled use : Bool) : Chip :=
  (s.writeFrame c first b line data mask journaled use).sendWrite b line (.conn c) (mask != 2 ^ 64 - 1)

/-- Address of a 4 KiB sector of a page. -/
def sectorAddr (p sec : Nat) : Nat := p * 65536 + sec * 4096

/-- The twin gave every byte of a sector, and its CRC-64 is that of the stored sector (08 R200 step 2; log 63). -/
def Chip.sectorGiven (s : Chip) (p sec : Nat) : Option (List Byte) := match s.twinGave (sectorAddr p sec) 4096 with
  | some (mask, data) =>
    if mask % 2 ^ 4096 == 2 ^ 4096 - 1 && crc64 data == crc64 (Memory.readN 0 s.str.stored (sectorAddr p sec) 4096) then some data
    else none
  | none => none

/-- Sectors asked for that have not been: the twin is asked only while the pair is PAIRED (12 R305). -/
def Chip.askSectors (s : Chip) (l : List (Nat × Nat)) : Chip :=
  if s.syz.pair == .paired then
    l.foldl (fun t x => if (t.asked (sectorAddr x.1 x.2) 4096).isSome then t else t.askTwin (sectorAddr x.1 x.2) 4096) s
  else s

/-- Requests of sectors forgotten. -/
def Chip.dropSectors (s : Chip) (l : List (Nat × Nat)) : Chip := l.foldl (fun t x => t.dropAsk (sectorAddr x.1 x.2) 4096) s

/-- The twin is asked for a line (11 Table 11-2 order 3): written and not sealed, in a PAIR-policy region, every write of
it journaled, no cached copy, and the pair PAIRED. -/
def Chip.twinAsked (s : Chip) (line : Nat) : Bool :=
  let p := pageOfLine line
  let g := s.page p
  let b := s.bankOf line
  let cached := s.arrays b && !s.lcc.staleRisk && ((s.bank b).find (s.cacheSet line) (s.cacheTag line)).isSome
  let hot := g.st == .dirty || g.st == .destaging || (g.st == .lostPartial && g.charged)
  !cached && hot && !g.gap && s.syz.pair == .paired && (match s.regionOf p with
    | some e => e.2.pair
    | none => false)

/-- The stored copy may repair a line of a page in this state (11 Table 11-2 order 2). -/
def Page.calm (g : Page) : Bool := (g.st == .clean || g.st == .evicting || g.st == .lostPartial) && !g.charged

/-- A bank has room for the repair of a line, or holds it already (11 R282). -/
def Chip.repairRoom (s : Chip) (b line : Nat) : Bool :=
  (s.bank b).repairs.any (·.line == line) || (s.bank b).repairs.length < 8

/-- A repair of an uncorrectable line starts at its bank, which holds up to 8 (11 R282). -/
def Chip.startRepair (s : Chip) (b line : Nat) : Chip :=
  let k := s.bank b
  if k.repairs.any (·.line == line) || 8 ≤ k.repairs.length then s
  else
    let s1 := s.setBank b { k with repairs := k.repairs ++ [{ line, first := (s.page (pageOfLine line)).calm, tried := false }] }
    if s.twinAsked line then s1.askTwin (line * 64) 64 else s1

/-- A write that takes effect: marked done, entered in the pair-pending table, its packets posted when complete. -/
def Chip.writeTakes (s : Chip) (c : Nat) (m : Msg) (b i : Nat) (data : List Byte) (mask : Nat) : Chip :=
  let line := m.line i
  let pkts := m.packetsOf i
  let s1 := if s.journals m then s.pendWrite c m b line pkts mask data else s
  let s2 := (s1.unwant line c m.first).modMsg c m.first fun m => { m with done := setBit m.done i true }
  if s.journals m then pkts.foldl (fun t p => t.postPacket c m.first p) s2 else s2

/-- The bank holds a line for an atomic, or for the delta space of another write. -/
def Chip.lineHeld (s : Chip) (b line c first : Nat) : Bool :=
  (s.bank b).atomic.any (·.1 == line) || s.pgm.wants.any (fun e => e.1 == line && e.2 != (c, first))

/-- A line under repair: the bank returns what is accepted for it, but for a WRITE of all its bytes (11 R282). -/
def Chip.underRepair (s : Chip) (b : Nat) (m : Msg) (i : Nat) : Bool :=
  (s.bank b).repairs.any (·.line == m.line i) && !(m.op == 0x01 && m.num i == 64)

/-- A write line operation reaches its bank: it takes effect, is refused for its line, or waits (none). A bank whose write-through
buffer is full takes none (07 R169). `use` is the mode of its acceptance (R184). -/
def Chip.acceptWrite (s : Chip) (c : Nat) (m : Msg) (b i : Nat) (errs : List (Nat × Byte)) (use : Bool) : Chip :=
  let line := m.line i
  let p := pageOfLine line
  let mask := maskOf (m.off i) (m.num i)
  let data := placeAt (m.off i) (slice m.bytes (m.at i) (m.num i))
  let full := m.num i == 64
  let g := s.page p
  let ok := m.pair && !s.r47
  if !(s.bank b).wtRoom then s
  else if s.journals m && !s.pendRoom b line then s.pendStall c m b i
  else if g.resident && s.unready p && !(m.pair && s.syz.pair == .paired) then (s.demand p 4).stall c m.first 2
  else if !g.resident then
    if !s.fetchable (s.setOf p) && !(m.pair && s.syz.pair == .paired) then (s.demand p 4).stall c m.first 2
    else
      match s.absorb line data mask with
      | none =>
        let s1 := (s.demand p 5).stall c m.first 0
        { s1 with pgm := { s1.pgm with wants := if s1.pgm.wants.any (·.1 == line) then s1.pgm.wants else s1.pgm.wants ++ [(line, c, m.first)] } }
      | some s1 => (((s1.demand p 5).writePage p ok).writeTakes c m b i data mask).afterLine c m.first
  else
    let s0 := s.demand p 4
    if g.st == .lostPartial && bit g.lost (line / 64 % 16) && !m.coversSector (line / 64) then s0.lineBad c m.first i 0x09
    else if (g.st == .clean || g.st == .evicting || g.st == .lostPartial) && s.atomicOn p then s0
    else
      let r := if full then (Burst.good, s0) else s0.readBurst line errs
      match r.1 with
      | .uncorrectable => (r.2.startRepair b line).parkNow c m.first
      | .poison => r.2.lineBad c m.first i 0x08
      | .poisonCorrected => r.2.lineBad c m.first i 0x08
      | _ =>
        let slip := if full then [] else s0.slip line errs
        let u := if slip.isEmpty then r.2 else r.2.writeLine line (slipped slip 0 0 (s0.frameLine line)) (2 ^ 64 - 1)
        ((u.writeTakes c m b i data mask).writeThrough c m.first b line data mask ok use).afterLine c m.first

/-! ### Reads -/

/-- A read that misses takes the miss register (07 R170, R173): the victim is dropped and the line read. The mode is that of
its acceptance (R184); a locked line is refilled into its way (R186; log 157). -/
def Chip.takeMiss (s : Chip) (b line : Nat) (w : LineWait) : Chip :=
  let k := s.bank b
  let set := s.cacheSet line
  let way := if w.alloc && s.arrays b then w.relock.orElse (fun _ => k.victim set s.lockWays) else none
  let k1 := match way with
    | some v => k.dropWay set v
    | none => k
  let x : Miss := { line, set, way := way.getD 16, data := s.frameLine line, mask := 0, install := way.isSome && !s.poisoned line,
                    locked := w.relock.isSome }
  (s.setBank b { k1 with miss := some x, waits := [w] }).sendRead b line (.conn w.conn) true

/-- A locked line that an error invalidated, refilled into its way from DRAM (07 R186). -/
def Chip.relockLine (s : Chip) (b line : Nat) (w : Option Nat) : Chip := match w with
  | some w => (s.modBank b fun k => k.putWay (s.cacheSet line) w { tag := s.cacheTag line, locked := true, data := s.frameLine line }).sendRead b line .lcc false
  | none => s

/-- A read line operation that misses (07 R170, R171): merged, in the miss register, or queued; it waits where a buffer is full. `front`
tells that it comes from the head of the miss queue: behind another line's miss it stays there as a miss that waits for the register. -/
def Chip.readMiss (s : Chip) (c : Nat) (m : Msg) (b i : Nat) (relock : Option Nat) (front use : Bool) : Chip :=
  let line := m.line i
  let k := s.bank b
  let data := slice (s.frameLine line) (m.off i) (m.num i)
  let w : LineWait := { conn := c, first := m.first, idx := i, line, kind := .fill, data, poison := s.poisoned line,
                        alloc := use, relock, errs := [], arr := 0, mask := 0 }
  let took (t : Chip) : Chip :=
    ((t.modMsg c m.first fun m => { m with done := setBit m.done i true, busy := setBit m.busy i true }).holdRead c m.first b line).afterLine c m.first
  let queued (q : List LineWait) : Chip := took (((s.modBank b fun k => { k with queue := q }).bankCount b 4).bankCount b 0xC)
  match k.miss with
  | some x =>
    if x.line == line then
      took (((s.modBank b fun k => { k with waits := k.waits ++ [{ w with relock := none, mask := x.mask.toNat }] }).bankCount b 8).relockLine b line relock)
    else if !k.wtRoom then s
    else if front then queued (w :: k.queue)
    else if k.queue.length < 16 then queued (k.queue ++ [w])
    else s
  | none =>
    if !k.wtRoom || s.throttleFull c line then s
    else if front || k.queue.isEmpty then took ((s.takeMiss b line w).bankCount b 4)
    else if k.queue.length < 16 then queued (k.queue ++ [w])
    else s

/-! ### Array errors (07 R186) -/

/-- An array error met at the cached copy of a line, and the locked way that is to be refilled. A single-bit error is
corrected and its line rewritten from DRAM; a multi-bit or tag error invalidates the entry, and the third in a way of a set
retires the way. A page whose last locked line is lost so is pinned no longer (R177). -/
def Chip.arrayError (s : Chip) (b line arr : Nat) : Chip × Option Nat :=
  let k := s.bank b
  let set := s.cacheSet line
  match (if arr == 0 || !s.arrays b then none else k.find set (s.cacheTag line)) with
  | none => (s, none)
  | some (w, l) =>
    let s1 := s.bankCount b (0x20 + 4 * (arr - 1))
    if arr == 1 then ((s1.modBank b fun k => k.putWay set w { l with data := s.frameLine line }).sendRead b line .lcc false, none)
    else
      let n := Tab.get k.errs 0 (16 * set + w) + 1
      let s2 := s1.modBank b fun k => { k.dropWay set w with errs := Tab.ins k.errs (16 * set + w) n }
      let s3 := if n == 3 then s2.raise 6 b 3 2 0 (le 2 set ++ le 1 w) else s2
      if l.locked && n < 3 && !s.poisoned line then (s3, some w)
      else (if l.locked then s3.repin (pageOfLine line) else s3, none)

/-- A read line operation reaches its bank. `use` is the mode of its acceptance (07 R184). -/
def Chip.acceptRead (s : Chip) (c : Nat) (m : Msg) (b i : Nat) (relock : Option Nat) (front use : Bool) : Chip :=
  let line := m.line i
  let p := pageOfLine line
  let g := s.page p
  let mask := maskOf (m.off i) (m.num i)
  if !g.resident then
    match (Tab.find s.pgm.deltas line).filter fun d => d.mask.toNat &&& mask == mask with
    | some d => ((s.demand p 4).holdRead c m.first b line).readDone c m.first i (slice d.data (m.off i) (m.num i))
    | none =>
      let w : LineWait := { conn := c, first := m.first, idx := i, line, kind := .fetch, data := [], poison := false, alloc := false,
                            relock := none, errs := [], arr := 0, mask := 0 }
      let s1 := ((s.demand p 4).stallFor c m.first p)
      let s2 := { s1 with pgm := { s1.pgm with fetchWaits := s1.pgm.fetchWaits ++ [w] } }
      (s2.modMsg c m.first fun m => { m with busy := setBit m.busy i true }).park c m.first
  else if s.unready p then (s.demand p 4).stall c m.first 2
  else
    let s0 := s.demand p 4
    if g.st == .lostPartial && bit g.lost (line / 64 % 16) then s0.lineBad c m.first i 0x09
    else
      let k := s.bank b
      let set := s.cacheSet line
      match (if use then k.find set (s.cacheTag line) else none) with
      | some (w, l) =>
        let s1 := (s0.modBank b fun k => { k with plru := Tab.ins k.plru set (plruTouch (Tab.get k.plru 0 set) w) }).bankCount b 0
        (s1.holdRead c m.first b line).readDone c m.first i (slice l.data (m.off i) (m.num i))
      | none => s0.readMiss c m b i relock front use

/-! ### Atomics -/

/-- An atomic reaches its bank: the bank holds the line and forwards it (01 R21, 04 R114, R115). -/
def Chip.acceptAtomic (s : Chip) (c : Nat) (m : Msg) (b : Nat) (use : Bool) : Chip :=
  let line := m.line 0
  let p := pageOfLine line
  let g := s.page p
  let take (t : Chip) : Chip :=
    ((t.modBank b fun k => { k with atomic := k.atomic ++ [(line, c, m.first, use)] }).modMsg c m.first fun m =>
      { m with busy := 1 }).park c m.first
  if s.journals m && !s.pendRoom b line then s.pendStall c m b 0
  else if g.resident && s.unready p then (s.demand p 4).stall c m.first 2
  else if !g.resident then
    let w : LineWait := { conn := c, first := m.first, idx := 0, line, kind := .atomic, data := [], poison := false, alloc := false,
                          relock := none, errs := [], arr := 0, mask := 0 }
    let s1 := (s.demand p 4).stallFor c m.first p
    take { s1 with pgm := { s1.pgm with fetchWaits := s1.pgm.fetchWaits ++ [w] } }
  else
    let s0 := s.demand p 4
    if g.st == .lostPartial && bit g.lost (line / 64 % 16) then s0.lineBad c m.first 0 0x09
    else if s.throttleFull c line then s0
    else take (s0.sendRead b line (.conn c) true)

/-- The value an atomic stores, if it stores (04 R112): little-endian words (03 R65). -/
def Msg.atomicStores (m : Msg) (old : Nat) : Option Nat :=
  let arg := Tab.get m.parts [] 0
  if m.op == 0x04 then some ((old + unle (arg.take 8)) % 2 ^ 64)
  else if old == unle (arg.take 8) then some (unle (slice arg 8 8)) else none

/-- A change of state that an atomic in progress held back happens once none is in progress (01 R21). -/
def Chip.afterAtomic (s : Chip) (p : Nat) : Chip :=
  let g := s.page p
  if g.due && !s.atomicOn p then s.setPage p { g with due := false, st := if g.lost != 0 then .lostPartial else if g.charged then .dirty else .clean, gap := g.gap && g.charged } else s

/-- An atomic's result reaches its bank (04 R112, R114, R116; 12 R300): the unit has written it, and the line is released. Over
an entry with no position yet, its response waits for the LINE entry it owes (12 R300), which follows every entry that made the
value it returns. `use` tells that the arrays were in use when the bank accepted it (07 R184), `slip` what its read adds to the line's
true bytes (11 R278). -/
def Chip.atomicTakes (s : Chip) (c : Nat) (m : Msg) (b : Nat) (use : Bool) (slip : List Byte) : Chip :=
  let line := m.line 0
  let off := m.base % 64
  let read := slipped slip 0 0 (s.frameLine line)
  let old := slice read off 8
  let journaled := m.pair && !s.r47
  let s1 := (s.modBank b fun k => { k with atomic := k.atomic.filter (·.1 != line) }).modMsg c m.first fun m =>
    { m with busy := 0, done := 1, prior := old }
  match m.atomicStores (unle old) with
  | none =>
    let s2 := s1.holdRead c m.first b line
    let pos := match s2.msg c m.first with
      | some x => x.held
      | none => 0
    let s3 := s2.coverWrite c { m with owed := match s2.msg c m.first with
      | some x => x.holds
      | none => 0 } pos []
    s3.afterLine c m.first
  | some v =>
    let data := placeAt off (le 8 v)
    let mask := maskOf off 8
    let open_ := match Tab.find (s.bank b).pend line with
      | some e => !e.layers.isEmpty
      | none => false
    let s0 := if slip.isEmpty then s1 else s1.writeLine line read (2 ^ 64 - 1)
    let s2 := (s0.writeFrame c m.first b line data mask journaled use).dramWrite line (.conn c)
    let s3 := s2.modMsg c m.first fun m => { m with stored := true }
    if s.journals m then
      let r := s3.post m.mirror 3 m.base 0 (le 8 v) []
      let s4 := r.2.touchPos r.1 m.base 8
      let s5 := if open_ then (s4.pendWrite c m b line [] mask data).holdRead c m.first b line
        else s4.modBank b fun k => { k with pend := Tab.ins k.pend line { pos := r.1, layers := [] } }
      let s6 := s5.modMsg c m.first fun m => { m with pos := Nat.max m.pos r.1, held := Nat.max m.held r.1 }
      let m6 := match s6.msg c m.first with
        | some x => x
        | none => m
      (s6.coverWrite c m6 r.1 [pageOfLine line]).afterLine c m.first
    else (s3.coverWrite c m 0 [pageOfLine line]).afterLine c m.first

/-! ### Acceptance -/

/-- The next line operation of a message is held up by the repair of its line: its comet waits for the repair's end (11 R282). -/
def Chip.awaitsRepair (s : Chip) (m : Msg) : Bool := m.nextOp.any fun i => s.underRepair (s.bankOf (m.line i)) m i

/-- Context records of a comet that wait for a context of it, the oldest message first (06 R152): those that can issue a line
operation, and those held at their start stage. -/
def Chip.recordsWaiting (s : Chip) (n : Nat) : List (Nat × Msg) :=
  (s.allMsgs.filter fun x => x.2.comet == n && x.2.parked &&
    (if x.2.started then x.2.nextOp.isSome && !s.awaitsRepair x.2 else x.2.stalls.contains atStart)).mergeSort
      fun a b => a.2.ready.getD 0 ≤ b.2.ready.getD 0

/-- A message holds a context, or is the next to take a free one (06 R152). -/
def Chip.inContext (s : Chip) (c : Nat) (m : Msg) : Bool :=
  !m.parked || (s.contexts m.comet < 16 && (s.recordsWaiting m.comet).head?.map (fun x => (x.1, x.2.first)) == some (c, m.first))

/-- A line operation of a started message may be issued (06 R139): not yet issued, fewer than 16 outstanding below it, none
below it still to be issued to its bank (01 R16), a context held or free. -/
def Chip.mayIssue (s : Chip) (c : Nat) (m : Msg) (i : Nat) : Bool :=
  m.started && i < m.lines && !m.sent i && ((List.range i).filter fun j => !m.fin j).length < 16 &&
  ((List.range i).all fun j => m.sent j || s.bankOf (m.line j) != s.bankOf (m.line i)) && s.inContext c m && s.cometOk m.comet

/-- A request to a line that already has a request in the miss queue waits its turn there (07 R170). -/
def Chip.inTurn (s : Chip) (b line : Nat) : Bool := (s.bank b).queue.any fun w => w.line == line

/-- A request put in the miss queue to wait its turn, in the mode of its acceptance (07 R184). -/
def Chip.queueTurn (s : Chip) (c : Nat) (m : Msg) (b i : Nat) (errs : List (Nat × Byte)) (arr : Nat) : Chip :=
  let w : LineWait := { conn := c, first := m.first, idx := i, line := m.line i, kind := .turn, data := [], poison := false,
                        alloc := s.arrays b, relock := none, errs, arr, mask := 0 }
  (s.modBank b fun k => { k with queue := k.queue ++ [w] }).modMsg c m.first fun m => { m with busy := setBit m.busy i true }

/-- A bank has taken a request: its operation has taken effect, was refused for its line, or waits at the bank. -/
def Chip.sentOp (s : Chip) (c first i : Nat) : Bool := match s.msg c first with
  | some m => m.sent i
  | none => true

/-- A line operation handed to its meaning by its opcode, with the array error that its access met (07 R186): a locked line lost to it
is refilled with the read that misses, else by a read of its own. -/
def Chip.takeOp (s : Chip) (c : Nat) (m : Msg) (b i : Nat) (errs : List (Nat × Byte)) (arr : Nat) (front use : Bool) : Chip :=
  let e := s.arrayError b (m.line i) arr
  if m.op == 0x02 then
    let t := e.1.acceptRead c m b i e.2 front use
    if t.sentOp c m.first i then t else t.relockLine b (m.line i) e.2
  else
    let t := e.1.relockLine b (m.line i) e.2
    if m.op == 0x01 then t.acceptWrite c m b i errs use
    else if m.atomic then t.acceptAtomic c m b use
    else s

/-- One request accepted by a bank; none while its miss queue is full (07 R170). On a line under repair it is returned to its comet,
which parks its message (11 R282). -/
def Chip.acceptOne (s : Chip) (b : Nat) (r : LineReq) : Chip :=
  let first := r.psn.toNat
  match s.msg r.conn first with
  | none => s
  | some m =>
    if s.mayIssue r.conn m r.idx && s.bankOf (m.line r.idx) == b && !s.lineHeld b (m.line r.idx) r.conn first &&
        (s.bank b).queue.length < 16 then
      let s1 := s.modMsg r.conn first fun m => { m with parked := false }
      let s1 := s1.translate (s.server b / 16) (pageOfLine (m.line r.idx))
      if s1.inTurn b (m.line r.idx) then s1.queueTurn r.conn m b r.idx r.errs r.arr
      else if s1.underRepair b m r.idx then s1.parkNow r.conn first
      else s1.takeOp r.conn m b r.idx r.errs r.arr false (s1.arrays b)
    else s

/-- The place of a request among those of its block's region-hub port (06 R147): the comet with the oldest urgent message
first, else round-robin from the block's pointer. -/
def Chip.portKey (s : Chip) (r : LineReq) : Nat × Nat := match s.msg r.conn r.psn.toNat with
  | some m =>
    if m.urgent then (0, m.ready.getD 0)
    else (1, (m.comet + 16 - Tab.get s.cmt.portPtr (m.comet / 16 * 16) (m.comet / 16) % 16) % 16)
  | none => (2, 0)

/-- The pointer of a block's region-hub port moved past the comet granted (06 R147). -/
def Chip.movePort (s : Chip) (m : Option Msg) : Chip := match m with
  | some m => { s with cmt := { s.cmt with portPtr := Tab.ins s.cmt.portPtr (m.comet / 16) (m.comet / 16 * 16 + (m.comet + 1) % 16) } }
  | none => s

/-- The block whose region-hub port a request comes from. -/
def Chip.reqBlock (s : Chip) (r : LineReq) : Option Nat := (s.msg r.conn r.psn.toNat).map fun m => m.comet / 16

/-- The request that a bank takes next: of the hub port whose turn it is (01 R22), the one that the arbiter of the first block
waiting there grants (06 R147; log 47 and 155). -/
def Chip.nextReq (s : Chip) (rr : Nat) (reqs : List LineReq) : Option LineReq :=
  let key (r : LineReq) : Nat × Nat := (if rr ≤ r.hub then 0 else 1, r.hub)
  let le_ (a b : Nat × Nat) : Bool := a.1 < b.1 || (a.1 == b.1 && a.2 ≤ b.2)
  match reqs.find? fun r => reqs.all fun q => le_ (key r) (key q) with
  | none => none
  | some r0 =>
    let mine := reqs.filter fun r => r.hub == r0.hub && s.reqBlock r == s.reqBlock r0
    mine.find? fun r => mine.all fun q => le_ (s.portKey r) (s.portKey q)

/-- The line a request names. -/
def Chip.reqLine (s : Chip) (r : LineReq) : Option Nat := (s.msg r.conn r.psn.toNat).map fun m => m.line r.idx

/-- Requests of the same line from another hub port contend with this one (01 R22). -/
def Chip.contends (s : Chip) (reqs : List LineReq) (r : LineReq) : Bool :=
  (s.reqLine r).isSome && reqs.any fun q => q.hub != r.hub && s.reqLine q == s.reqLine r

/-- Requests accepted one a cycle until none is left; with the hub port of the last one granted in a contention. `con` tells
which contend, `rr` is the port whose turn it is. -/
def Chip.acceptAll (b : Nat) (con : LineReq → Bool) : Nat → Nat → List LineReq → Chip → Chip × Option Nat
  | 0, _, _, s => (s, none)
  | n + 1, rr, reqs, s => match s.nextReq rr reqs with
    | none => (s, none)
    | some r =>
      let t := s.acceptOne b r
      let granted := !s.sentOp r.conn r.psn.toNat r.idx && t.sentOp r.conn r.psn.toNat r.idx
      let u := Chip.acceptAll b con n (r.hub + 1) (reqs.erase r) (if granted then t.movePort (s.msg r.conn r.psn.toNat) else t)
      (u.1, if u.2.isSome then u.2 else if granted && con r then some r.hub else none)

/-! ### The miss queue (07 R170) -/

/-- A line operation whose bytes the bank had fixed is answered; a read of a line that was poison then is refused (02 R51). -/
def Chip.answer (s : Chip) (w : LineWait) : Chip :=
  if w.poison then s.lineBad w.conn w.first w.idx 0x08 else s.readDone w.conn w.first w.idx w.data

/-- A request at the head of the miss queue that waited its turn: taken, returned to its comet where its line is under repair, or kept
there where it must wait still. -/
def Chip.takeTurn (s : Chip) (b : Nat) (w : LineWait) (rest : List LineWait) : Bool × Chip :=
  let s1 := (s.modBank b fun k => { k with queue := rest }).modMsg w.conn w.first fun m => { m with busy := setBit m.busy w.idx false }
  match s1.msg w.conn w.first with
  | none => (true, s1)
  | some m =>
    if s1.lineHeld b w.line w.conn w.first then (false, s)
    else if s1.underRepair b m w.idx then (true, s1.parkNow w.conn w.first)
    else
      let t := s1.takeOp w.conn m b w.idx w.errs w.arr true w.alloc
      let held := match t.msg w.conn w.first with
        | some x => x.parked
        | none => false
      if t.sentOp w.conn w.first w.idx || (held && !m.parked) then (true, t)
      else (false, (t.modBank b fun k => { k with queue := { w with arr := 0 } :: k.queue }).modMsg w.conn w.first fun m =>
        { m with busy := setBit m.busy w.idx true })

/-- A line operation returned to its comet to be issued again (11 R282): it has not taken effect, and its message is parked.
Its guard entry, freed when the bank accepted it, is taken again: a later message of its connection that overlaps it or is
ORDERED may have taken effect in between (log 122). -/
def Chip.returnOp (s : Chip) (w : LineWait) : Chip :=
  (s.modMsg w.conn w.first fun m =>
    { m with done := setBit m.done w.idx false, busy := setBit m.busy w.idx false, guarded := m.dup.isNone }).parkNow w.conn w.first

/-- The next queued requests, in acceptance order (07 R170): one that now hits is answered, one of the line in the miss register merges
(R171), the first other that misses takes the register, and one that waited its turn is taken. -/
def Chip.nextMiss : Nat → Chip → Nat → Chip
  | 0, s, _ => s
  | n + 1, s, b =>
    let k := s.bank b
    match k.queue with
    | [] => s
    | w :: r =>
      let s1 := s.setBank b { k with queue := r }
      if w.kind == .turn then
        let x := s.takeTurn b w r
        if x.1 then Chip.nextMiss n x.2 b else x.2
      else match k.miss with
        | some x =>
          if x.line == w.line then
            Chip.nextMiss n (((s1.modBank b fun k => { k with waits := k.waits ++ [{ w with relock := none }] }).bankCount b 8).relockLine b w.line w.relock) b
          else s
        | none =>
          if k.repairs.any (·.line == w.line) then Chip.nextMiss n ((s1.relockLine b w.line w.relock).returnOp w) b
          else if w.alloc && (k.find (s.cacheSet w.line) (s.cacheTag w.line)).isSome then Chip.nextMiss n (s1.answer w) b
          else if s.throttleFull w.conn w.line then s
          else Chip.nextMiss n (s1.takeMiss b w.line w) b

/-- The miss queue of a bank served. -/
def Chip.serveQueue (s : Chip) (b : Nat) : Chip := Chip.nextMiss 17 s b

/-- The miss queues of every bank served. -/
def Chip.serveQueues (s : Chip) : Chip :=
  ((s.lcc.banks.filter fun e => !e.2.queue.isEmpty).map (·.1)).foldl Chip.serveQueue s

/-! ### The commands -/

/-- A bank accepts requests one per cycle; a contention for one line moves its pointer past the last port granted (01 R22). -/
def lineOpEffect (b : Nat) (reqs : List LineReq) (s : Chip) : Chip :=
  if s.nBanks ≤ b then s
  else
    let s0 := s.serveQueue b
    let x := Chip.acceptAll b (s0.contends reqs) reqs.length (s0.bank b).rr reqs s0
    match x.2 with
    | some hub => x.1.modBank b fun k => { k with rr := hub + 1 }
    | none => x.1

def execLineOperationAccepted (bank : Nat) (reqs : List LineReq) (s : State) : Host.Outcome State Fault Refusal :=
  .next (s.on (lineOpEffect bank reqs))

/-- The atomic unit's result (04 R114; 11 R279, R282), once the bank has forwarded the atomic: poison refuses it, an
uncorrectable line is repaired first. -/
def atomicResultEffect (b line : Nat) (errs : List (Nat × Byte)) (s : Chip) : Chip :=
  match (s.bank b).atomic.find? fun (a : Nat × Nat × Nat × Bool) => a.1 == line with
  | none => s
  | some (_, c, first, use) =>
    match s.msg c first with
    | none => s.modBank b fun k => { k with atomic := k.atomic.filter (·.1 != line) }
    | some m =>
      if !(s.page (pageOfLine line)).resident || s.inThrottle line || s.halted line || !(s.bank b).readLeft line then s
      else
        let free (t : Chip) : Chip := t.modBank b fun k => { k with atomic := k.atomic.filter (·.1 != line) }
        let s0 := s.readBack line
        let r := s0.readBurst line errs
        let slip := s0.slip line errs
        if r.1 == .uncorrectable && !s.repairRoom b line then s
        else
          let t := match r.1 with
            | .good => r.2.atomicTakes c m b use slip
            | .corrected => r.2.atomicTakes c m b use slip
            | .uncorrectable => (((free r.2).modMsg c first fun m => { m with busy := 0 }).startRepair b line).parkNow c first
            | _ => (free r.2).lineBad c first 0 0x08
          (t.afterAtomic (pageOfLine line)).serveQueue b

def execAtomicUnitResult (bank : Nat) (line : Nat) (errs : List (Nat × Byte)) (s : State) : Host.Outcome State Fault Refusal :=
  .next (s.on (atomicResultEffect bank line errs))

end Sys2Proof.Machine
end

