-- ==== Sys2Proof/Machine/Contain.lean ====
section
/-!
DEFINITION. Entering FAULT (01 R26, 12 R307, 13 Table 13-5, 16 R402), shared by every cause of it.
-/
namespace Sys2Proof.Machine

/-- Domains gated or powered. -/
def Chip.gate (s : Chip) (ds : List Nat) (off : Bool) : Chip :=
  { s with pws := { s.pws with gated := ds.foldl (fun g d => setBit g d off) s.pws.gated } }

/-- A domain that the variant powers and no fence of this start has gated (01 R28, R29). -/
def Chip.mayPower (s : Chip) (d : Nat) : Bool :=
  if d < 16 then !(s.glb.sl4804 && 4 ≤ d) && !bit s.cmt.fencedBlocks d && !bit s.cmt.fencedRegions (d / 4)
  else if d < 20 then !(s.glb.sl4804 && 17 ≤ d) && !bit s.cmt.fencedRegions (d - 16)
  else true

/-- Domains powered, those that a fence or the variant keeps off excepted. -/
def Chip.powerUp (s : Chip) (ds : List Nat) : Chip := s.gate (ds.filter s.mayPower) false

/-- The FLT CHIP_FAULT record of a cause of 16 Table 16-4; the watchdog's expiry and fault-off have CRITICAL records of their own
(16 Tables 16-2, 16-5; log 206). -/
def Chip.faultRecord (s : Chip) (cause : Nat) : Chip :=
  if cause == 1 || cause == 5 then s else s.raise 0x12 0xFFFF 2 4 0 (le 1 cause)

/-- The lines and marks of FAULT for a cause: the fence line asserted, the host ports stopped, outputs with ASSERT_ON_FAULT driven
low; an Eclipse that runs ends. A sequence that runs goes on without the chip, which releases SEQ_SYNC and leaves its rails as they
are (13 Table 13-4), unless it holds the line to abandon it (R327). -/
def Chip.faultLines (s : Chip) (cause : Nat) : Chip :=
  let outs := s.pws.outs.map fun o => if o.cfg.onFault then { o with low := true, counting := false } else o
  let left := s.pws.dir == 3 || s.pws.abandon
  { s with
    hpx := { s.hpx with stopped := true }, syz := { s.syz with fenceOut := true },
    pws := { s.pws with outs, offAt := s.now, dir := if left then s.pws.dir else 0, holding := left && s.pws.holding },
    flt := { s.flt with faulted := true, cause := cause }, ecl := { s.ecl with step := 0, waiting := false } }

/-- FAULT entered for a cause of 16 Table 16-4: its record, its lines, D0 to D15 and D20 gated. -/
def Chip.toFault (s : Chip) (cause : Nat) : Chip :=
  if s.glb.state = .fault then s
  else (((s.faultRecord cause).faultLines cause).enter .fault).gate (rangeFrom 0 16 ++ [20]) true

end Sys2Proof.Machine
end

