-- ==== Sys2Proof/Machine/Bank.lean ====
section
/-!
DEFINITION. What a line-cache bank does beside accepting line operations: fills (07 R170 to R173), its write-through buffer
(R169), internal invalidations (R183), eviction of pages (08 R194 to R196), line repairs (11 R282 to R284), maintenance
operations (07 R175 to R185) and the completion of page fetches (08 R199 to R205).
-/
namespace Sys2Proof.Machine

/-! ### Invalidations -/

/-- The cached lines that a test names leave their ways; fills of such lines are not installed (07 R182). -/
def Chip.invalidate (s : Chip) (b : Nat) (hit : Nat → Nat → Nat → CacheLine → Bool) : Chip :=
  let k := s.bank b
  let gone := k.all.filter fun x => hit (s.lineAt b x.1 x.2.2.tag) x.1 x.2.1 x.2.2
  let k1 := gone.foldl (fun t x => t.dropWay x.1 x.2.1) k
  let s1 := s.setBank b k1
  (gone.filter fun x => x.2.2.locked).foldl (fun t x => t.repin (s.lineAt b x.1 x.2.2.tag / 1024)) s1

/-- A fill under way of a line that a test names is not installed (07 R182): a locked line that it was to refill is lost. -/
def Chip.cancelFill (s : Chip) (b : Nat) (hit : Nat → Bool) : Chip := match (s.bank b).miss with
  | some x => if hit x.line && x.install then
      let t := s.modBank b fun k => { k with miss := some { x with install := false } }
      if x.locked then t.repin (pageOfLine x.line) else t
    else s
  | none => s

/-- An internal invalidation of lines, locked ones included (07 R183): each locked line lost is counted and recorded. -/
def Chip.dropLines (s : Chip) (b : Nat) (hit : Nat → Bool) : Chip :=
  let lost := ((s.bank b).all.filter fun x => x.2.2.locked && hit (s.lineAt b x.1 x.2.2.tag)).map fun x => s.lineAt b x.1 x.2.2.tag
  let s1 := (s.invalidate b fun a _ _ _ => hit a).cancelFill b hit
  lost.foldl (fun t a => (t.bankCount b 0x1C).raise 0x06 b 2 1 0 (le 8 (a * 64))) s1

/-! ### Eviction -/

/-- A page's frame released (08 Table 8-3): its lines leave every bank, its repairs are abandoned (11 R284). -/
def Chip.releaseFrame (s : Chip) (p : Nat) : Chip :=
  let s1 := (s.lcc.banks.map (·.1)).foldl (fun t b => t.dropLines b fun a => a / 1024 == p) s
  let g := s1.page p
  let banks := s1.lcc.banks.map fun e => (e.1, { e.2 with repairs := e.2.repairs.filter fun r => pageOfLine r.line != p })
  let s2 := { s1 with
    lcc := { s1.lcc with banks },
    pgm := { s1.pgm with frames := Memory.clear s1.pgm.frames (p * 65536) 65536, freed := s1.pgm.freed ++ g.frame.toList,
                         poison := s1.pgm.poison.filter (· / 1024 != p), wrote := s1.pgm.wrote.filter fun e => pageOfLine e.1 != p } }
  s2.setPage p Page.blank

/-- Every bank confirms the invalidation of an EVICTING page (08 R194): its frame is released. One that has been pinned meanwhile is kept:
its eviction is abandoned (05 R123, 08 R195). -/
def evictionConfirmedEffect (p : Nat) (s : Chip) : Chip :=
  if (s.page p).st != .evicting then s
  else if s.pinnedPage p then s.setPage p { s.page p with st := .clean }
  else ((s.releaseFrame p).issueFetches).evict

def execEvictionConfirmed (page : Nat) (s : State) : Host.Outcome State Fault Refusal := .next (s.on (evictionConfirmedEffect page))

/-- PGM_COLD_HOLD has passed since a COLD page's last demand (08 R196). -/
def coldHoldEffect (p : Nat) (s : Chip) : Chip :=
  let g := s.page p
  if g.st == .clean && s.classOf p == 2 && !g.pinned then s.evictPage p else s

def execColdHoldExpiry (page : Nat) (s : State) : Host.Outcome State Fault Refusal := .next (s.on (coldHoldEffect page))

/-! ### Fills -/

/-- The miss register of a bank emptied. -/
def Chip.clearMiss (s : Chip) (b : Nat) : Chip := s.modBank b fun k => { k with miss := none, waits := [] }

/-- After a fill: the pin of a locked line that it was to refill judged (07 R177, R186), and the next queued miss. -/
def Chip.afterFill (s : Chip) (b : Nat) (x : Miss) : Chip :=
  (if x.locked then s.repin (pageOfLine x.line) else s).serveQueue b

/-- The waiters of a fill answered (07 R172), each with the bytes as its read gives them (11 R278). -/
def Chip.answerFill (s : Chip) (slip : List Byte) (waits : List LineWait) : Chip :=
  waits.foldl (fun t w =>
    let off := match t.msg w.conn w.first with
      | some m => m.off w.idx
      | none => 0
    t.answer { w with data := slipped slip w.mask off w.data }) s

/-- A fill whose line is good (07 R172): installed unless it was cancelled, and every merged reader answered. `slip` is what the read
adds to the line's true bytes (11 R278). -/
def Chip.fillGood (s : Chip) (b : Nat) (x : Miss) (slip : List Byte) (waits : List LineWait) : Chip :=
  let s1 := s.clearMiss b
  let s2 := if x.install && s.arrays b && x.way < 16 then
      s1.modBank b fun k =>
        let k1 := k.putWay x.set x.way { tag := s.cacheTag x.line, locked := x.locked && x.way < s.lockWays,
                                         data := slipped slip x.mask.toNat 0 x.data }
        { k1 with plru := Tab.ins k1.plru x.set (plruTouch (Tab.get k1.plru 0 x.set) x.way) }
    else s1
  (s2.answerFill slip waits).afterFill b x

/-- A miss fill returns (07 R172, 11 R279, R282), once its read has left the bank. An uncorrectable line that a full-line WRITE
has rewritten meanwhile needs no repair: the WRITE's bytes stand. A ninth repair of a bank waits. -/
def cacheFillEffect (b : Nat) (errs : List (Nat × Byte)) (s : Chip) : Chip :=
  let k := s.bank b
  match k.miss with
  | none => s
  | some x =>
    if s.inThrottle x.line || s.halted x.line || !k.readLeft x.line then s
    else
      let whole := x.mask.toNat == 2 ^ 64 - 1
      let s0 := s.readBack x.line
      let r := s0.readBurst x.line errs
      match r.1 with
      | .good => r.2.fillGood b x (s0.slip x.line errs) k.waits
      | .corrected => r.2.fillGood b x (s0.slip x.line errs) k.waits
      | .uncorrectable =>
        if whole then (k.waits.foldl Chip.returnOp (r.2.clearMiss b)).afterFill b x
        else if !s.repairRoom b x.line then s
        else ((k.waits.foldl Chip.returnOp (r.2.clearMiss b)).startRepair b x.line).afterFill b x
      | _ => (k.waits.foldl (fun t w => t.lineBad w.conn w.first w.idx 0x08) (r.2.clearMiss b)).afterFill b x

def execCacheFillReturn (bank : Nat) (errs : List (Nat × Byte)) (s : State) : Host.Outcome State Fault Refusal :=
  .next (s.on (cacheFillEffect bank errs))

/-- Reads at the head of a bank's buffer leave for their channels: no earlier write-through entry is left (07 R169). -/
def Chip.flushReads : Nat → Chip → Nat → Chip
  | 0, s, _ => s
  | n + 1, s, b => match (s.bank b).wtb with
    | .read line tag awaited :: rest =>
      if s.chanFull line tag then s else Chip.flushReads n ((s.modBank b fun k => { k with wtb := rest }).dramRead line tag awaited) b
    | _ => s

/-- A write-through entry reaches its channel: one narrower than its line is read first (10 R264). -/
def Chip.drainWrite (s : Chip) (line : Nat) (tag : Src) (narrow : Bool) : Chip :=
  if narrow then (s.dramRead line tag false).dramWrite line tag else s.dramWrite line tag

/-- The oldest write-through entry leaves its bank for its channel, and the reads accepted next after it (07 R169). -/
def writeThroughEffect (b : Nat) (s : Chip) : Chip :=
  match (s.bank b).wtb with
  | .read .. :: _ => Chip.flushReads (s.bank b).wtb.length s b
  | .write line tag narrow :: rest =>
    if s.classFull line 3 then s
    else
      let s1 := (s.modBank b fun k => { k with wtb := rest, marks := k.marks - 1 }).drainWrite line tag narrow
      (Chip.flushReads rest.length s1 b).serveQueue b
  | [] => s

def execWriteThroughDrain (bank : Nat) (s : State) : Host.Outcome State Fault Refusal := .next (s.on (writeThroughEffect bank))

/-! ### Repairs -/

/-- Outcomes of repairs counted (11 R282). -/
def Chip.repairCount (s : Chip) (line k : Nat) : Chip := match s.chanOf line with
  | some n => s.count (0xB00600 + 0x20 * n + 4 * k)
  | none => s

/-- The repair of a line leaves its bank. -/
def Chip.endRepair (s : Chip) (line : Nat) : Chip :=
  s.modBank (s.bankOf line) fun k => { k with repairs := k.repairs.filter (·.line != line) }

/-- A repaired line written back behind its bank's earlier entries (01 R16); a second uncorrectable read of a line that a repair has
written back remaps it (11 R290). -/
def Chip.writeBack (s : Chip) (line : Nat) : Chip :=
  let s1 := s.sendWrite (s.bankOf line) line .mei false
  match s.frameLineNo line with
  | some fl =>
    let n := (s.placeOf fl).ch
    if (s.chan n).ueOnce.contains (s.chanLine fl) then s1.allocRemap fl 1
    else s1.modChan n fun k => { k with ueOnce := s.chanLine fl :: k.ueOnce }
  | none => s1

/-- A line has been written since its page's last destage (11 R284). -/
def Chip.writtenSince (s : Chip) (line : Nat) : Bool := match Tab.find s.pgm.wrote line with
  | some n => (s.page (pageOfLine line)).sealed < n
  | none => false

/-- A repair that ends in poison (11 R284). -/
def Chip.poisonLine (s : Chip) (line : Nat) : Chip :=
  let p := pageOfLine line
  let g := s.page p
  let region := match s.regionOf p with
    | some e => e.1
    | none => 0xFFFF
  let s1 := (s.dropLines (s.bankOf line) (· == line)).writeLine line (List.replicate 64 0) (2 ^ 64 - 1)
  let s2 := { s1 with pgm := { s1.pgm with poison := if s1.pgm.poison.contains line then s1.pgm.poison else line :: s1.pgm.poison } }
  let s3 := (s2.writePage p false).raise 0x0B ((s.chanOf line).getD 0xFFFF) 2 3 0
    (le 8 (line * 64) ++ le 2 region ++ le 1 g.st.code ++ le 1 (b2n (s.writtenSince line)))
  s3.writeBack line

/-- The stored copy of a line can be had: its sector read back (09 R249), and no lost mask names it (11 Table 11-2 order 2). -/
def Chip.storedReads (s : Chip) (line : Nat) (stored : Bool) : Bool :=
  let l := s.leaf (pageOfLine line)
  let sec := line / 64 % 16
  stored && !bit (s.page (pageOfLine line)).lost sec && !(l.kind == 2 && bit l.lost sec)

/-- The bytes that orders 0 to 2 give a line (11 Table 11-2), with the order: `first` tells that zeros or the stored copy could serve
when the repair began, `stored` that its sector read back. -/
def Chip.ownSource (s : Chip) (line : Nat) (first stored : Bool) : Option (Nat × List Byte) :=
  let p := pageOfLine line
  let g := s.page p
  let b := s.bankOf line
  match (if s.arrays b && !s.lcc.staleRisk then (s.bank b).find (s.cacheSet line) (s.cacheTag line) else none) with
  | some (_, l) => some (0, l.data)
  | none =>
    if !(first || g.calm) then none
    else if (s.leaf p).kind == 0 && g.st != .lostPartial then some (1, List.replicate 64 0)
    else if s.storedReads line stored then some (2, Memory.readN 0 s.str.stored (line * 64) 64)
    else none

/-- The bytes that the twin's answer gives a line (11 Table 11-2 order 3): what it does not cover comes from the stored copy. -/
def Chip.twinSource (s : Chip) (line : Nat) (stored : Bool) : Option (Nat × List Byte) :=
  match s.twinGave (line * 64) 64 with
  | some (mask, data) =>
    if mask % 2 ^ 64 == 2 ^ 64 - 1 || s.storedReads line stored then
      some (3, overlay (Memory.readN 0 s.str.stored (line * 64) 64) data mask)
    else none
  | none => none

/-- A line repair ends with a source's bytes, or in poison; a page it kept from its destage may be taken again. -/
def Chip.repaired (s : Chip) (line : Nat) (src : Option (Nat × List Byte)) : Chip :=
  let s1 := (s.endRepair line).dropAsk (line * 64) 64
  let t := match src with
    | some (k, bytes) => ((s1.repairCount line k).writeLine line bytes (2 ^ 64 - 1)).writeBack line
    | none => (s1.repairCount line 5).poisonLine line
  t.serveQueue (s.bankOf line)

/-- A line repair ends (11 R282 to R284): the line is written back, or poison; a released frame abandons it. Each source is judged by the
page's state when it begins: where none of orders 0 to 2 serves, the twin is asked if order 3 does then, and the repair goes on till
it has answered. -/
def repairEndEffect (line : Nat) (stored : Bool) (s : Chip) : Chip :=
  match (s.bank (s.bankOf line)).repairs.find? (·.line == line) with
  | none => s
  | some r =>
    if !(s.page (pageOfLine line)).resident then (s.endRepair line).dropAsk (line * 64) 64
    else match (if r.tried then none else s.ownSource line r.first stored) with
      | some x => s.repaired line (some x)
      | none =>
        if s.askWaits (line * 64) 64 then s
        else if (s.asked (line * 64) 64).isNone && s.twinAsked line then
          (s.modBank (s.bankOf line) fun k =>
            { k with repairs := k.repairs.map fun x => if x.line == line then { x with tried := true } else x }).askTwin (line * 64) 64
        else s.repaired line (s.twinSource line stored)

def execRepairEnd (line : Nat) (stored : Bool) (s : State) : Host.Outcome State Fault Refusal :=
  .next (s.on (repairEndEffect line stored))

/-! ### Maintenance -/

/-- Lines that PINNED regions claim, and locked pages of other regions: what PGM_PIN_LIMIT bounds (08 R197). -/
def spanPages : Nat → List (Nat × Nat) → Nat
  | _, [] => 0
  | upto, (lo, hi) :: r => (hi - Nat.max lo upto) + spanPages (Nat.max upto hi) r

/-- Pages that live regions of some kind cover, each counted once (05 R129). -/
def pagesOf (l : List Region) : Nat :=
  spanPages 0 ((l.map fun r => (r.base, r.base + r.len)).mergeSort fun a b => a.1 ≤ b.1)

/-- Pages claimed against PGM_PIN_LIMIT. -/
def Chip.pinClaims (s : Chip) : Nat :=
  pagesOf ((s.rgn.table.filter fun e => e.2.live && e.2.cls == 0).map (·.2)) +
  (s.pgm.pages.filter fun e => e.2.pinned && s.classOf e.1 != 0).length

/-- A line that a PRELOAD could not load, counted (07 R176). -/
def Chip.preloadFails (s : Chip) (b : Nat) : Chip := { s.bankCount b 0x14 with lcc := { s.lcc with result := 1 } }

/-- The free locked way of a line's set, the lowest. -/
def Chip.lockFree (s : Chip) (line : Nat) : Option Nat :=
  let k := s.bank (s.bankOf line)
  let set := s.cacheSet line
  (List.range s.lockWays).find? fun w => !k.retired set w && (Tab.find (Tab.get k.lines [] set) w).isNone

/-- The cached copy of a line: way and entry. -/
def Chip.cachedAt (s : Chip) (line : Nat) : Option (Nat × CacheLine) :=
  (s.bank (s.bankOf line)).find (s.cacheSet line) (s.cacheTag line)

/-- A line of a PRELOAD can be locked (07 R176): it is not locked yet, a locked way is free, and its bytes can be had. -/
def Chip.canLock (s : Chip) (line : Nat) : Bool :=
  let b := s.bankOf line
  let bad := s.poisoned line || bit (s.page (pageOfLine line)).lost (line / 64 % 16) || (s.bank b).repairs.any (·.line == line)
  (s.lockFree line).isSome && (match s.cachedAt line with
    | some (w, _) => s.lockWays ≤ w
    | none => !bad)

/-- One line of a PRELOAD (07 R176): into a free locked way of its set, or counted as failed. The page is resident; a fill of
the line that is under way is not installed, so that the set holds the line once. -/
def Chip.preloadLine (s : Chip) (line : Nat) : Chip :=
  let b := s.bankOf line
  let set := s.cacheSet line
  let put (t : Chip) (w : Nat) (data : List Byte) : Chip :=
    (((t.modBank b fun k => k.putWay set w { tag := s.cacheTag line, locked := true, data }).cancelFill b (· == line))).repin (pageOfLine line)
  match s.lockFree line, s.cachedAt line with
  | some f, some (w, l) => if w < s.lockWays then s else put (s.modBank b fun k => k.dropWay set w) f l.data
  | some f, none => if s.canLock line then put (s.sendRead b line .lcc false) f (s.frameLine line) else s.preloadFails b
  | none, some (w, _) => if w < s.lockWays then s else s.preloadFails b
  | none, none => s.preloadFails b

/-- A PRELOAD runs on over its range until a page is missing or its drives are not ready, the pinning limit is met, or the
range ends. Each line of it is a demand for its page (08 R193). A line that would be newly locked meets the limit where it would pin
its page (07 R177). -/
def Chip.preloadOn : Nat → Chip → Chip
  | 0, s => s
  | n + 1, s =>
    match s.lcc.todo with
    | none => s
    | some (_, 0) => { s with lcc := { s.lcc with todo := none } }
    | some (line, left + 1) =>
      let p := pageOfLine line
      let t := s.demand p 4
      if !(s.page p).resident || s.unready p then t
      else if t.canLock line && !(t.pinnedPage p) && s.par 0x70001C < t.pinClaims + 1 then
        { t with lcc := { t.lcc with todo := none, result := 1 } }
      else Chip.preloadOn n (({ t with lcc := { t.lcc with todo := some (line + 1, left) } }).preloadLine line)

/-- The PRELOAD that runs, if one does, carried on. -/
def Chip.preload (s : Chip) : Chip := match s.lcc.todo with
  | some (_, n) => Chip.preloadOn (n + 1) s
  | none => s

/-- The words of LCC_MAINT for an operation (17 Table 17-10). -/
def maintWord0 (m : MaintReq) : Nat := Nat.min m.set 3071 + m.way % 16 * 2 ^ 16 + m.bank % 256 * 2 ^ 24

/-- OP, MODE, FORCE and ALL of word 1. -/
def maintWord1 (op : Nat) (m : MaintReq) : Nat := op + b2n m.setWay * 8 + b2n m.force * 16 + b2n m.all * 32

/-- A maintenance operation that is refused at once (07 R178, R181, Table 7-1; 13 Table 13-6). -/
def Chip.maintRefused (s : Chip) (op : Nat) (m : MaintReq) : Bool :=
  s.glb.state == .eclipse || s.glb.state == .sealed || s.glb.state == .fault ||
  (m.setWay && m.bank % 256 != 255 && (s.nBanks ≤ m.bank % 256 || bit s.cmt.fencedRegions (m.bank % 256 / 16))) ||
  (op == 4 && (m.setWay || s.lockWays == 0))

/-- The banks whose write-through buffers a CLEAN waits for. -/
def Chip.cleanBanks (s : Chip) (m : MaintReq) : List Nat :=
  if m.setWay && !m.all && m.bank % 256 != 255 then [m.bank % 256] else List.range s.nBanks

/-- A number of lines brought to 1 to 2^41 (07 R178). -/
def lenInRange (n : Nat) : Nat := Nat.max 1 (Nat.min n (2 ^ 41))

/-- A request with its length and set brought into their ranges (07 R178, 17 R427). -/
def maintInRange (m : MaintReq) : MaintReq := { m with len := lenInRange m.len, set := Nat.min m.set 3071 }

/-- LCC_MAINT_LEN brought to 1 to 2^41 lines once its high word is written (07 R178, R188; 17 R418): one clamp, reported in
the highest word that it changes (log 134). -/
def Chip.clampLen (s : Chip) (src : Nat) : Bool × Chip :=
  let n := s.par 0x6E0018 + s.par 0x6E001C <<< 32
  let u := lenInRange n
  if u == n then (false, s)
  else
    let t := (s.setPar 0x6E0018 (u % 2 ^ 32)).setPar 0x6E001C (u / 2 ^ 32)
    (true, if u / 2 ^ 32 == n / 2 ^ 32 then t.clamped (regField 0x6E0018 0) (n % 2 ^ 32) (u % 2 ^ 32) src
      else t.clamped (regField 0x6E001C 0) (n / 2 ^ 32) (u / 2 ^ 32) src)

/-- The registers that a command writes before word 1 of LCC_MAINT (17 Table 17-10, R418): by range LCC_MAINT_BASE and
LCC_MAINT_LEN; by set and way SET, which is not written while an operation runs. -/
def Chip.maintGiven (s : Chip) (m : MaintReq) : Chip :=
  if m.setWay then
    (if s.lcc.busy || m.set ≤ 3071 then s else s.clamped (regField 0x6E0008 0) m.set 3071 1)
  else
    let s0 := { s with lcc := { s.lcc with baseLow := m.base % 2 ^ 32, lenLow := m.len % 2 ^ 32 } }
    let s1 := (s0.setPar 0x6E0010 (m.base % 2 ^ 32)).setPar 0x6E0014 (m.base / 2 ^ 32 % 2 ^ 32)
    (((s1.setPar 0x6E0018 (m.len % 2 ^ 32)).setPar 0x6E001C (m.len / 2 ^ 32 % 2 ^ 32)).clampLen 1).2

/-- A maintenance operation starts, is refused, or meets one that runs (07 R178; log 106). -/
def maintEffect (op : Nat) (m : MaintReq) (s : Chip) : Chip :=
  if s.lcc.busy then ({ s with lcc := { s.lcc with overrun := true } }).count 0x6E0024
  else
    let s1 := { s with lcc := { s.lcc with word0 := maintWord0 m, word1 := maintWord1 op m } }
    if s.maintRefused op m then { s1 with lcc := { s1.lcc with result := 2 } }
    else
      let s2 := { s1 with lcc := { s1.lcc with
        op := op, req := (maintInRange m), busy := true, result := 0,
        todo := if op == 4 then some (m.base, (maintInRange m).len) else none } }
      if op == 1 || op == 3 then (s.cleanBanks m).foldl (fun t b => t.modBank b fun k => { k with marks := k.writes }) s2
      else if op == 4 then s2.preload
      else s2

/-- An operation commanded by a session with the installer role: the registers that describe it, then LCC_MAINT
(17 Table 17-10). -/
def maintCommand (ses : Session) (op : Nat) (m : MaintReq) (s : Chip) : Chip := 
  s.asRole ses 23 2 fun t => maintEffect op m (t.maintGiven m)

def execClean (ses : Session) (m : MaintReq) (s : State) : Host.Outcome State Fault Refusal := .next (s.on (maintCommand ses 1 m))
def execInvalidate (ses : Session) (m : MaintReq) (s : State) : Host.Outcome State Fault Refusal :=
  .next (s.on (maintCommand ses 2 m))
def execCleanInvalidate (ses : Session) (m : MaintReq) (s : State) : Host.Outcome State Fault Refusal :=
  .next (s.on (maintCommand ses 3 m))
def execPreload (ses : Session) (m : MaintReq) (s : State) : Host.Outcome State Fault Refusal :=
  .next (s.on (maintCommand ses 4 m))

/-- A line lies in what an INVALIDATE names. -/
def maintNames (m : MaintReq) (b a set way : Nat) : Bool :=
  if m.setWay then (m.bank % 256 == 255 || m.bank % 256 == b) && (m.all || (m.set == set && m.way % 16 == way))
  else m.base ≤ a && a < m.base + m.len

/-- The invalidation of an operation at every bank it reaches; locked lines that FORCE = 0 skips are counted (R179). -/
def Chip.maintInvalidate (s : Chip) (m : MaintReq) : Chip :=
  (List.range s.nBanks).foldl (fun t b =>
    let skipped := ((t.bank b).all.filter fun x => x.2.2.locked && !m.force && maintNames m b (t.lineAt b x.1 x.2.2.tag) x.1 x.2.1).length
    let t1 := (t.invalidate b fun a set way l => maintNames m b a set way && (m.force || !l.locked)).cancelFill b fun a =>
      maintNames m b a (t.cacheSet a) (match (t.bank b).miss with
        | some x => x.way
        | none => 0)
    if skipped == 0 then t1 else t1.bankCount b 0x18 skipped) s

/-- The operation is a full invalidate (07 R185). -/
def maintFull (m : MaintReq) : Bool := m.setWay && m.all && m.bank % 256 == 255 && m.force

/-- An error that a maintenance walk finds in the entry of a line it examines (07 R186), handled as in service. -/
def Chip.walkError (s : Chip) (line arr : Nat) : Chip :=
  let b := s.bankOf line
  let named := s.lcc.op == 4 || s.lcc.op == 2 || s.lcc.op == 3
  match s.cachedAt line with
  | some (w, _) =>
    if named && maintNames s.lcc.req b line (s.cacheSet line) w then
      let e := s.arrayError b line arr
      e.1.relockLine b line e.2
    else s
  | none => s

/-- The burst of a line that a PRELOAD has read (11 R280, R282): an uncorrectable one leaves its way, and is repaired. -/
def Chip.preloadBurst (s : Chip) (line : Nat) (errs : List (Nat × Byte)) : Chip :=
  let b := s.bankOf line
  match s.cachedAt line with
  | some (w, l) =>
    if s.lcc.op == 4 && l.locked && maintNames s.lcc.req b line (s.cacheSet line) w then
      let r := s.readBurst line errs
      if r.1 == .uncorrectable then
        (((r.2.modBank b fun k => k.dropWay (s.cacheSet line) w).repin (pageOfLine line)).preloadFails b).startRepair b line
      else r.2.modBank b fun k => k.putWay (s.cacheSet line) w { l with data := slipped (s.slip line errs) 0 0 l.data }
    else s
  | none => s

/-- A maintenance operation ends (07 R178): a CLEAN once the entries it waits for have drained, a PRELOAD once its range is
done. `arr` are the errors that its walk met in the arrays, by line, `errs` those of the bursts that a PRELOAD read. -/
def maintenanceCompleteEffect (arr : List (Nat × Nat)) (errs : List (Nat × List (Nat × Byte))) (s0 : Chip) : Chip :=
  if !s0.lcc.busy then s0
  else
    let clean := s0.lcc.op == 1 || s0.lcc.op == 3
    if clean && s0.lcc.banks.any (fun e => e.2.marks != 0) then s0
    else
      let s := arr.foldl (fun t e => t.walkError e.1 e.2) s0
      let s1 := if s.lcc.op == 2 || s.lcc.op == 3 then s.maintInvalidate s.lcc.req
        else errs.foldl (fun t e => t.preloadBurst e.1 e.2) s.preload
      if s1.lcc.todo.isSome then s1
      else
        let full := (s.lcc.op == 2 || s.lcc.op == 3) && maintFull s.lcc.req
        let en := s.par 0x6E0000 % 2 == 1
        { s1 with lcc := { s1.lcc with
          busy := false, op := 0, cleared := s1.lcc.cleared || full, staleRisk := s1.lcc.staleRisk && !(full && en) } }

def execMaintenanceComplete (arr : List (Nat × Nat)) (errs : List (Nat × List (Nat × Byte))) (s : State) : Host.Outcome State Fault Refusal :=
  .next (s.on (maintenanceCompleteEffect arr errs))

/-- LCC_CTL.EN written (07 R184, R185). -/
def cacheEnableEffect (en : Bool) (s : Chip) : Chip :=
  let w := s.par 0x6E0000
  let was := w % 2 == 1
  let s1 := s.setPar 0x6E0000 (setBit w 0 en)
  if was && !en then
    let t := (s1.lcc.banks.map (·.1)).foldl (fun t b => t.cancelFill b fun _ => true) s1
    { t with lcc := { t.lcc with cleared := false, enAck := true } }
  else if !was && en && !s.lcc.cleared then
    ({ s1 with lcc := { s1.lcc with staleRisk := true, enAck := true } }).raise 0x06 0xFFFF 1 2 0 []
  else s1

def execCacheEnableWrite (ses : Session) (en : Bool) (s : State) : Host.Outcome State Fault Refusal :=
  .next (s.on fun t => t.asRole ses 23 2 (cacheEnableEffect en))

/-- LCC_CTL.LOCK_WAYS set (07 R175): ways it locks are invalidated and filled by no fill under way, ways it unlocks keep their lines as ordinary ones. -/
def Chip.setLockWays (s : Chip) (n : Nat) : Chip :=
  let w := s.par 0x6E0000
  let old := s.lockWays
  let s1 := s.setPar 0x6E0000 (w - old * 256 + n * 256)
  let taken (way : Nat) : Bool := old ≤ way && way < n
  if old < n then
    (List.range s.nBanks).foldl (fun t b => (t.invalidate b fun _ _ way _ => taken way).cancelFill b fun _ =>
      match (t.bank b).miss with
      | some x => taken x.way
      | none => false) s1
  else
    let pages := (s1.pgm.pages.filter fun e => e.2.pinned).map (·.1)
    let banks := s1.lcc.banks.map fun e => (e.1, { e.2 with lines := e.2.lines.map fun r => (r.1, r.2.map fun x =>
      (x.1, if n ≤ x.1 then { x.2 with locked := false } else x.2)) })
    pages.foldl Chip.repin { s1 with lcc := { s1.lcc with banks } }

/-- LOCK_WAYS written, a value above 8 clamped and reported (07 R175, 14 R365). -/
def lockWaysEffect (n : Nat) (s : Chip) : Chip :=
  let v := n % 16
  let s1 := if 8 < v then s.clamped (regField 0x6E0000 8) v 8 1 else s
  s1.setLockWays (Nat.min v 8)

def execLockWaysWrite (ses : Session) (n : Nat) (s : State) : Host.Outcome State Fault Refusal :=
  .next (s.on fun t => t.asRole ses 23 2 (lockWaysEffect n))

/-! ### A page fetch completes -/

/-- The fetch estimate of a set updated by a measured time in 1/64 µs (04 R110). -/
def Chip.fetchTime (s : Chip) (set : Nat) (t : Nat) : Chip :=
  s.modSet set fun k =>
    let dev := ((t : Int) - k.m).natAbs
    { k with v := k.v + Int.tdiv ((dev : Int) - k.v) 4, m := k.m + Int.tdiv ((t : Int) - k.m) 8 }

/-- Delta lines cover every byte of a sector of a page (08 R200 step 3). -/
def Chip.sectorCovered (s : Chip) (p sec : Nat) : Bool :=
  (rangeFrom (p * 1024 + sec * 64) 64).all fun line => match Tab.find s.pgm.deltas line with
    | some d => d.mask.toNat == 2 ^ 64 - 1
    | none => false

/-- A lost sector: its delta lines discarded, recorded and counted (08 R200, R205; log 53). -/
def Chip.loseSector (s : Chip) (p sec : Nat) : Chip :=
  let gone := (s.deltasOf p).filter fun e => e.1 / 64 % 16 == sec
  let s1 := { s with pgm := { s.pgm with deltas := s.pgm.deltas.filter fun e => !(gone.any (·.1 == e.1)) } }
  (s1.count 0x700038).raise 0x07 0xFFFF 1 3 0
    (le 8 (p * 65536 + sec * 4096) ++ le 4 4096 ++ le 1 PageState.fetching.code ++ le 1 (b2n !gone.isEmpty) ++ le 4 gone.length)

/-- The waiters of a fetch released in order (08 R199, R202, R204); one whose line is under repair is returned (11 R282). -/
def Chip.releaseWaiter (s : Chip) (w : LineWait) : Chip :=
  let lost := bit (s.page (pageOfLine w.line)).lost (w.line / 64 % 16)
  let b := s.bankOf w.line
  match s.msg w.conn w.first with
  | none => s
  | some m =>
    match w.kind with
    | .atomic =>
      let free := s.modBank b fun k => { k with atomic := k.atomic.filter (·.1 != w.line) }
      if lost then free.lineBad w.conn w.first w.idx 0x09
      else if (s.bank b).repairs.any (·.line == w.line) then (free.modMsg w.conn w.first fun m => { m with busy := 0 }).parkNow w.conn w.first
      else s.sendRead b w.line (.conn w.conn) true
    | _ =>
      if lost then s.lineBad w.conn w.first w.idx 0x09
      else if (s.bank b).repairs.any (·.line == w.line) then s.returnOp w
      else (s.holdRead w.conn w.first b w.line).readDone w.conn w.first w.idx (slice (s.frameLine w.line) (m.off w.idx) (m.num w.idx))

/-- The chunk that a leaf entry names, whatever has been lost of it. -/
def Leaf.chunk (l : Leaf) : Leaf := { l with kind := 1, lost := 0 }

/-- The bytes of a page's chunk on the drives: of one that this unit has not written, they are the drives' own (09 R243;
log 126). -/
def Chip.learn (s : Chip) (p : Nat) : Chip :=
  let l := s.leaf p
  if l.kind == 0 || Tab.find s.str.chunks p == some l.chunk then s
  else
    let d := s.draw
    let bytes := (List.range 65536).map fun k => Config.foundByte (p * 65536 + k) d.1
    { d.2 with str := { d.2.str with stored := Memory.writeN 0 (Memory.clear d.2.str.stored (p * 65536) 65536) (p * 65536) bytes,
                                     chunks := Tab.ins d.2.str.chunks p l.chunk } }

/-- The page's bytes put in its frame: the stored copy, or zeros for a page of kind ZERO, the sectors that the twin gave in
place of unread ones, and every delta line laid over them (08 R199, R200, R204). -/
def Chip.mergeDeltas (s : Chip) (p : Nat) (failed : List Nat) : Chip :=
  let copy := if (s.leaf p).kind == 0 then Memory.clear s.pgm.frames (p * 65536) 65536
    else Memory.lay 0 s.pgm.frames (p * 65536) 65536 (Memory.sub s.str.stored (p * 65536) 65536)
  let frames := failed.foldl (fun m i => match s.sectorGiven p i with
    | some data => Memory.writeN 0 m (sectorAddr p i) data
    | none => m) copy
  let s1 := { s with pgm := { s.pgm with frames, poison := s.pgm.poison.filter (· / 1024 != p) } }
  let s2 := (s.deltasOf p).foldl (fun t e =>
    let u := t.writeLine e.1 e.2.data e.2.mask.toNat
    { u with pgm := { u.pgm with wrote := Tab.ins u.pgm.wrote e.1 u.pgm.stamp } }) s1
  { s2 with pgm := { s2.pgm with deltas := s2.pgm.deltas.filter fun e => pageOfLine e.1 != p } }

/-- The read of a line that a merge lays a narrow delta over (11 R282): an uncorrectable one is repaired. -/
def Chip.mergeRead (s : Chip) (line : Nat) (errs : List (Nat × Byte)) : Chip :=
  if errs.isEmpty then s
  else
    let r := s.readBurst line errs
    if r.1 == .uncorrectable then r.2.startRepair (s.bankOf line) line else r.2

/-- A page fetch whose sectors have been asked for completes (08 R199 to R205, Table 8-3): `unread` are the sectors that
the drives and reconstruction did not give, `time` the measured time in 1/64 µs, `errs` the symbols in error of the lines that the
merge reads back. A COLD page's hold runs from now (R196) (log 162). -/
def Chip.finishFetch (s0 : Chip) (p : Nat) (unread : List Nat) (time : Nat) (errs : List (Nat × List (Nat × Byte))) : Chip :=
  let s := s0.learn p
  let g := s.page p
  let leaf := s.leaf p
  let drives := leaf.kind != 0
  let failed := (List.range 16).filter fun i => unread.contains i || (drives && leaf.kind == 2 && bit leaf.lost i)
  let gone := failed.filter fun i => !(unread.contains i && (s.sectorGiven p i).isSome) && !s.sectorCovered p i
  let news := gone.filter fun i => !(leaf.kind == 2 && bit leaf.lost i) || (s.deltasOf p).any fun e => e.1 / 64 % 16 == i
  let s1 := news.foldl (fun t i => t.loseSector p i) (if drives then s.fetchTime leaf.set time else s)
  let merged := !(s1.deltasOf p).isEmpty
  let s2 := (s1.mergeDeltas p unread).dropSectors (unread.map fun i => (p, i))
  let lost := gone.foldl (fun m i => setBit m i true) 0
  let dirty := merged || g.reloc || !news.isEmpty || g.charged
  let st := if lost != 0 then PageState.lostPartial else if dirty then .dirty else .clean
  let stamp := s2.pgm.stamp + (if news.isEmpty then 0 else 1)
  let s3 := { s2 with pgm := { s2.pgm with stamp, eager := s2.pgm.eager.filter (· != p), replayed := s2.pgm.replayed.filter (· != p) } }
  let fresh := if news.isEmpty then g.fresh else stamp
  let g1 := { g with st, lost, reloc := false, issued := none, use := true, chain := none, fresh, demand := s.now }
  let f := g.frame.getD 0
  let cls := if 2 ≤ s.ecl.step && s.ecl.step ≤ 4 then 1 else if g.cls ≤ 5 then 3 else 4
  let s4 := (((s3.dropChains g.chain.toList).setPage p g1).frameWritten f).sweepPage p cls .pgm true
  let narrow := ((s.deltasOf p).filter fun e => e.2.mask.toNat != 2 ^ 64 - 1 && !bit lost (e.1 / 64 % 16)).map (·.1)
  let s5 := narrow.foldl (fun t l => t.mergeRead l (Tab.get errs [] l)) (if dirty then s4.charge p else s4)
  let waits := s.pgm.fetchWaits.filter fun (w : LineWait) => pageOfLine w.line == p
  let s6 := { s5 with pgm := { s5.pgm with fetchWaits := s5.pgm.fetchWaits.filter fun (w : LineWait) => pageOfLine w.line != p } }
  let s7 := waits.foldl Chip.releaseWaiter s6
  let s8 := { s7 with xpt := { s7.xpt with conns := s7.xpt.conns.map fun (e : Nat × Conn) => (e.1, { e.2 with fetches := e.2.fetches.filter (· != p) }) } }
  ((s8.preload).issueFetches).evict

/-- A sector that reconstruction gave: it was read from the rest of the stripe, and goes back to its position (09 R249). -/
def Chip.mendSector (s : Chip) (p sec : Nat) : Chip :=
  let l := s.leaf p
  let t := s.set l.set
  let lba := slotLba l.slot + 1 + sec
  let s1 := (t.others l.slot l.col).foldl (fun u q => u.posCmd l.set q 4 (.read lba 1)) s
  match (t.copies l.slot l.col).find? (t.readable l.slot) with
  | some q => s1.lockWrite l.set l.slot q 4 (.write lba 1 (Memory.readN 0 s1.str.stored (sectorAddr p sec) 4096)) (.repair l.set l.slot)
  | none => s1

/-- The drive that holds the copy of a page's column which a fetch reads first, if one can be read. -/
def Chip.ownDrive (s : Chip) (p : Nat) : Option Nat :=
  let l := s.leaf p
  let t := s.set l.set
  ((t.copies l.slot l.col).find? (t.readable l.slot)).bind fun q => (t.pos[q]?).bind (·.drive)

/-- A write to the place of a page's column runs under the repair lock of its slot (09 R249). -/
def Chip.inRepair (s : Chip) (p : Nat) : Bool :=
  let l := s.leaf p
  s.str.locks.any fun e => e.1 == l.set && e.2.1 == l.slot && s.ownDrive p == some e.2.2.1

/-- Sectors that reconstruction gave go back to their position; a fetch whose place was under repair takes that repair's result. -/
def Chip.mendSectors (s : Chip) (p : Nat) (l : List Nat) : Chip :=
  if s.str.reuse.contains p then { s with str := { s.str with reuse := s.str.reuse.filter (· != p) } }
  else l.foldl (fun t i => t.mendSector p i) s

/-- A page fetch completes: `bad` are the sectors that neither the drives nor reconstruction gave, `fixed` those that
reconstruction did, `errs` the symbols in error of lines that the merge reads back. The twin is asked for the bad ones first: the fetch
goes on until it has answered (08 R200 step 2), and until a repair that it finds in progress has ended (09 R249). -/
def fetchCompleteEffect (p : Nat) (bad fixed : List Nat) (time : Nat) (errs : List (Nat × List (Nat × Byte))) (s0 : Chip) : Chip :=
  let g := s0.page p
  if g.st != .fetching || g.issued.isNone then s0
  else
    let leaf := s0.leaf p
    let held (i : Nat) : Bool := leaf.kind != 0 && !(leaf.kind == 2 && bit leaf.lost i)
    let unread := (List.range 16).filter fun i => held i && bad.contains i
    let s := s0.askSectors (unread.map fun i => (p, i))
    let mend := (List.range 16).filter fun i => held i && fixed.contains i && !bad.contains i
    if unread.any fun i => s.askWaits (sectorAddr p i) 4096 then s
    else if !mend.isEmpty && s.inRepair p then { s with str := { s.str with reuse := (s.str.reuse ++ [p]).eraseDups } }
    else ((s.learn p).mendSectors p mend).finishFetch p unread time errs

end Sys2Proof.Machine
end

