-- ==== Sys2Proof/Machine/Bpm.lean ====
section
/-!
DEFINITION. The chain operations an agent issues (06 R162, Table 6-4), with the rule breaks of R164.
-/
namespace Sys2Proof.Machine

/-- The number of an agent among those whose code in a BPM RULE record spec/ does not give (log 31). -/
def agentCase : Agent → Nat
  | .xpt => 0 | .syz => 1 | .str => 2 | .pgm => 3 | .comet n => 4 + n | .mirrorPath => 260

/-- A rule break counted in BPM_RULE_CNT[k] and recorded (06 R164). -/
def Chip.ruleBreak (s : Chip) (k : Nat) (h : Handle) (cell : Nat) (ag : Agent) : Chip :=
  (s.count (0x500040 + 4 * k)).raise 0x05 0xFFFF 1 2 0
    (le 1 k ++ le 4 (h.head + h.gen * 2 ^ 17) ++ le 4 cell ++ [Config.openCode 4 (agentCase ag)])

/-- The generation of a head cell matches the handle's (06 R164 row 1). -/
def Chip.fresh? (s : Chip) (h : Handle) : Bool := Tab.get s.bpm.gens 0 h.head == h.gen

/-- The agent owns a chain: APPEND, HAND and SHARE are the owner's (06 Table 6-4). -/
def Chain.ownedBy (ch : Chain) (ag : Agent) : Bool := decide (ch.owner = ag)

/-- The agent may FREE a chain: the owner of an unshared one, the last owner of a shared one (06 Table 6-4). -/
def Chain.freedBy (ch : Chain) (ag : Agent) : Bool :=
  if ch.sharers.isEmpty then ch.ownedBy ag else decide (ch.last = some ag)

/-- The comet an agent's host-ingress cells are charged to. -/
def agentComet : Agent → Option Nat
  | .comet n => some n
  | _ => none

/-- ALLOCATE: a new chain, or a failure counted in BPM_FAIL_CNT (06 R157, R158). -/
def allocateEffect (ag : Agent) (pool group n : Nat) (s : Chip) : Chip :=
  if 4 ≤ pool || n == 0 then s
  else
    let r := s.alloc ag pool (if pool < 2 then some group else none) (agentComet ag) n
    if r.1.isSome then r.2 else s.count (0x500030 + 4 * pool)

/-- APPEND: cells added at the tail by the owner. -/
def appendEffect (ag : Agent) (h : Handle) (n : Nat) (s : Chip) : Chip :=
  if !s.fresh? h then s.ruleBreak 1 h h.head ag
  else match s.chain h with
    | none => s.ruleBreak 2 h h.head ag
    | some ch =>
      if !ch.ownedBy ag then s.ruleBreak 2 h h.head ag
      else if s.allocFits ch.pool ch.group ch.comet n then
        let cells := freeCells s.bpm.cells (s.bpm.sizes.getD ch.pool 0) (s.bpm.base ch.pool) n
        let ch' := { ch with cells := ch.cells ++ cells }
        { s with bpm := { s.bpm with cells := markCells s.bpm.cells true cells, chains := Tab.ins s.bpm.chains h.head ch' } }
      else s.count (0x500030 + 4 * ch.pool)

/-- HAND: ownership passes to a named agent. -/
def handEffect (ag : Agent) (h : Handle) (heir : Agent) (s : Chip) : Chip :=
  if !s.fresh? h then s.ruleBreak 1 h h.head ag
  else match s.chain h with
    | none => s.ruleBreak 2 h h.head ag
    | some ch =>
      if !ch.ownedBy ag then s.ruleBreak 2 h h.head ag
      else
        { s with bpm := { s.bpm with chains := Tab.ins s.bpm.chains h.head { ch with owner := heir } } }

/-- SHARE: up to four sharers are named, one of them last owner. -/
def shareEffect (ag : Agent) (h : Handle) (sharers : List Agent) (last : Agent) (s : Chip) : Chip :=
  if !s.fresh? h then s.ruleBreak 1 h h.head ag
  else match s.chain h with
    | none => s.ruleBreak 2 h h.head ag
    | some ch =>
      if !ch.ownedBy ag then s.ruleBreak 2 h h.head ag
      else if 4 < sharers.length then s.ruleBreak 4 h h.head ag
      else s.shareChain h sharers last

/-- RELEASE by a sharer other than the last owner. -/
def releaseEffect (ag : Agent) (h : Handle) (s : Chip) : Chip :=
  if !s.fresh? h then s.ruleBreak 1 h h.head ag
  else match s.chain h with
    | none => s.ruleBreak 3 h h.head ag
    | some ch =>
      if ch.sharers.contains ag && ch.last != some ag then s.releaseChain ag h else s.ruleBreak 3 h h.head ag

/-- FREE: every cell of the chain returns to its pool; rule breaks 0 to 2 as Table 6-5 gives. The spec does not say which row a handle meets
whose head cell is by now a later cell of another chain, with its generation unchanged: the agent owns no chain there, so it is row 2
(DESIGN CHOICE, log 183). -/
def freeEffect (ag : Agent) (h : Handle) (s : Chip) : Chip :=
  if !s.fresh? h then s.ruleBreak 1 h h.head ag
  else if !Tab.get s.bpm.cells false h.head then s.ruleBreak 0 h h.head ag
  else match s.chain h with
    | none => s.ruleBreak 2 h h.head ag
    | some ch =>
      if !ch.freedBy ag then s.ruleBreak 2 h h.head ag
      else
        let good := (walk s.bpm.cells ch.cells).length
        if good < ch.cells.length then (s.freeChain ag h).ruleBreak 0 h (ch.cells.getD good h.head) ag
        else s.freeChain ag h

def execAllocate (ag : Agent) (pool group n : Nat) (s : State) : Host.Outcome State Fault Refusal :=
  .next (s.on (allocateEffect ag pool group n))

def execAppend (ag : Agent) (h : Handle) (n : Nat) (s : State) : Host.Outcome State Fault Refusal :=
  .next (s.on (appendEffect ag h n))

def execHand (ag : Agent) (h : Handle) (heir : Agent) (s : State) : Host.Outcome State Fault Refusal :=
  .next (s.on (handEffect ag h heir))

def execShare (ag : Agent) (h : Handle) (sharers : List Agent) (last : Agent) (s : State) :
    Host.Outcome State Fault Refusal :=
  .next (s.on (shareEffect ag h sharers last))

def execRelease (ag : Agent) (h : Handle) (s : State) : Host.Outcome State Fault Refusal := .next (s.on fun c => (c.syzFreed (releaseEffect ag h c)).pumpOwed)

def execFree (ag : Agent) (h : Handle) (s : State) : Host.Outcome State Fault Refusal := .next (s.on fun c => (c.syzFreed (freeEffect ag h c)).pumpOwed)

end Sys2Proof.Machine
end

