-- ==== Sys2Proof/Machine/Comet.lean ====
section
/-!
DEFINITION. Comets (06 R138 to R154): the start stage with its checks, the retry of reservations, urgency and stealing,
fences and re-homing, and the fences of blocks, silicon regions and chip agents (16 R399 to R403).
-/
namespace Sys2Proof.Machine

/-! ### The start stage -/

/-- Messages of a comet that are ready and have not started, oldest first (06 R146). The spec does not order messages that became ready
at the same time: they stand in the order of the connection table (DESIGN CHOICE, log 182). -/
def Chip.readyAt (s : Chip) (n : Nat) : List (Nat × Msg) :=
  (s.allMsgs.filter fun x => x.2.comet == n && x.2.ready.isSome && !x.2.started && !x.2.parked).mergeSort
    fun a b => a.2.ready.getD 0 ≤ b.2.ready.getD 0

/-- The ready messages in a comet's local queue, oldest first: not those that hold a context at their start stage. -/
def Chip.queuedAt (s : Chip) (n : Nat) : List (Nat × Msg) := (s.readyAt n).filter fun x => !x.2.stalls.contains atStart

/-- The current entry of a message's region is offline, and the retry hint it gives in µs (05 R128). -/
def Chip.offline (s : Chip) (r : Region) : Option Nat :=
  if !r.live || !(r.offInst || r.offTko || r.offRbld) then none
  else if r.offInst then some 0
  else
    let tko := if r.offTko then Nat.max 1000 (Nat.min 65535 (Config.replayEstimate s.fresh)) else 0
    let rb := if r.offRbld then s.par 0x900324 else 0
    some (Nat.max tko rb)

/-- A WRITE has a line on a bank on which its connection is throttled (10 R273). -/
def Chip.rdRefuses (s : Chip) (c : Nat) (m : Msg) : Bool :=
  (List.range m.lines).any fun i => (s.page (pageOfLine (m.line i))).resident && s.throttled c (m.line i)

/-- Pages of a message that are not charged and that it has not reserved (08 R209). -/
def Chip.uncharged (s : Chip) (c : Nat) (m : Msg) : List Nat :=
  m.pages.filter fun p => !(s.page p).charged && !(s.pgm.reserved.any (·.2.2 == p)) && !s.pgm.reserved.contains (c, m.first, p)

/-- A set in FULL holds an uncharged page of the message (09 R245). -/
def Chip.setFull (s : Chip) (ps : List Nat) : Bool := ps.any fun p => (s.set (s.setOf p)).full

/-- The pages of a message charged to it from now on. -/
def Chip.reservePages (s : Chip) (c : Nat) (m : Msg) : Chip :=
  ({ s with pgm := { s.pgm with reserved := s.pgm.reserved ++
      (m.pages.filter fun p => !(s.page p).charged && !s.pgm.reserved.contains (c, m.first, p)).map fun p => (c, m.first, p) } }).levels

/-- The remaining estimate of a page (04 R109), in units of 1/64,000 µs, so that it is exact: none is unbounded. -/
def Chip.estimate (s : Chip) (p : Nat) : Option Nat :=
  let g := s.page p
  let set := s.setOf p
  if !s.fetchable set then none
  else match g.st, g.issued with
    | .fetching, some t => some (Nat.max 64000 (s.fetchEst64 set * 1000 - (s.now - t) * 64))
    | _, _ => some (s.fetchEst64 set * 1000)

/-- A page needs a fetch for a read: it has no frame, and its delta lines do not cover the bytes (04
R109). A page that its delta lines cover needs none though its map level may not be loaded (log 123). -/
def Chip.needsFetch (s : Chip) (m : Msg) (p : Nat) : Bool :=
  !(s.page p).resident && ((List.range m.lines).any fun i =>
    m.line i / 1024 == p && (match Tab.find s.pgm.deltas (m.line i) with
      | some d => d.mask.toNat &&& maskOf (m.off i) (m.num i) != maskOf (m.off i) (m.num i)
      | none => true))

/-- The deadline in force of a READ_REQ, in µs (05 R127): its own, or the default of the entry it passed its checks against
(R133). -/
def Msg.deadline (m : Msg) : Option Nat := if flagDeadline m.flags then some m.opField else m.ddl

/-- The deadline probe refuses a read (04 R109). -/
def Chip.late (s : Chip) (m : Msg) : Bool :=
  match m.deadline with
  | none => false
  | some d =>
    let ps := m.pages.filter (s.needsFetch m)
    let es := ps.map s.estimate
    !ps.isEmpty && (es.any (·.isNone) || d * 64000 < (s.now - m.arrived) * 64 + maxOf (es.map (·.getD 0)))

/-- Background fetches of a read refused with DEADLINE (04 R111; log 146). -/
def Chip.backgroundFetches (s : Chip) (c : Nat) (m : Msg) : Chip :=
  let ps := m.pages.filter fun p => s.needsFetch m p && (s.page p).st != .fetching
  match s.conn c with
  | none => s
  | some k =>
    let mine := k.fetches.filter fun p => (s.page p).st == .fetching
    if ps.isEmpty then s
    else if 16 ≤ mine.length then s.count 0x70003C
    else
      let room := ps.take (16 - mine.length)
      let s1 := s.modConn c fun k => { k with fetches := mine ++ room }
      let s2 := room.foldl (fun t p => t.demand p 4) s1
      if room.length < ps.length then s2.count 0x70003C else s2

/-- Free space of the ring is short of a message's entries plus 1 MiB (12 R303). -/
def Chip.ringShort (s : Chip) (m : Msg) : Bool :=
  let need := (if m.atomic then 40 else (m.parts.map fun e => 32 + ceilDiv e.2.length 8 * 8).sum) + 1048576
  s.journals m && !m.mirror && m.writes && s.syz.ringSize - s.syz.ringBytes < need

/-- A message waits at its start stage, in a context, until the condition ends. -/
def Chip.holdStart (s : Chip) (c first : Nat) : Chip :=
  s.modMsg c first fun m => { m with stalls := if m.stalls.contains atStart then m.stalls else atStart :: m.stalls }

/-- The chains of a journaled WRITE shared with SYZ, which is last owner, and in compatibility mode with its mirror path
(06 R163). -/
def Chip.shareIngress (s : Chip) (m : Msg) : Chip :=
  if m.op == 0x01 && s.journals m then
    m.chains.foldl (fun t e => t.shareSyz m e.2) s
  else s

/-- A message passes its start stage and executes. -/
def Chip.startNow (s : Chip) (c : Nat) (m : Msg) : Chip :=
  (s.shareIngress m).modMsg c m.first fun m =>
    { m with st := .executing, started := true, parked := false, stalls := m.stalls.filter (· != atStart) }

/-- The reservation of response cells retried at the start stage; a failure parks the message while scratch has room
(06 R138, R158). -/
def Chip.startCells (s : Chip) (c : Nat) (m : Msg) (go : Chip → Chip) : Chip :=
  match s.conn c with
  | none => s
  | some k =>
    match s.reserve k.group m with
    | some (hs, t) =>
      let t1 := { t with bpm := { t.bpm with waiting := t.bpm.waiting.filter (· != (c, m.first)) } }
      go (t1.modMsg c m.first fun x => { x with egress := hs, needCells := [] })
    | none =>
      let parked := (s.allMsgs.filter fun x => x.2.comet == m.comet && x.2.parked).length
      if parked < 256 then s.modMsg c m.first fun x => { x with parked := true, stalls := x.stalls.filter (· != atStart) }
      else s.holdStart c m.first

/-- The start stage of a message (06 Table 6-1, 03 Table 3-19 orders 10 to 12). -/
def Chip.startStage (s : Chip) (c : Nat) (m : Msg) : Chip :=
  match s.offline (s.region m.region) with
  | some us => (s.checkFailed c 4 m.key m.start).refuse c m 0x0E m.start (hintCode us)
  | none =>
    let add := s.uncharged c m
    let excess := s.budgetBytes < s.dirtyBytes + add.length * 65536
    if m.op == 0x01 then
      if s.rdRefuses c m then s.refuse c m 0x0B m.start (hintCode (s.par 0xAE001C))
      else if !add.isEmpty && (excess || s.setFull add) then (s.count 0x700030).refuse c m 0x0B m.start (hintCode (s.par 0x70002C))
      else
        let t := s.reservePages c m
        if t.ringShort m then
          let u := if m.stalls.contains ringWait then t else t.count 0xC00028
          (u.modMsg c m.first fun x => { x with stalls := if x.stalls.contains ringWait then x.stalls else ringWait :: x.stalls }).holdStart c m.first
        else t.startNow c m
    else if m.op == 0x02 then
      if !m.probed && s.late m then (s.backgroundFetches c m).refuse c m 0x07 m.start 0
      else (s.modMsg c m.first fun x => { x with probed := true }).startCells c m fun t => t.startNow c m
    else
      s.startCells c m fun t =>
        if !add.isEmpty && excess then ((t.stall c m.first 4).holdStart c m.first)
        else
          let u := t.reservePages c m
          if u.ringShort m then
            let v := if m.stalls.contains ringWait then u else u.count 0xC00028
            (v.modMsg c m.first fun x => { x with stalls := if x.stalls.contains ringWait then x.stalls else ringWait :: x.stalls }).holdStart c m.first
          else u.startNow c m

/-- A message's response cells are still to be had (06 R158). -/
def Chip.cellsShort (s : Chip) (c : Nat) (m : Msg) : Bool := match s.conn c with
  | some k => !m.needCells.isEmpty && (s.reserve k.group m).isNone
  | none => false

/-- A message at its start stage still waits there: for the budget, for the ring, or for cells where scratch was full. -/
def Chip.stillWaits (s : Chip) (c : Nat) (m : Msg) : Bool :=
  m.stalls.contains atStart &&
  ((m.atomic && !(s.uncharged c m).isEmpty && s.budgetBytes < s.dirtyBytes + (s.uncharged c m).length * 65536) || s.ringShort m ||
   s.cellsShort c m)

/-- Urgent messages of a comet's block that have not started, oldest first (06 R148): not those of a fenced comet, which go to their
connections' new homes (R152). -/
def Chip.urgentNear (s : Chip) (n : Nat) : List (Nat × Msg) :=
  (s.allMsgs.filter fun x => x.2.comet / 16 == n / 16 && s.cometOk x.2.comet && x.2.urgent && x.2.ready.isSome && !x.2.started &&
    !x.2.parked && !x.2.stalls.contains atStart).mergeSort fun a b => a.2.ready.getD 0 ≤ b.2.ready.getD 0

/-- The comets of an arbiter: its block, its silicon region or the chip. -/
def Chip.arbiterComets (s : Chip) (level : StealLevel) (a : Nat) : List Nat :=
  match level with
  | .block => rangeFrom (16 * a) 16
  | .region => rangeFrom (64 * a) 64
  | .chip => List.range s.comets

/-- An arbiter's pointer moved to the comet after the one granted. -/
def Chip.movePtr (s : Chip) (level : StealLevel) (a n : Nat) : Chip :=
  let l := s.arbiterComets level a
  let next := match l.find? (n < ·) with
    | some x => x
    | none => l.headD 0
  match level with
  | .block => { s with cmt := { s.cmt with blockPtr := Tab.ins s.cmt.blockPtr a next } }
  | .region => { s with cmt := { s.cmt with regionPtr := Tab.ins s.cmt.regionPtr a next } }
  | .chip => { s with cmt := { s.cmt with chipPtr := next } }

/-- A comet with a free context, for which no context record waits, takes its block's oldest urgent message (06 R148, R152):
the block's steal arbiter grants it, and it moves there and starts (log 164). The spec does not say whether a comet that takes an urgent
message of its own jumps: no jump is counted then (DESIGN CHOICE, log 180). -/
def urgentTakeEffect (n : Nat) (s : Chip) : Chip :=
  if !s.cometOk n || 16 ≤ s.contexts n || !(s.recordsWaiting n).isEmpty then s
  else
    match s.urgentNear n with
    | [] => s
    | (c, m) :: _ =>
      let s1 := (s.modMsg c m.first fun x => { x with comet := n }).movePtr .block (n / 16) n
      let s2 := if m.comet == n then s1 else s1.count (0x400004 + 0x400 * n)
      s2.startStage c { m with comet := n }

/-- A free context of a comet is taken (06 R146, R148, R152): by the oldest context record that waits for one, else by the
oldest urgent message of the block, else by the oldest ready message of the local queue. A started record takes it with its
next line operation. -/
def Chip.fillContext (s : Chip) (n : Nat) : Chip :=
  match s.recordsWaiting n with
  | (c, m) :: _ =>
    if m.started then s
    else
      let t := s.modMsg c m.first fun x => { x with parked := false }
      if s.stillWaits c m then t else t.startStage c { m with parked := false }
  | [] =>
    if !(s.urgentNear n).isEmpty then urgentTakeEffect n s
    else match s.queuedAt n with
      | (c, m) :: _ => s.startStage c m
      | [] => s

/-- A comet starts its oldest ready message (06 R146): one that holds a context at its start stage and need wait no longer,
else one for a free context. -/
def messageStartEffect (n : Nat) (s : Chip) : Chip :=
  if !s.cometOk n then s
  else match (s.readyAt n).find? fun x => x.2.stalls.contains atStart && !s.stillWaits x.1 x.2 with
    | some (c, m) => s.startStage c m
    | none => if s.contexts n < 16 then s.fillContext n else s

def execMessageStart (comet : Nat) (s : State) : Host.Outcome State Fault Refusal := .next (s.on (messageStartEffect comet))

/-- The first waiting message that the freed cells satisfy: one that its own group quota blocks is passed over (06 R158)
(log 52). -/
def Chip.firstServed (s : Chip) : List (Nat × Nat) → Option (Nat × Msg)
  | [] => none
  | (c, first) :: r =>
    match s.conn c, s.msg c first with
    | some k, some m =>
      let n := m.needCells.sum
      if s.allocFits 1 (some k.group) none n then some (c, m)
      else if s.par (0x501100 + 4 * k.group) < s.bpm.heldByGroup 1 k.group + n then s.firstServed r
      else none
    | _, _ => s.firstServed r

/-- Freed host-egress cells offered to the waiting messages in order; a parked one takes a context again and starts
(06 R138, R158). The spec does not say where one goes that finds every context busy: back to its local queue (DESIGN CHOICE, log 185). -/
def egressRetryEffect (s : Chip) : Chip :=
  match s.firstServed s.bpm.waiting with
  | none => s
  | some (c, m) =>
    s.startCells c m fun t =>
      let t1 := t.modMsg c m.first fun x => { x with parked := false }
      if m.parked && t1.contexts m.comet < 16 && t1.cometOk m.comet then
        match t1.msg c m.first with
        | some x => t1.startStage c x
        | none => t1
      else t1

def execEgressReservationRetry (s : State) : Host.Outcome State Fault Refusal := .next (s.on egressRetryEffect)

/-! ### Urgency and stealing -/

/-- A comet has every context busy. -/
def Chip.full (s : Chip) (n : Nat) : Bool := 16 ≤ s.contexts n

/-- A message is stealable at a level (06 R149). -/
def Chip.stealable (s : Chip) (level : StealLevel) (m : Msg) : Bool :=
  m.ready.isSome && !m.started && !m.parked && !m.stalls.contains atStart && s.cometOk m.comet &&
  (s.full m.comet || (m.urgent && level == .block))

/-- A comet lies in the search scope of a thief at a level (06 R150, R151). -/
def Chip.inScope (s : Chip) (level : StealLevel) (thief owner : Nat) : Bool :=
  match level with
  | .block => owner / 16 == thief / 16 && owner != thief
  | .region => !s.glb.sl4804 && owner / 64 == thief / 64 && owner / 16 != thief / 16
  | .chip => if s.glb.sl4804 then owner / 16 != thief / 16 else owner / 64 != thief / 64

/-- CMT_STEAL_CTL enables a level; REGION_EN has no effect on the SL4804. -/
def Chip.levelOn (s : Chip) (level : StealLevel) : Bool :=
  match level with
  | .block => bit (s.par 0x4E0004) 0
  | .region => bit (s.par 0x4E0004) 1 && !s.glb.sl4804
  | .chip => bit (s.par 0x4E0004) 2

/-- The message a thief would get at a level: the oldest stealable, urgent first. -/
def Chip.prey (s : Chip) (level : StealLevel) (thief : Nat) : Option (Nat × Msg) :=
  let l := (s.allMsgs.filter fun x => s.inScope level thief x.2.comet && s.stealable level x.2).mergeSort
    fun a b => a.2.ready.getD 0 ≤ b.2.ready.getD 0
  match l.find? (·.2.urgent) with
  | some x => some x
  | none => l.head?

/-- A comet may steal: a free context, and no ready message in its local queue (06 R150). -/
def Chip.thief (s : Chip) (n : Nat) : Bool := s.cometOk n && !s.full n && (s.queuedAt n).isEmpty

/-- A comet asks to steal (06 R150): its request stands until a grant, or until it has a message of its own. -/
def stealRequestEffect (n : Nat) (s : Chip) : Chip :=
  if s.thief n && !s.cmt.stealing.contains n then { s with cmt := { s.cmt with stealing := s.cmt.stealing ++ [n] } } else s

def execStealRequest (comet : Nat) (s : State) : Host.Outcome State Fault Refusal := .next (s.on (stealRequestEffect comet))

def execStealRetry (comet : Nat) (s : State) : Host.Outcome State Fault Refusal := .next (s.on (stealRequestEffect comet))

/-- An arbiter's pointer. -/
def Chip.arbiterPtr (s : Chip) (level : StealLevel) (a : Nat) : Nat :=
  match level with
  | .block => Tab.get s.cmt.blockPtr (16 * a) a
  | .region => Tab.get s.cmt.regionPtr (64 * a) a
  | .chip => s.cmt.chipPtr

/-- Code of a level in CMT_STEAL_CNT. -/
def levelCode : StealLevel → Nat
  | .block => 0 | .region => 1 | .chip => 2

/-- A level below this one still has prey for a comet: its search has not come this far (06 R150). -/
def Chip.nearer (s : Chip) (level : StealLevel) (n : Nat) : Bool :=
  match level with
  | .block => false
  | .region => s.levelOn .block && (s.prey .block n).isSome
  | .chip => (s.levelOn .block && (s.prey .block n).isSome) || (s.levelOn .region && (s.prey .region n).isSome)

/-- A requesting comet that an arbiter of a level may grant. -/
def Chip.mayGrant (s : Chip) (level : StealLevel) (n : Nat) : Bool :=
  s.cmt.stealing.contains n && s.thief n && !s.nearer level n && (s.prey level n).isSome

/-- An arbiter grants (06 R150): the first requesting comet in turn gets the oldest stealable message of the level. The spec does not say
how an urgent message that a block's arbiter grants so is counted: as a steal, and as no jump (DESIGN CHOICE, log 181). -/
def stealGrantEffect (level : StealLevel) (a : Nat) (s : Chip) : Chip :=
  if !s.levelOn level then s
  else
    let p := s.arbiterPtr level a
    let l := s.arbiterComets level a
    let turn := (l.filter (p ≤ ·)) ++ l.filter (· < p)
    match turn.find? (s.mayGrant level) with
    | none => s
    | some n =>
      match s.prey level n with
      | none => s
      | some (c, m) =>
        let s1 := { s with cmt := { s.cmt with stealing := s.cmt.stealing.filter (· != n) } }
        ((s1.modMsg c m.first fun x => { x with comet := n }).movePtr level a n).count (0x400010 + 0x400 * n + 4 * levelCode level)

def execStealGrant (level : StealLevel) (arbiter : Nat) (s : State) : Host.Outcome State Fault Refusal :=
  .next (s.on (stealGrantEffect level arbiter))

/-- A ready message becomes urgent (06 R148). -/
def urgencyEffect (c psn : Nat) (s : Chip) : Chip :=
  match s.msg c psn with
  | some m => if m.ready.isSome && !m.started then s.modMsg c psn fun x => { x with urgent := true } else s
  | none => s

def execUrgencyAgeExpiry (c : Nat) (psn : BitVec 32) (s : State) : Host.Outcome State Fault Refusal :=
  .next (s.on (urgencyEffect c psn.toNat))

def execUrgentTake (comet : Nat) (s : State) : Host.Outcome State Fault Refusal := .next (s.on (urgentTakeEffect comet))

/-! ### Fences and re-homing -/

/-- The comets of a fenced unit. -/
def unitComets : FencedUnit → List Nat
  | .comet n => [n]
  | .block b => rangeFrom (16 * b) 16

/-- The comets that take over: of the same block, or of the same silicon region (06 R152, R153). -/
def Chip.heirs (s : Chip) (u : FencedUnit) : List Nat :=
  match u with
  | .comet n => (rangeFrom (n / 16 * 16) 16).filter s.cometOk
  | .block b => (rangeFrom (b / 4 * 64) 64).filter s.cometOk

/-- Connections homed on a comet. -/
def Chip.homes (s : Chip) (n : Nat) : Nat := (s.xpt.conns.filter fun e => e.2.home == n).length

/-- The comet of some with the fewest home connections, the lowest of equals. -/
def Chip.fewest (s : Chip) (l : List Nat) : Option Nat :=
  let least := minOf 16385 (l.map s.homes)
  l.find? fun n => s.homes n == least

/-- One connection homed on a fenced comet goes to the heir with the fewest homes. -/
def Chip.rehomeConn (s : Chip) (dead heirs : List Nat) (c : Nat) : Chip :=
  match s.conn c with
  | some k => if dead.contains k.home then
      match s.fewest heirs with
      | some h => s.setConn c { k with home := h }
      | none => s
    else s
  | none => s

/-- The charge of a message's ingress cells moved to another comet, past its quota if need be (06 R152). -/
def Chip.moveCharge (s : Chip) (m : Msg) (n : Nat) : Chip :=
  m.chains.foldl (fun t e => match t.chain e.2 with
    | some ch =>
      let own (a : Agent) : Agent := if a = Agent.comet m.charge then .comet n else a
      let ch' := { ch with comet := some n, owner := own ch.owner, sharers := ch.sharers.map own }
      { t with bpm := { t.bpm with chains := Tab.ins t.bpm.chains e.2.head ch' } }
    | none => t) s

/-- A message of a fenced comet moved: a queued one to its connection's new home, a context record to the next heir in
turn, waiting in the context store where that comet has no free context. -/
def Chip.rehomeMsg (s : Chip) (dead heirs : List Nat) (acc : Nat) (c first : Nat) : Nat × Chip :=
  match s.conn c, s.msg c first with
  | some k, some m =>
    if !dead.contains m.comet then (acc, s)
    else
      let record := m.started || m.stalls.contains atStart
      let n := if record then heirs.getD (acc % Nat.max 1 heirs.length) 0
        else if dead.contains k.home then heirs.headD 0 else k.home
      let wait := m.parked || (record && 16 ≤ s.contexts n)
      let s1 := (s.moveCharge m n).modMsg c first fun x => { x with comet := n, charge := n, parked := wait }
      (if record then acc + 1 else acc, s1)
  | _, _ => (acc, s)

/-- Connections, queued messages and context records of some comets moved to their heirs (06 R152, R153). -/
def Chip.rehomeAll (s : Chip) (dead heirs : List Nat) : Chip :=
  let s1 := s.connIds.foldl (fun t c => t.rehomeConn dead heirs c) s
  (s1.allMsgs.foldl (fun (acc : Nat × Chip) x => acc.2.rehomeMsg dead heirs acc.1 x.1 x.2.first) (0, s1)).2

/-- A chip agent's fault (16 R402): recorded, then FAULT. -/
def chipAgentFaultEffect (s : Chip) : Chip :=
  s.toFault 3

/-- A silicon region fenced (16 R402): its domain and its block domains gated (01 R29); FAULT, or an Eclipse drain that
goes on and loses the frames of its channels. On the SL4804 a fault at region level is a chip-level fault (01 R13)
(log 165). -/
def Chip.fenceRegion (s : Chip) (r cause : Nat) : Chip :=
  if bit s.cmt.fencedRegions r || s.nRegions ≤ r then s
  else if s.glb.sl4804 then chipAgentFaultEffect s
  else
    let s1 := { s with cmt := { s.cmt with
      fencedRegions := setBit s.cmt.fencedRegions r true,
      rehome := s.cmt.rehome.filter fun (u : FencedUnit) => match u with
        | .comet n => n / 64 != r
        | .block b => b / 4 != r } }
    let s2 := (s1.raise 0x12 r 1 3 0 ([2] ++ le 2 r ++ le 1 cause)).gate ([16 + r] ++ rangeFrom (4 * r) 4) true
    if s.glb.state == .eclipse && 2 ≤ s.ecl.step && s.ecl.step ≤ 5 then
      let gone := s2.pgm.pages.filter fun e => e.2.charged && (match e.2.frame with
        | some f => (s2.placeFrame f 0).ch / 3 == r
        | none => false)
      let s3 := gone.foldl (fun t e =>
        t.raise 0x07 0xFFFF 1 3 0 (le 8 (e.1 * 65536) ++ le 4 65536 ++ le 1 e.2.st.code ++ [0] ++ le 4 0)) s2
      { s3 with ecl := { s3.ecl with lostRegion := true },
                pgm := { s3.pgm with pages := s3.pgm.pages.filter fun e => !(gone.any (·.1 == e.1)) } }
    else s2.toFault 2

/-- A block fenced (06 R153): its domain gated, its work to be re-homed; the last block of a region fences the region. -/
def Chip.fenceBlock (s : Chip) (b cause : Nat) : Chip :=
  if bit s.cmt.fencedBlocks b || bit s.cmt.fencedRegions (b / 4) || s.nBlocks ≤ b then s
  else
    let s1 := { s with cmt := { s.cmt with
      fencedBlocks := setBit s.cmt.fencedBlocks b true,
      rehome := (s.cmt.rehome.filter fun (u : FencedUnit) => match u with
        | .comet n => n / 16 != b
        | .block _ => true) ++ [FencedUnit.block b] } }
    let s2 := (s1.raise 0x12 b 1 3 0 ([1] ++ le 2 b ++ le 1 cause)).gate [b] true
    if (rangeFrom (b / 4 * 4) 4).all fun x => bit s2.cmt.fencedBlocks x then s2.fenceRegion (b / 4) 4 else s2

/-- A comet fenced (06 R152, 16 R400). -/
def cometFenceEffect (n cause : Nat) (s : Chip) : Chip :=
  if !s.cometOk n then s
  else
    let running := (s.allMsgs.find? fun x => x.2.comet == n && x.2.started).map (·.2.id)
    let s1 := { s with cmt := { s.cmt with
      fenced := n :: s.cmt.fenced, stealing := s.cmt.stealing.filter (· != n), rehome := s.cmt.rehome ++ [FencedUnit.comet n] } }
    let s2 := (s1.raise 0x04 n 1 3 0 (le 1 cause ++ le 2 (running.getD 0))).raise 0x12 n 1 3 0 ([0] ++ le 2 n ++ le 1 cause)
    if (rangeFrom (n / 16 * 16) 16).all fun x => !s2.cometOk x then s2.fenceBlock (n / 16) 3 else s2

def execCometFence (comet : Nat) (cause : Nat) (s : State) : Host.Outcome State Fault Refusal :=
  .next (s.on (cometFenceEffect comet cause))

/-- A context takes no step for 10 µs: the comet is fenced with cause 2 (16 Table 16-3). -/
def execCometContextStall (comet : Nat) (s : State) : Host.Outcome State Fault Refusal :=
  .next (s.on (cometFenceEffect comet 2))

/-- A fenced unit's work re-homed (06 R152, R153): each waiting unit once. -/
def rehomeEffect (u : FencedUnit) (s : Chip) : Chip :=
  if !s.cmt.rehome.contains u || (s.heirs u).isEmpty then s
  else ({ s with cmt := { s.cmt with rehome := s.cmt.rehome.filter (· != u) } }).rehomeAll (unitComets u) (s.heirs u)

def execRehome (u : FencedUnit) (s : State) : Host.Outcome State Fault Refusal := .next (s.on (rehomeEffect u))

def execBlockHeartbeatLoss (b : Nat) (s : State) : Host.Outcome State Fault Refusal := .next (s.on fun c => c.fenceBlock b 0)

def execBlockFence (b : Nat) (cause : Nat) (s : State) : Host.Outcome State Fault Refusal :=
  .next (s.on fun c => c.fenceBlock b cause)

def execRegionHeartbeatLoss (r : Nat) (s : State) : Host.Outcome State Fault Refusal :=
  .next (s.on fun c => c.fenceRegion r 0)

def execRegionFence (r : Nat) (cause : Nat) (s : State) : Host.Outcome State Fault Refusal :=
  .next (s.on fun c => c.fenceRegion r cause)

def execChipAgentFault (_agent : ChipAgent) (s : State) : Host.Outcome State Fault Refusal := .next (s.on chipAgentFaultEffect)

/-- The watchdog expires (16 R403, 01 R26): the WDT_EXPIRY record, FLT_SUMMARY.WDT and FAULT. How many ticks have passed since
the last service when REFCLK_AON stops is free (log 141). -/
def watchdogEffect (cause : WdtCause) (s : Chip) : Chip :=
  let ticks := match cause with
    | .noService => 10000
    | .refclkLost => (Config.openWord 0x1200014 s.fresh).toNat
  let s1 := (s.raise 0x12 0xFFFF 3 4 1 (le 4 ticks)).toFault 1
  { s1 with flt := { s1.flt with wdt := true } }

def execWatchdogExpiry (cause : WdtCause) (s : State) : Host.Outcome State Fault Refusal := .next (s.on (watchdogEffect cause))

end Sys2Proof.Machine
end

