-- ==== Sys2Proof/Machine/Conn.lean ====
section
/-!
DEFINITION. Connections: CONNECT and its ticket (03 R73 to R76), the states of Table 3-15 and their timers.
-/
namespace Sys2Proof.Machine

/-- A CONNECT_RESP payload (03 Table 3-12). -/
def Chip.connectResp (s : Chip) (status cls ka wp wb : Nat) (nonce : List Byte) : List Byte :=
  [BitVec.ofNat 8 status, BitVec.ofNat 8 cls] ++ be 2 ka ++ be 4 s.glb.epoch ++ be 2 wp ++ be 2 0 ++ be 4 wb ++
  nonce ++ be 2 s.hpx.up ++ be 6 0

/-- A CONNECT_RESP sent to the CONNECT's source, with the CONNECT's message ID, key and offset (03, after Table 3-6). -/
def Chip.sendConnectResp (s : Chip) (p : Packet) (conn psn : Nat) (payload : List Byte) : Chip :=
  let port := if p.hint < 16 && s.portUp p.hint then p.hint else p.port
  s.sendPacket port p.src p.sport { DevPkt.make conn 0x11 p.msgId p.key.toNat p.offset 0 payload with cls := p.cls, psn }

/-- A CONNECT whose header is malformed (03 R60): its class, its place in a message, or a flag of another opcode (log 150). -/
def badConnectHead (p : Packet) : Bool :=
  let f := p.flags.toNat
  (p.cls != 1 && p.cls != 2) || !flagFirst f || !flagLast f || p.index != 0 || p.count != 1 || flagDurable f || flagDeadline f

/-- The first check of Table 3-13 that a CONNECT fails, 0 when none does (03 R74). -/
def Chip.connectStatus (s : Chip) (p : Packet) : Nat :=
  let b := p.payload
  let pub := Tab.find s.sec.keys (fieldBe b 3 1)
  let group := fieldBe b 8 1
  if s.glb.state != .active then 1
  else if badConnectHead p || badConnect b then 2
  else match pub with
    | none => 3
    | some k =>
      if !Config.ecdsaVerify k (b.take 32) (slice b 32 96) then 4
      else if fieldBe b 4 4 < s.par (0x201000 + 4 * group) then 5
      else if fieldBe b 12 16 != p.src.toNat then 6
      else if !bit (fieldBe b 9 1) (p.cls - 1) then 7
      else 0

/-- The home comet of a new connection: fewest home connections, lowest of equals (06 R140). -/
def Chip.newHome (s : Chip) : Nat :=
  let ok := (List.range s.comets).filter s.cometOk
  let homes (n : Nat) : Nat := (s.xpt.conns.filter fun e => e.2.home == n).length
  let least := minOf 16385 (ok.map homes)
  (ok.find? fun n => homes n == least).getD 0

/-- The lowest free connection ID not released in the last 100 ms (03 R77, R79). -/
def Chip.freeId (s : Chip) : Option Nat :=
  (List.range 16384).find? fun c =>
    (s.conn c).isNone && (match Tab.find s.xpt.freed c with
      | some t => t + 100000000 ≤ s.now
      | none => true)

/-- A connection as a CONNECT admits it. A host window below the range of Table 3-11 is raised to its lower bound (log 176),
and the first packet that goes round-robin takes the lowest port (log 177). -/
def Chip.admitted (s : Chip) (p : Packet) (psn : Nat) (resp : List Byte) (ka : Nat) : Conn :=
  let b := p.payload
  let i := p.psn.toNat
  let wp := s.par 0x200008
  { st := .opening, mgmt := p.cls == 2, home := s.newHome, group := fieldBe b 8 1 % 64, tktGen := fieldBe b 4 4,
    host := p.src, sport := p.sport, nonce := slice b 128 8, ka, cum := i, frontier := psnAdd i 1, placed := [],
    settled := [], ackCum := i, ackMap := 0, adv := [(s.now, s.winPkts { blankConn with wp }, s.winBytes)], wp,
    noBuffer := false, newly := 0, malformed := 0, respPsn := psn, resp, tx := psn, behind := [], hostCum := psn, hostMap := 0,
    hostWp := Nat.max 1 (Nat.min 256 (fieldBe b 136 2)), hostWb := Nat.max 8192 (Nat.min 2097152 (fieldBe b 140 4)),
    held := [], wait := [], expiries := 0, hint := p.hint, ports := [(p.port, s.now)], connPort := p.port, rr := 15,
    msgs := [], refused := [], nakDue := [], atomics := [], covered := [], flushes := [], guardFull := 0, fetches := [], codes := 0,
    sev := 0, notifies := 0, causes := 0, reason := 0 }
where
  blankConn : Conn :=
    { st := .opening, mgmt := false, home := 0, group := 0, tktGen := 0, host := 0, sport := 0, nonce := [], ka := 0,
      cum := 0, frontier := 0, placed := [], settled := [], ackCum := 0, ackMap := 0, adv := [], wp := 0,
      noBuffer := false, newly := 0, malformed := 0, respPsn := 0, resp := [], tx := 0, behind := [], hostCum := 0, hostMap := 0,
      hostWp := 0, hostWb := 0, held := [], wait := [], expiries := 0, hint := 0, ports := [], connPort := 0, rr := 0,
      msgs := [], refused := [], nakDue := [], atomics := [], covered := [], flushes := [], guardFull := 0, fetches := [], codes := 0,
      sev := 0, notifies := 0, causes := 0, reason := 0 }

/-- A CONNECT admitted under an ID, refused, or answered again (03 R74, R76, R77); a unit that is not ACTIVE answers every one
but R76's with NOT_ACTIVE, a repeated one too (Table 3-19 order 4, log 119). A refusal names PSN, keepalive and windows 0 and
the class asked for (log 174); a repeated CONNECT changes neither the port hint nor the ports received on (log 178). -/
def connectEffect (p : Packet) (s : Chip) : Chip :=
  let nonce := padTo 8 (slice p.payload 128 8)
  let same := s.xpt.conns.find? fun e =>
    e.2.st == .opening && e.2.host == p.src && e.2.sport == p.sport && e.2.nonce == slice p.payload 128 8
  let maint := s.glb.state == .maintenance && p.cls == 2 && p.port == 0
  if !s.hostTakes p.port then s.discard p.port 0
  else match (if maint || s.glb.state == .active then same else none) with
    | some e => s.sendConnectResp p e.1 e.2.respPsn e.2.resp
    | none =>
      let st := if maint then (if badConnectHead p || p.payload.length != 144 then 2 else 0) else s.connectStatus p
      let id := if st == 0 then s.freeId else none
      match id with
      | none => s.sendConnectResp p 0xFFFFFF 0 (s.connectResp (if st == 0 then 8 else st) p.cls 0 0 0 nonce)
      | some c =>
        let d := s.draw
        let req := fieldBe p.payload 138 2
        let ka := Nat.max 1 (Nat.min 1000 (if req == 0 then s.par 0x200010 else req))
        let wp := Nat.max 4 (s.par 0x200008)
        let resp := s.connectResp 0 p.cls ka wp s.winBytes nonce
        let psn := Config.trng d.1 % 2 ^ 32
        (d.2.setConn c (s.admitted p psn resp ka)).sendConnectResp p c psn resp

def execConnect (p : Packet) (s : State) : Host.Outcome State Fault Refusal := .next (s.on (connectEffect p))

/-! ### Timers -/

/-- The 2 µs of R70 have passed: an ACK, if what the last one said has changed. -/
def ackTimerEffect (c : Nat) (s : Chip) : Chip :=
  match s.conn c with
  | some k => match k.adv with
    | (_, wp, wb) :: _ => if k.ackDue || s.winPkts k != wp || s.winBytes != wb then s.sendAck c else s
    | [] => if k.ackDue then s.sendAck c else s
  | none => s

def execAckTimerExpiry (c : Nat) (s : State) : Host.Outcome State Fault Refusal := .next (s.on (ackTimerEffect c))

/-- One held packet sent again with RETRY, on another port where the set holds one (03 R71, R82). -/
def Chip.resend (s : Chip) (c : Nat) (d : DevPkt) : Chip :=
  match s.conn c with
  | none => s
  | some k =>
    let port := s.txPort k (some d.port)
    let e := { d with retry := true, port }
    let k1 := { k with held := k.held.map fun x => if x.psn == d.psn then e else x }
    s.wire c k1 e (some d.port)

/-- XPT_RTO passes without progress (03 R71): unmarked packets go again in PSN order; the eighth expiry ends it. -/
def retransmitEffect (c : Nat) (s : Chip) : Chip :=
  match s.conn c with
  | none => s
  | some k =>
    if k.held.isEmpty then s
    else if 8 ≤ k.expiries + 1 then s.endConn c 3
    else
      let again := k.held.filter fun d =>
        let i := psnSub d.psn (psnAdd k.hostCum 1)
        !(i < 64 && bit k.hostMap i)
      again.foldl (fun t d => t.resend c d) (s.setConn c { k with expiries := k.expiries + 1 })

def execRetransmitTimeout (c : Nat) (s : State) : Host.Outcome State Fault Refusal := .next (s.on (retransmitEffect c))

/-- Nothing sent for one interval: a KEEPALIVE (03 R75), but none on an OPENING connection that the NOTIFY RESUMED or TAKEOVER
of the notice period is still to reach first (R81, R88; log 120). -/
def keepaliveIntervalEffect (c : Nat) (s : Chip) : Chip :=
  match s.conn c with
  | some k => if k.live && !(k.st == .opening && s.noticed) then s.control c 0x13 0 0 0 0 0 [] else s
  | none => s

def execKeepaliveInterval (c : Nat) (s : State) : Host.Outcome State Fault Refusal := .next (s.on (keepaliveIntervalEffect c))

/-- Nothing received for four intervals: the device ends an ESTABLISHED connection (03 R75, Table 3-15; log 117). -/
def keepaliveTimeoutEffect (c : Nat) (s : Chip) : Chip :=
  match s.conn c with
  | some k => if k.st == .established then s.endConn c 1 else s
  | none => s

def execKeepaliveTimeout (c : Nat) (s : State) : Host.Outcome State Fault Refusal := .next (s.on (keepaliveTimeoutEffect c))

/-- 1 s without another packet: an OPENING connection is released, with an event (03 Table 3-15). -/
def openingTimeoutEffect (c : Nat) (s : Chip) : Chip :=
  match s.conn c with
  | some k => if k.st == .opening then (s.freeConn c).raise 0x02 0xFFFF 1 0 0 (le 4 c ++ [Config.openCode 1 0]) else s
  | none => s

def execOpeningTimeout (c : Nat) (s : State) : Host.Outcome State Fault Refusal := .next (s.on (openingTimeoutEffect c))

/-- 1 ms after a host DISCONNECT took effect (03 Table 3-15). -/
def closingTimeoutEffect (c : Nat) (s : Chip) : Chip :=
  match s.conn c with
  | some k => if k.st == .closing then (s.sendDisconnect c 0).freeConn c else s
  | none => s

def execClosingTimeout (c : Nat) (s : State) : Host.Outcome State Fault Refusal := .next (s.on (closingTimeoutEffect c))

/-! ### Commands of the installer -/

/-- XPT_CONN_CTL.END (03 Table 3-14). -/
def connEndEffect (c : Nat) (s : Chip) : Chip := s.endConn c 5

def execConnEnd (ses : Session) (c : Nat) (s : State) : Host.Outcome State Fault Refusal :=
  .next (s.on fun t => t.asRole ses 23 2 (connEndEffect c))

/-- XPT_TKT_MINGEN written: connections of the group with older tickets end (03 R74, Table 3-14). -/
def tktMingenEffect (g : Nat) (v : Word) (s : Chip) : Chip :=
  if g < 64 then
    let s1 := s.setPar (0x201000 + 4 * g) v.toNat
    let old := s1.xpt.conns.filter fun e => e.2.group == g && e.2.tktGen < v.toNat
    old.foldl (fun t e => t.endConn e.1 2) s1
  else s

def execTktMingenWrite (ses : Session) (g : Nat) (v : Word) (s : State) : Host.Outcome State Fault Refusal :=
  .next (s.on fun t => t.asRole ses 23 2 (tktMingenEffect g v))

end Sys2Proof.Machine
end

