-- ==== Sys2Proof/Machine/Stripe.lean ====
section
/-!
DEFINITION. What a stripe engine writes (08 Table 8-5, 09 R233 to R235, R239, Table 9-3): map nodes, chunks and parity,
stripe headers, journal records and labels, as bytes.
-/
namespace Sys2Proof.Machine

/-! ### Map nodes -/

/-- An interior entry of kind NODE: where the child node lies (08 R213). -/
def innerWord (set slot col sector : Nat) : Nat :=
  let hi := 2 ^ 54 + set * 2 ^ 52 + col * 2 ^ 47 + slot * 2 ^ 16 + sector * 2 ^ 12
  hi * 256 + crc8 (be 7 hi)

/-- The CHECK of an entry holds: its low byte is the CRC-8 of the rest (08 R214). -/
def wordGood (w : Nat) : Bool := w % 256 == crc8 (be 7 (w / 256))

/-- The leaf entry that a word spells. -/
def leafOf (w : Nat) : Leaf :=
  { kind := w / 2 ^ 62, set := w / 2 ^ 60 % 4, col := w / 2 ^ 55 % 32, slot := w / 2 ^ 24 % 2 ^ 31, lost := w / 256 % 65536 }

/-- The child that an interior entry names, if it names one: slot, column and sector. -/
def innerOf (w : Nat) : Option (Nat × Nat × Nat) :=
  if w / 2 ^ 62 == 1 then some (w / 2 ^ 24 % 2 ^ 31, w / 2 ^ 55 % 32, w / 2 ^ 20 % 16) else none

/-- The entry of a parent node for a child: where the running checkpoint puts it, else where it is known to lie. -/
def Chip.childWord (s : Chip) (key : Nat) : Nat :=
  match (Tab.find s.str.fixed key).orElse fun _ => Tab.find s.str.mapNodes key with
  | some (slot, col, sector) => innerWord (s.mapSet.getD 0) slot col sector
  | none => 0

/-- The 512 entries of a map node, as the map area holds it. -/
def Chip.nodeWords (s : Chip) (key : Nat) : List Nat :=
  let level := key / 2 ^ 30
  let idx := key % 2 ^ 30
  (List.range 512).map fun i =>
    if level == 0 then (s.leaf (idx * 512 + i)).word else s.childWord (nodeKey (level - 1) (idx * 512 + i))

/-- The 16 entries of the root. -/
def Chip.rootWords (s : Chip) : List Nat := (List.range 16).map fun i => s.childWord (nodeKey 2 i)

/-! ### Chunks and parity (09 R233) -/

/-- The chunk of a data column of a stripe: a page's bytes, sixteen map nodes, or the zeros of a filler column. -/
def Chip.dataChunk (s : Chip) (x : Stripe) (c : Nat) : List Byte :=
  if x.map then padTo 65536 ((x.nodes.getD c []).flatMap fun key => (s.nodeWords key).flatMap (le 8))
  else match x.cols[c]? with
    | some col => Memory.readN 0 col.bytes (col.page * 65536) 65536
    | none => List.replicate 65536 0

/-- A parity chunk: each byte from the bytes of the data columns in its place. -/
def parityChunk (f : List Nat → Nat) (data : List (List Byte)) : List Byte :=
  (List.range 65536).map fun j => BitVec.ofNat 8 (f (data.map fun c => (c.getD j 0).toNat))

/-- What a position of a stripe holds (09 Table 9-4): its role, 0 data, 1 P, 2 Q, 3 mirror copy, and its data column. -/
def SetCfg.roleAt (g : SetCfg) (slot : Nat) (l : List Nat) (p : Nat) : Nat × Nat :=
  let i := l.findIdx (· == p)
  let d := g.colsOf l.length
  if g.layout == 0 || g.layout == 1 then (if i < d then 0 else 3, i % Nat.max 1 d)
  else
    let data := g.dataPos slot l
    if data.contains p then (0, data.findIdx (· == p))
    else if p == l.getD (l.length - 1 - slot % Nat.max 1 l.length) 0 then (1, 255) else (2, 255)

/-- The chunk that a position of a stripe holds. -/
def Chip.chunkAt (s : Chip) (i : Nat) (x : Stripe) (p : Nat) : List Byte :=
  let g := (s.set i).cfg
  let data := (List.range (g.colsOf x.present.length)).map (s.dataChunk x)
  match g.roleAt x.slot x.present p with
  | (1, _) => parityChunk parityP data
  | (2, _) => parityChunk parityQ data
  | (_, c) => data.getD c []

/-! ### The stripe header (09 R235, Table 9-4) -/

/-- The entry of the column table for a page: its page number and its new leaf entry. -/
def colEntry (page : Nat) (l : Leaf) : List Byte := le 4 page ++ le 4 0 ++ le 8 l.word

/-- The leaf entry that a column of a stripe gives its page. -/
def Stripe.leafOf (x : Stripe) (i c : Nat) (col : Column) : Leaf :=
  { kind := if col.lost == 0 then 1 else 2, set := i, col := c, slot := x.slot, lost := col.lost }

/-- The column table, which carries the stripe's map deltas. -/
def Stripe.colTable (x : Stripe) (i : Nat) : List Byte :=
  padTo 512 ((x.cols.zipIdx).flatMap fun e => colEntry e.1.page (x.leafOf i e.2 e.1))

/-- The node list of a MAP stripe: an empty place holds all ones. -/
def Stripe.nodeList (x : Stripe) : List Byte :=
  if x.map then (List.range 512).flatMap fun k => le 4 (((x.nodes.getD (k / 16) [])[k % 16]?).getD (2 ^ 32 - 1))
  else List.replicate 2048 0

/-- Bytes 0 to 2,631 of the header block, the same on every position. -/
def Chip.headCommon (s : Chip) (i : Nat) (x : Stripe) : List Byte :=
  let g := (s.set i).cfg
  let d := g.colsOf x.present.length
  let filler := if x.map then 0 else ((List.range d).filter (x.cols.length ≤ ·)).foldl (fun m c => setBit m c true) 0
  let b := le 4 0x564E5354 ++ [1] ++ le 1 g.layout ++ le 1 i ++ le 1 g.n ++
    le 4 (x.present.foldl (fun m k => setBit m k true) 0) ++ le 4 x.slot ++ le 8 x.seq ++ le 8 (s.set i).ident.toNat ++
    le 8 s.sec.writer.toNat ++ le 4 s.glb.epoch ++ le 1 (b2n x.map) ++ le 1 (b2n x.clean + 2 * b2n x.ecl + 4 * b2n (filler != 0)) ++
    le 1 d ++ le 1 0 ++ le 4 filler ++ List.replicate 12 0 ++ x.colTable i ++ x.nodeList
  b ++ le 8 (crc64 b)

/-- The 17 LBAs that a position gets: the header block of a common part, its member part with role, column and lost mask, and the
chunk. -/
def memberBlocks (common chunk : List Byte) (p : Nat) (r : Nat × Nat) (lost : Nat) : List Byte :=
  let crcs := (List.range 16).flatMap fun j => le 8 (crc64 (slice chunk (4096 * j) 4096))
  let h := common ++ le 1 p ++ le 1 r.1 ++ le 1 r.2 ++ le 1 0 ++ le 2 lost ++ le 2 0 ++ crcs ++ List.replicate 1320 0
  h ++ le 8 (crc64 h) ++ chunk

/-- The 17 LBAs that a position of a stripe gets. -/
def Chip.blocksAt (s : Chip) (i : Nat) (x : Stripe) (p : Nat) : List Byte :=
  memberBlocks (s.headCommon i x) (s.chunkAt i x p) p ((s.set i).cfg.roleAt x.slot x.present p) 0

/-! ### A position of a slot written again (09 R249, R251, R252) -/

/-- The page whose live column a slot holds, if it holds one. -/
def Chip.pageAt (s : Chip) (i slot col : Nat) : Option Nat :=
  (s.pgm.leaves.find? fun e => e.2.kind != 0 && e.2.set == i && e.2.slot == slot && e.2.col == col).map (·.1)

/-- The lost mask in the member part of a position (09 Table 9-4). -/
def StripeSet.lostAt (t : StripeSet) (slot p : Nat) : Nat := Tab.get (Tab.get t.gaps [] slot) 0 p

/-- A data column of a slot: the stored copy of the live page that it holds, else the bytes that the reads of the slot gave, which are
the drives' own (log 196). -/
def Chip.slotColumn (s : Chip) (i slot d c : Nat) : List Byte := match s.pageAt i slot c with
  | some p => Memory.readN 0 s.str.stored (p * 65536) 65536
  | none => (List.range 65536).map fun k => Config.foundByte (c * 65536 + k) d

/-- The 17 LBAs that a position of a sealed slot gets from the other positions: their common part, the chunk that they give, and the
member part made anew. -/
def Chip.slotBlocks (s : Chip) (i slot p lost : Nat) : List Byte × Chip :=
  let g := (s.set i).cfg
  let l := (s.set i).presentAt slot
  let cols := List.range (g.colsOf l.length)
  let s1 := (cols.filterMap (s.pageAt i slot)).foldl Chip.learn s
  let d := s1.draw
  let data := cols.map (d.2.slotColumn i slot d.1)
  let r := g.roleAt slot l p
  let chunk := match r with
    | (1, _) => parityChunk parityP data
    | (2, _) => parityChunk parityQ data
    | (_, c) => data.getD c []
  (memberBlocks ((List.range 2632).map fun k => Config.foundByte (2 ^ 32 + k) d.1) chunk p r lost, d.2)

/-! ### The stripe journal (09 R239, Table 9-5) -/

/-- A journal record of a set as its 1,024 bytes. -/
def jrecBytes (r : JRec) (i : Nat) : List Byte :=
  let b := le 1 r.type ++ le 1 i ++ le 2 r.count ++ le 4 0 ++ le 8 r.seq ++ le 8 r.stripe ++ le 4 r.slot ++ le 4 0 ++
    padTo 960 r.body ++ List.replicate 24 0
  b ++ le 8 (crc64 b)

/-- The 4 KiB block of a record: the records of its four that are there. -/
def StripeSet.block (t : StripeSet) (i n : Nat) : List Byte :=
  (List.range 4).flatMap fun k => match t.jrecs.find? fun r => r.seq == n / 4 * 4 + k with
    | some r => jrecBytes r i
    | none => List.replicate 1024 0

/-- The LBA of the block of a record in the ring of 65,536 records (09 Table 9-3, R239). -/
def ringLba (n : Nat) : Nat := 512 + n / 4 % 16384

/-- The block of a record written to a journal position. -/
def Chip.writeBlock (s : Chip) (i n p : Nat) (use : CmdUse) : Chip :=
  s.posCmd i p 1 (.write (ringLba n) 1 ((s.set i).block i n)) use

/-- A stripe journal record written to every copy in service: its block is written again as records join it (09 R239, R241)
(log 168). -/
def Chip.jrecord (s : Chip) (i type stripe slot : Nat) (count : Nat := 0) (body : List Byte := []) : Chip :=
  let n := (s.set i).jseq + 1
  let s1 := s.modSet i fun t => { t with jseq := n, jrecs := t.jrecs ++ [{ type, count, seq := n, stripe, slot, body }] }
  (s.set i).jlive.foldl (fun u p => u.writeBlock i n p (.journal i n)) s1

/-- The live part of the ring: what is newer than the latest checkpoint, and the rest of the current block. -/
def StripeSet.trim (t : StripeSet) : StripeSet :=
  { t with jrecs := t.jrecs.filter fun r => t.jckpt < r.seq || r.seq / 4 == t.jseq / 4 }

/-- A record has completed on every copy in service (09 R236, R241). -/
def Chip.recordDone (s : Chip) (i n : Nat) : Bool := !s.inFlight (.journal i n)

/-- The blocks of the live ring from a record on copied to a new journal position, in class 1 (09 R241). -/
def Chip.copyRing (s : Chip) (i p from_ : Nat) : Chip :=
  let ns := (((s.set i).jrecs.filter fun r => from_ ≤ r.seq).map fun r => r.seq / 4 * 4).eraseDups
  ns.foldl (fun u n => u.writeBlock i n p (.ring i)) (s.modSet i fun t => { t with jcopy := some (p, t.jseq) })

/-- A copy of the ring goes on: records that joined it meanwhile are copied too, and then the position is in service. -/
def Chip.ringCopied (s : Chip) (i : Nat) : Chip :=
  match (s.set i).jcopy with
  | none => s
  | some (p, upto) =>
    if s.inFlight (.ring i) then s
    else if upto < (s.set i).jseq then s.copyRing i p (upto + 1)
    else s.modSet i fun t => { t with jcopy := none, jlive := t.jlive ++ [p] }

/-! ### The recorder area (09 Table 9-3, 16 R394) -/

/-- The first LBA of a half of the recorder area, 0 this unit's own, 1 the partner's: the lower writer ID has the first half, as
has a unit that knows of no partner (log 132). -/
def Chip.archLba (s : Chip) (half : Nat) : Nat :=
  let first := match s.syz.partner with
    | some w => s.sec.writer.toNat < w.toNat
    | none => true
  if (half == 0) == first then 16896 else 17920

/-- The 4,096 records of an aligned block as the ring holds them; an unwritten slot reads as R391 gives. -/
def Chip.blockRecords (s : Chip) (b : Nat) : List Byte :=
  (rangeFrom (4096 * b) 4096).flatMap fun q => match Tab.find s.evr.ring (q % 65536) with
    | some r => padTo 64 r
    | none => le 8 (2 ^ 64 - 1) ++ List.replicate 56 0

/-- A block of records written to both journal positions of the map set. -/
def Chip.copyBlock (s : Chip) (m b cls : Nat) : Chip :=
  (s.set m).jlive.foldl (fun t p => t.posCmd m p cls (.write (s.archLba 0 + b % 16 * 64) 64 (s.blockRecords b)) (.copy b)) s

/-- A slot of the recorder area read in class 7 from the first of some positions, the others to follow where it does not answer
(16 R395). -/
def Chip.archiveFrom (s : Chip) (m : Nat) (ps : List Nat) : Chip := match ps with
  | p :: rest => s.posCmd m p 7 (.read (s.archLba s.evr.archHalf + s.evr.arch / 64 % 1024) 1) (.archive m rest)
  | [] => s

/-- Copies of recorder blocks whose Writes have all ended: what the ring had overwritten before is reported (16 R394). -/
def Chip.reportMissed (s : Chip) : Chip :=
  let done := s.evr.missed.filter fun e => !s.inFlight (.copy e.1)
  done.foldl (fun t e => t.raise 0x11 0xFFFF 1 2 0 (le 4 e.2 ++ le 8 (4096 * e.1) ++ [1]))
    { s with evr := { s.evr with missed := s.evr.missed.filter fun e => s.inFlight (.copy e.1) } }

/-! ### The device seal (13 R337, Table 13-7) -/

/-- The seal as one 4 KiB block. -/
def sealBytes (x : Seal) : List Byte :=
  let remap := (List.range 12).flatMap fun n => (List.range 16).flatMap fun k =>
    let e := Tab.get (Tab.get x.remap [] n) (0, 0) k
    le 4 e.1 ++ le 4 e.2
  let b := le 4 0x564E534C ++ [1] ++ le 1 x.kind ++ le 1 x.flags ++ le 1 x.undrained ++ le 8 x.writer.toNat ++ le 4 x.epoch ++
    le 4 x.boot ++ le 8 x.seq ++ le 8 x.pos ++ ((List.range 4).flatMap fun i => le 8 (x.records.getD i 0)) ++ le 8 x.head ++
    le 4 x.drain ++ le 4 x.rate ++ le 8 x.dirty ++ List.replicate 32 0 ++ remap ++ List.replicate 2424 0
  b ++ le 8 (crc64 b)

/-- The remap tables that a seal holds: the entries with VALID set (11 Table 11-3). -/
def sealRemaps (b : List Byte) : Tab (Tab (Nat × Nat)) :=
  (List.range 12).map fun n => (n, (List.range 16).filterMap fun k =>
    let w := leField b (128 + 128 * n + 8 * k) 4
    if bit w 31 then some (k, (w, leField b (132 + 128 * n + 8 * k) 4)) else none)

/-- The seal that a block holds: its magic, format and CRC-64 are right. -/
def sealOf (b : List Byte) : Option Seal :=
  if b.length != 4096 || leField b 0 4 != 0x564E534C || leField b 4 1 != 1 || leField b 4088 8 != crc64 (b.take 4088) then none
  else some {
    kind := leField b 5 1, flags := leField b 6 1, undrained := leField b 7 1, writer := BitVec.ofNat 64 (leField b 8 8),
    epoch := leField b 16 4, boot := leField b 20 4, seq := leField b 24 8, pos := leField b 32 8,
    records := (List.range 4).map fun i => leField b (40 + 8 * i) 8, head := leField b 72 8, drain := leField b 80 4,
    rate := leField b 84 4, dirty := leField b 88 8, remap := sealRemaps b }

/-- A seal is newer than another: by its stripe sequence, then by its epoch. -/
def Seal.newer (a b : Seal) : Bool := b.seq < a.seq || (a.seq == b.seq && b.epoch < a.epoch)

/-- The newest of some seals. -/
def newestSeal : List Seal → Option Seal
  | [] => none
  | x :: r => match newestSeal r with
    | none => some x
    | some y => if y.newer x then some y else some x

/-! ### Labels (09 Table 9-3) -/

/-- A label as one 4 KiB block, its fields in the order in which Table 9-3 names them (log 127). -/
def labelBytes (l : Label) : List Byte :=
  let b := le 8 l.setId.toNat ++ le 4 l.gen ++ le 1 l.layout ++ le 1 l.n ++ le 1 l.pos ++
    ((List.range l.n).flatMap fun k => le 1 (l.fg.getD k 0) ++ le 20 (l.serials.getD k 0)) ++ le 8 l.z
  padTo 4088 b ++ le 8 (crc64 (padTo 4088 b))

/-- The label of a drive written, two copies at LBAs 0 and 1. -/
def Chip.writeLabel (s : Chip) (d : Nat) : Chip := match (s.drive d).label with
  | some l => s.nvme d 8 (.write 0 2 (labelBytes l ++ labelBytes l))
  | none => s

end Sys2Proof.Machine
end

