-- ==== Sys2Proof/Machine/Destage.lean ====
section
/-!
DEFINITION. The destager and the stripe engine's writes (08 R207 to R217, 09 R232 to R246): slots and segments, the
choice of pages, stripes written, sealed and abandoned, the map checkpoint, the cleaner, a rebuild's visits, and map nodes
loaded.
-/
namespace Sys2Proof.Machine

/-! ### Slots and segments -/

/-- Minimum present positions to write (09 Table 9-2). -/
def SetCfg.minPresent (g : SetCfg) : Nat := [2, 3, 3, 4].getD g.layout 4

/-- Positions that a new stripe is written over: the present ones and the one a rebuild fills (09 R238, R252). -/
def StripeSet.writePos (t : StripeSet) : List Nat :=
  (List.range t.cfg.n).filter fun i => t.presentPos.contains i || (t.rbState == 1 && t.rbPos == i)

/-- The present list of a new stripe: a mirror layout drops the entries beyond its copies (09 R233). -/
def StripeSet.presentList (t : StripeSet) : List Nat :=
  let l := t.writePos
  if t.cfg.layout == 0 then l.take (2 * t.cfg.colsOf l.length)
  else if t.cfg.layout == 1 then l.take (3 * t.cfg.colsOf l.length)
  else l

/-- Data columns that a stripe started now has. -/
def StripeSet.colsNow (t : StripeSet) : Nat := t.cfg.colsOf t.writePos.length

/-- Segments of a set (09 R234). -/
def StripeSet.segCount (t : StripeSet) : Nat := (t.z - 32768) / 4352

/-- FREE segments of a set. -/
def StripeSet.freeSegs (t : StripeSet) : Nat := t.segCount - t.segs.length

/-- The reserve R of a set of some segments and data columns, each part rounded up (09 R245; log 57). -/
def Chip.reserveFor (s : Chip) (segs cols : Nat) : Nat :=
  Nat.max (ceilDiv (s.par 0x900318 * segs) 100) (ceilDiv (ceilDiv (s.pgm.budget * 16) (Nat.max 1 cols)) 256 + 4)

/-- The reserve R of a set, in segments. -/
def Chip.segReserve (s : Chip) (t : StripeSet) : Nat := s.reserveFor t.segCount t.cfg.cols

/-- The next slot of a set's open segment (09 R236); with none open, the lowest FREE segment is opened, past the reserve
only where `spare` allows it (R245; log 56 and 58). -/
def Chip.takeSlot (s : Chip) (i : Nat) (spare : Bool) : Option (Nat × Chip) :=
  let t := s.set i
  match t.segs.find? fun e => e.2.st == .opened && !e.2.closed with
  | some (g, e) =>
    let e1 := { e with next := e.next + 1, st := if e.next + 1 == 256 then .full else .opened }
    some (256 * g + e.next, s.modSet i fun t => { t with segs := Tab.ins t.segs g e1 })
  | none =>
    if !spare && t.freeSegs ≤ s.segReserve t then none
    else match (List.range t.segCount).find? fun g => (Tab.find t.segs g).isNone with
      | none => none
      | some g =>
        let e : Segment := { st := .opened, next := 1, superseded := 0, closed := false, dead := [] }
        some (256 * g, (s.modSet i fun t => { t with segs := Tab.ins t.segs g e }).jrecord i 1 0 g)

/-- The contents of a slot superseded by a stripe (09 R244). -/
def Chip.supersede (s : Chip) (i slot seq : Nat) : Chip :=
  s.modSet i fun t => match Tab.find t.segs (slot / 256) with
    | some e => { t with segs := Tab.ins t.segs (slot / 256) { e with superseded := Nat.max e.superseded seq } }
    | none => t

/-- The present list of a written slot kept where it is not every position (09 R238). -/
def Chip.notePresent (s : Chip) (i slot : Nat) (l : List Nat) : Chip :=
  s.modSet i fun t => { t with parts := Tab.set t.parts (List.range t.cfg.n) slot l }

/-- Pages whose live columns lie in a segment (09 R244). -/
def Chip.livePages (s : Chip) (i g : Nat) : List (Nat × Leaf) :=
  s.pgm.leaves.filter fun e => e.2.kind != 0 && e.2.set == i && e.2.slot / 256 == g

/-- Current map nodes whose columns lie in a segment: each with its slot and column. -/
def Chip.liveNodes (s : Chip) (i g : Nat) : List (Nat × Nat × Nat) :=
  if s.mapSet == some i then (s.str.mapNodes.filter fun e => e.2.1 / 256 == g).map fun e => (e.1, e.2.1, e.2.2.1) else []

/-- Live columns of a segment. -/
def Chip.liveCols (s : Chip) (i g : Nat) : Nat :=
  (s.livePages i g).length + ((s.liveNodes i g).map (·.2)).eraseDups.length

/-! ### Rows with too many unknowns (09 R253) -/

/-- A lost range recorded (09 R253), and counted by a rebuild that runs. -/
def Chip.lostRange (s : Chip) (i slot pos addr len : Nat) : Chip :=
  (s.modSet i fun x => { x with rbLost := if x.rbState == 1 then x.rbLost + 1 else x.rbLost }).raise 9 i 2 3 0
    (le 1 i ++ le 4 slot ++ le 1 pos ++ le 8 addr ++ le 4 len)

/-- The pages of a slot whose live column lies on unknown positions alone, each with a position of its own. -/
def Chip.rowPages (s : Chip) (i slot : Nat) (gone : List Nat) : List (Nat × Nat) :=
  let t := s.set i
  (List.range (t.cfg.colsOf (t.presentAt slot).length)).filterMap fun c =>
    let ps := t.copies slot c
    if ps.all gone.contains then (s.pageAt i slot c).map fun p => (ps.headD 0, p) else none

/-- The frame of a page holds what is stored of a sector (09 R253 step 2). -/
def Chip.frameGives (s : Chip) (p : Nat) : Bool := (s.page p).st == .clean || (s.page p).st == .evicting

/-- A page's frame, the twin or its delta lines give a sector of it (09 R253 steps 2 to 4). -/
def Chip.rowGives (s : Chip) (p sec : Nat) : Bool := s.frameGives p || (s.sectorGiven p sec).isSome || s.sectorCovered p sec

/-- A row that the layout solves with the sectors that some of its pages gave (09 R253 step 5). -/
def StripeSet.solves (t : StripeSet) (gone got : Nat) : Bool :=
  t.cfg.layout != 0 && t.cfg.layout != 1 && gone - got ≤ t.cfg.tolerance

/-- The pages of a row that gave their sector. -/
def Chip.rowGot (s : Chip) (i slot sec : Nat) (gone : List Nat) : List (Nat × Nat) :=
  (s.rowPages i slot gone).filter fun x => s.rowGives x.2 sec

/-- One unknown sector of a live page (09 R253): recovered or lost, the page is charged, a frame as by a write, which abandons an
eviction, and a page without one by a relocation fetch. A lost one marks a frame's page LOST_PARTIAL, unless an atomic is in
progress on it: then once that has ended (01 R21). -/
def Chip.rowSector (s : Chip) (i slot pos p sec : Nat) (known : Bool) : Chip :=
  let s1 := if known then s else s.lostRange i slot pos (p * 65536 + sec * 4096) 4096
  if (s.page p).resident then
    let t := (s1.demand p 5).writePage p true
    if known then t
    else
      let g := t.page p
      t.setPage p { g with lost := setBit g.lost sec true, st := if t.atomicOn p then g.st else .lostPartial, due := t.atomicOn p }
  else
    let s2 := if known then s1
      else
        let l := s.leaf p
        let m : Leaf := { l with kind := 2, lost := setBit l.lost sec true }
        let t := s1.jrecord i 4 0 0 1 (colEntry p m)
        let nodes := if t.str.nodes.contains (p / 512) then t.str.nodes else t.str.nodes ++ [p / 512]
        { t with pgm := { t.pgm with leaves := Tab.set t.pgm.leaves Leaf.zero p m }, str := { t.str with nodes := nodes } }
    let s3 := s2.queueFetch p 5
    (s3.setPage p { s3.page p with reloc := true }).charge p

/-- The sectors of a row that the twin is asked for: those that no frame gives (09 R253 step 3). -/
def Chip.rowAsks (s : Chip) (i : Nat) (r : Nat × Nat × List Nat) : List (Nat × Nat) :=
  ((s.rowPages i r.1 r.2.2).filter fun x => !s.frameGives x.2).map fun x => (x.2, r.2.1)

/-- One row of a slot treated: slot, sector and the positions unknown in it. `own` is a page that its own fetch has dealt with. -/
def Chip.treatRow (s : Chip) (i : Nat) (own : Option Nat) (r : Nat × Nat × List Nat) : Chip :=
  let ps := s.rowPages i r.1 r.2.2
  let gave (x : Nat × Nat) : Bool := if own == some x.2 then !bit (s.page x.2).lost r.2.1 else s.rowGives x.2 r.2.1
  let got := ps.filter gave
  let all := (s.set i).solves r.2.2.length got.length
  (ps.filter fun x => own != some x.2).foldl (fun t x => t.rowSector i r.1 x.1 x.2 r.2.1 (all || got.contains x)) s

/-- Rows treated once the twin has answered for the sectors that it is asked for (09 R253); until then the step that found them is
not over. -/
def Chip.treatRows (s : Chip) (i : Nat) (own : Option Nat) (rows : List (Nat × Nat × List Nat)) (done : Chip → Chip) : Chip :=
  let asks := (rows.flatMap (s.rowAsks i)).filter fun x => own != some x.1
  let s1 := s.askSectors asks
  if asks.any fun x => s1.askWaits (sectorAddr x.1 x.2) 4096 then s1
  else done ((rows.foldl (fun t r => t.treatRow i own r) s1).dropSectors asks)

/-! ### A rebuild's visits (09 R252) -/

/-- Slots that the rebuild of a set has still to visit, ascending: those in use whose present list holds its position. -/
def StripeSet.rebuildLeft (t : StripeSet) : List Nat :=
  t.segs.flatMap fun e => (rangeFrom (256 * e.1) e.2.next).filter fun slot =>
    t.rbSlot ≤ slot && t.slotUsed slot && !e.2.dead.contains (slot % 256) && (t.presentAt slot).contains t.rbPos

/-- The positions that a position of a slot is reconstructed from: the other copies of its column, or the rest of the stripe. -/
def StripeSet.solveFrom (t : StripeSet) (slot p : Nat) : List Nat :=
  let l := t.presentAt slot
  let r := t.cfg.roleAt slot l p
  if t.cfg.layout == 0 || t.cfg.layout == 1 then (t.copies slot r.2).filter fun q => q != p && t.readable slot q
  else l.filter fun q => q != p && t.readable slot q

/-- A Read of a rebuild of a set is waiting or outstanding. -/
def Chip.rebuildReads (s : Chip) (i : Nat) : Bool :=
  let mine (u : CmdUse) : Bool := match u with
    | .rebuildRead j _ _ => j == i
    | .rebuildSector j _ _ _ => j == i
    | _ => false
  s.str.drives.any fun e => e.2.cmds.any (fun c => mine c.2.use) || e.2.waitCmds.any fun c => mine c.use

/-- The sectors of a slot that are unknown: whole positions that cannot be read, and those that did not read back. -/
def StripeSet.goneAt (t : StripeSet) (slot sec : Nat) : List Nat :=
  (t.presentAt slot).filter fun q => !t.readable slot q || t.rbBad.contains (q, sec)

/-- The rows of a slot with more unknown sectors than the layout solves. -/
def Chip.badRows (s : Chip) (i slot : Nat) : List (Nat × Nat × List Nat) :=
  let t := s.set i
  (List.range 16).filterMap fun sec =>
    let g := t.goneAt slot sec
    if t.solves g.length 0 then none else some (slot, sec, g)

/-- The sectors of a position that a rebuild cannot write with valid content (09 R253): of rows that stay unsolved, those that its
own page does not give. -/
def Chip.lostSectors (s : Chip) (i slot p : Nat) : Nat :=
  let t := s.set i
  (List.range 16).foldl (fun m sec =>
    let gone := t.goneAt slot sec
    let got := s.rowGot i slot sec gone
    let c := (t.cfg.roleAt slot (t.presentAt slot) p).2
    let whole := if t.cfg.layout == 0 || t.cfg.layout == 1 then !(t.copies slot c).all gone.contains else t.solves gone.length got.length
    setBit m sec (!whole && !(got.any fun x => (t.copies slot c).contains x.1))) 0

/-- A slot's sector that did not read back, written back where its row was solved (09 R249, R253). -/
def Chip.mendRow (s : Chip) (i slot : Nat) (b : Nat × Nat) : Chip :=
  if bit (s.lostSectors i slot b.1) b.2 then s
  else
    let x := s.slotBlocks i slot b.1 ((s.set i).lostAt slot b.1)
    x.2.lockWrite i slot b.1 4 (.write (slotLba slot + 1 + b.2) 1 (slice x.1 (4096 * (1 + b.2)) 4096)) (.repair i slot)

/-- The Write of a rebuilt position of a slot, under the slot's repair lock; the sectors that did not read back follow. -/
def Chip.rebuildWrite (s : Chip) (i slot lost : Nat) : Chip :=
  let p := (s.set i).rbPos
  let x := s.slotBlocks i slot p lost
  let s1 := x.2.modSet i fun t => { t with rbRead := none, gaps := Tab.set t.gaps [] slot (Tab.set (Tab.get t.gaps [] slot) 0 p lost) }
  s1.lockWrite i slot p 8 (.write (slotLba slot) 17 x.1) (.rebuild i slot)

/-- The Reads of a rebuild's slot have ended (09 R252, R253): its rows are solved or treated, and the position is written. -/
def Chip.rebuildJudge (s : Chip) (i : Nat) : Chip :=
  let t := s.set i
  match t.rbRead with
  | none => s
  | some slot =>
    if t.rbState != 1 || 4 ≤ s.ecl.step || s.rebuildReads i then s
    else
      let lost := s.lostSectors i slot t.rbPos
      let mend (u : Chip) : Chip := t.rbBad.foldl (fun v b => v.mendRow i slot b) u
      s.treatRows i none (s.badRows i slot) fun u => mend (u.rebuildWrite i slot lost)

/-- The next slot of a rebuild: read from the other positions in class 8, and then written to the new drive. Rebuild stops in E4. -/
def Chip.rebuildStep (s : Chip) (i : Nat) : Chip :=
  let t := s.set i
  if t.rbState != 1 || 4 ≤ s.ecl.step || t.rbRead.isSome || s.str.locks.any fun e => e.1 == i && e.2.2.2.rebuild then s
  else
    let s1 := s.modSet i fun t => { t with rbRemain := t.rebuildLeft.length }
    match t.rebuildLeft with
    | [] => s1
    | slot :: _ =>
      let s2 := s1.modSet i fun t => { t with rbRead := some slot, rbBad := [] }
      ((t.solveFrom slot t.rbPos).foldl (fun u q => u.posCmd i q 8 (.read (slotLba slot) 17) (.rebuildRead i slot q)) s2).rebuildJudge i

/-- A Read of a rebuild has ended: one that failed is made again sector by sector, and what fails there is unknown. -/
def Chip.rebuildReadDone (s : Chip) (i slot q : Nat) (sec : Option Nat) (ok : Bool) : Chip :=
  let s1 := if ok || (s.set i).rbRead != some slot then s
    else match sec with
      | none => (List.range 16).foldl (fun u k => u.posCmd i q 8 (.read (slotLba slot + 1 + k) 1) (.rebuildSector i slot q k)) s
      | some k => s.modSet i fun t => { t with rbBad := t.rbBad ++ [(q, k)] }
  s1.rebuildJudge i

/-- A rebuild's Write of a slot has ended: SLOT moves on. -/
def Chip.rebuilt (s : Chip) (i slot : Nat) : Chip :=
  ((s.modSet i fun t => { t with rbSlot := Nat.max t.rbSlot (slot + 1) }).unlock i slot).rebuildStep i

/-! ### Segments -/

/-- Segments that hold no live column become PENDING_FREE, and writes into their slots are abandoned (09 R244, R249). Live
columns are counted once every map node is loaded (log 128). -/
def Chip.segments (s : Chip) (i : Nat) : Chip :=
  if !s.pgm.bgDone then s
  else
    let s1 := s.modSet i fun t => { t with segs := t.segs.map fun e =>
      if (e.2.st == .full || e.2.st == .cleaning) && s.liveCols i e.1 == 0 && !(t.writing.any (·.slot / 256 == e.1)) &&
          !(s.mapSet == some i && s.str.fixed.any (·.2.1 / 256 == e.1)) then (e.1, { e.2 with st := .pendingFree }) else e }
    (s1.dropLocks fun e => e.1 == i && !(s1.set i).slotUsed e.2.1).rebuildStep i

/-! ### Stripes written -/

/-- Class of a stripe write (09 Table 9-6). -/
def Chip.writeClass (s : Chip) (urgent : Bool) : Nat := if s.ecl.step == 4 then 1 else if urgent then 2 else 8

/-- A set can be written at all: ready, the minimum present, and commands allowed (09 R238, R230). -/
def Chip.setWrites (s : Chip) (i : Nat) : Bool :=
  s.setUp i && (s.set i).cfg.minPresent ≤ (s.set i).writePos.length && s.drivesOn

/-- The ring of a set's journal is full of records newer than its checkpoint (09 R242). -/
def StripeSet.journalFull (t : StripeSet) : Bool := 65536 ≤ t.jseq - t.jckpt

/-- A stripe that has its slot and cells written (09 R236, R237): its sequence, and one Write of 17 LBAs for each position of
its present list. A position lost while it was being filled leaves it with fewer data columns: the pages beyond them begin the
next one (R238). -/
def Chip.launchAt (s : Chip) (i cls slot : Nat) (h : Handle) (x : Stripe) : Chip :=
  let l := (s.set i).presentList
  let d := (s.set i).colsNow
  let y := { x with slot, seq := s.str.seq, present := l, pend := l, chain := some h, cols := x.cols.take d, ecl := s.glb.state == .eclipse }
  let rest := if x.cols.length ≤ d then none else some { x with cols := x.cols.drop d, since := s.now }
  let s1 := { s with str := { s.str with seq := s.str.seq + 1 } }
  let s2 := s1.modSet i fun t => { t with writing := t.writing ++ [y], opened := if x.clean || x.map then t.opened else rest }
  l.foldl (fun u q => u.posCmd i q cls (.write (slotLba slot) 17 (s.blocksAt i y q)) (.stripe y.seq)) s2

/-- A stripe started: its slot, its drive fetch/destage cells and its Writes. Without a slot or cells it waits. -/
def Chip.launch (s : Chip) (i cls : Nat) (x : Stripe) : Option Chip :=
  match s.takeSlot i (x.clean || x.map || s.ecl.step == 4) with
  | none => none
  | some (slot, s1) =>
    let a := s1.alloc .str 3 none none (272 * (s.set i).presentList.length)
    a.1.map fun h => a.2.launchAt i cls slot h x

/-- A stripe started, or one that waits: for cells it is counted (06 Table 6-3). -/
def Chip.tryLaunch (s : Chip) (i cls : Nat) (x : Stripe) : Chip :=
  match s.launch i cls x with
  | some t => t
  | none => if (s.takeSlot i (x.clean || x.map || s.ecl.step == 4)).isSome then s.count 0x50003C else s

/-- The destager may write to a set: past its reserve, or in the drain of E4 (09 R245). -/
def Chip.mayDestage (s : Chip) (i : Nat) : Bool := s.ecl.step == 4 || s.segReserve (s.set i) < (s.set i).freeSegs

/-- The stripe being filled written, with filler columns where pages are short (08 R210). -/
def Chip.writeOpen (s : Chip) (i : Nat) : Chip :=
  match (s.set i).opened with
  | some x =>
    if x.cols.isEmpty || !s.setWrites i || !s.mayDestage i || (s.set i).journalFull then s
    else s.tryLaunch i (s.writeClass s.pgm.urgent) x
  | none => s

/-! ### The destager's choice -/

/-- The destager can take a page into a stripe of a set now (08 R210, R193; 11 R284). -/
def Chip.takeable (s : Chip) (i p : Nat) : Bool :=
  let g := s.page p
  let t := s.set i
  let inStripe := (t.opened.toList ++ t.writing).any fun x => !x.clean && x.cols.any (·.page == p)
  g.charged && s.setOf p == i && (g.st == .dirty || (g.st == .lostPartial && !inStripe)) &&
  !(s.lcc.banks.any fun e => (e.2.atomic.any fun a => pageOfLine a.1 == p) || e.2.repairs.any fun r => pageOfLine r.line == p)

/-- Pages in the destager's order (08 R210): those FLUSHes wait for, then the oldest dirty-since sequence. -/
def Chip.destageOrder (s : Chip) : List Nat :=
  let flash := s.flashPages
  let rest := ((s.pgm.pages.filter fun e => e.2.charged).mergeSort fun a b => a.2.since ≤ b.2.since).map (·.1)
  flash ++ rest.filter fun p => !flash.contains p

/-- The sectors of a page that hold a poisoned line (11 R285). -/
def Chip.poisonSectors (s : Chip) (p : Nat) : Nat :=
  (s.pgm.poison.filter (pageOfLine · == p)).foldl (fun m line => setBit m (line / 64 % 16) true) 0

/-- Sectors that a poisoned line makes a lost range of, each recorded once (02 R52, 11 R284; log 135). -/
def Chip.lostByPoison (s : Chip) (p mask : Nat) : Chip :=
  let known := (s.leaf p).lost ||| (s.page p).lost
  ((bitsOf 16 mask).filter fun i => !bit known i).foldl (fun t i =>
    t.raise 0x07 0xFFFF 1 3 0 (le 8 (p * 65536 + i * 4096) ++ le 4 4096 ++ le 1 (s.page p).st.code ++ [0] ++ le 4 0)) s

/-- Class of a destage's reads at its channel (10 Table 10-3). -/
def Chip.destageClass (s : Chip) : Nat := if 2 ≤ s.ecl.step && s.ecl.step ≤ 4 then 1 else if s.pgm.urgent then 2 else 4

/-- The lines of a page that the destager reads from the DRAM and that a burst may show in error: those given, those poisoned and those
that stay in error; a line that the write queue holds is answered from there (10 R264). -/
def Chip.destageLines (s : Chip) (p : Nat) (errs : List (Nat × List (Nat × Byte))) : List Nat :=
  let given := (errs.filter fun e => pageOfLine e.1 == p).map (·.1)
  let stay := match (s.page p).frame with
    | some f => ((s.chan (s.placeFrame f 0).ch).bad.filter fun e => e.1 / 1024 == f).map fun e => p * 1024 + e.1 % 1024
    | none => []
  let queued (l : Nat) : Bool := match s.frameLineNo l with
    | some fl => (s.chan (s.placeOf fl).ch).wq.any (·.1 == fl)
    | none => false
  (given ++ stay ++ s.pgm.poison.filter (pageOfLine · == p)).eraseDups.filter fun l => !queued l

/-- A page's frame read, and copied into a stripe column (08 R211, Table 8-3). -/
def Chip.takePage (s : Chip) (i p : Nat) (errs : List (Nat × List (Nat × Byte))) : Chip :=
  let g := s.page p
  let bytes := (s.destageLines p errs).foldl (fun m l =>
    let slip := s.slip l (Tab.get errs [] l)
    if slip.isEmpty then m else Memory.writeN 0 m (l * 64) (slipped slip 0 0 (s.frameLine l))) (Memory.sub s.pgm.frames (p * 65536) 65536)
  let c : Column := { page := p, lost := g.lost ||| s.poisonSectors p, bytes, old := none }
  let x := (s.set i).opened.getD { Stripe.blank with since := s.now }
  let s0 := (s.lostByPoison p (s.poisonSectors p)).sweepPage p s.destageClass .str false
  let s1 := s0.modSet i fun t => { t with opened := some { x with cols := x.cols ++ [c] } }
  s1.setPage p { g with st := if g.st == .dirty then .destaging else g.st, redirty := false, copied := s.pgm.stamp, jnext := 0 }

/-- The stripe being filled written early: a FLUSH waits on one of its pages, or Eclipse drains (08 R210). -/
def Chip.closeStripe (s : Chip) (i : Nat) : Chip :=
  match (s.set i).opened with
  | some x => if s.ecl.step == 4 || x.cols.any (fun c => s.flashPages.contains c.page) then s.writeOpen i else s
  | none => s

/-- The destager's read of a page, by the errors of its lines: an uncorrectable line starts a repair, and the page waits for its
end (11 R282, R284). -/
def Chip.destageRead (s : Chip) (p : Nat) (errs : List (Nat × List (Nat × Byte))) : Bool × Chip :=
  (s.destageLines p errs).foldl (fun (r : Bool × Chip) l =>
    let t := r.2.readBurst l (Tab.get errs [] l)
    if t.1 == .uncorrectable then (true, t.2.startRepair (t.2.bankOf l) l) else (r.1, t.2)) (false, s)

/-- A destager choice for a set (08 R210): the first page it can take is read and joins the stripe, which is written when
full. -/
def destageChooseEffect (i : Nat) (errs : List (Nat × List (Nat × Byte))) (s : Chip) : Chip :=
  let t := s.set i
  if !s.setWrites i || !s.mayDestage i then s
  else if t.journalFull then
    if t.jwait then s else (s.count 0x700100).modSet i fun t => { t with jwait := true }
  else
    let order := s.destageOrder
    match order.find? (s.takeable i) with
    | none => s.closeStripe i
    | some p =>
      let r := s.destageRead p errs
      if r.1 then r.2
      else
      let s1 := r.2.takePage i p errs
      let n := ((s1.set i).opened.map (·.cols.length)).getD 0
      if t.colsNow ≤ n then s1.writeOpen i
      else if order.any (s1.takeable i) then s1
      else s1.closeStripe i

def execDestageChoose (set : Nat) (errs : List (Nat × List (Nat × Byte))) (s : State) : Host.Outcome State Fault Refusal :=
  .next (s.on (destageChooseEffect set errs))

/-- PGM_STRIPE_WAIT has passed since the first page of a set's stripe was chosen (08 R210). -/
def stripeWaitEffect (i : Nat) (s : Chip) : Chip := s.writeOpen i

def execStripeWaitExpiry (set : Nat) (s : State) : Host.Outcome State Fault Refusal := .next (s.on (stripeWaitEffect set))

/-! ### The map checkpoint (09 R242) -/

/-- Nodes laid into MAP stripes of the map set, sixteen to a chunk, in their order: a parent that follows its children
records where they lie. An error when a slot is missing, or (true) cells are. -/
def Chip.layMap : Nat → Chip → Nat → Nat → List Nat → Except Bool Chip
  | 0, s, _, _, keys => if keys.isEmpty then .ok s else .error false
  | n + 1, s, m, cls, keys =>
    if keys.isEmpty then .ok s
    else match s.takeSlot m true with
      | none => .error false
      | some (slot, s1) =>
        let d := Nat.max 1 (s.set m).colsNow
        let mine := keys.take (16 * d)
        let put := mine.zipIdx.map fun e => (e.1, slot, e.2 / 16, e.2 % 16)
        let x : Stripe := { Stripe.blank with map := true, nodes := (List.range d).map fun c => (mine.drop (16 * c)).take 16, since := s.now }
        let a := s1.alloc .str 3 none none (272 * (s.set m).presentList.length)
        match a.1 with
        | none => .error true
        | some h =>
          let s2 := { a.2 with str := { a.2.str with
            fixed := put.foldl (fun t (e : Nat × Nat × Nat × Nat) => Tab.ins t e.1 e.2) a.2.str.fixed, ckptLeft := a.2.str.ckptLeft ++ [a.2.str.seq] } }
          Chip.layMap n (s2.launchAt m cls slot h x) m cls (keys.drop (16 * d))

/-- The nodes that a checkpoint writes, leaf nodes first, then L1, then L2 (09 R242): those modified, and their parents. -/
def Chip.dirtyNodes (s : Chip) : List Nat :=
  let at_ (level : Nat) : List Nat := (s.str.nodes.filter fun k => k / 2 ^ 30 == level).map (· % 2 ^ 30)
  let l0 := at_ 0
  let l1 := (at_ 1 ++ l0.map (· / 512)).eraseDups
  let l2 := (at_ 2 ++ l1.map (· / 512)).eraseDups
  l0.map (nodeKey 0) ++ l1.map (nodeKey 1) ++ l2.map (nodeKey 2)

/-- A checkpoint whose MAP stripes are sealed writes its CHECKPOINT record: C and the new root (09 R242 step 3). -/
def Chip.checkpointRecord (s : Chip) : Chip :=
  match s.mapSet, s.str.ckptRun with
  | some m, some c =>
    if !s.str.ckptLeft.isEmpty || s.str.ckptRec then s
    else ({ s with str := { s.str with ckptRec := true } }).jrecord m 3 c 0 16 (s.rootWords.flatMap (le 8))
  | _, _ => s

/-- A checkpoint is due (09 R242): by its stride, or by the records of some set. -/
def Chip.checkpointDue (s : Chip) : Bool :=
  s.par 0x90031C ≤ s.str.sealedSince || s.str.sets.any fun e => e.2.cfg.on && 32768 < e.2.jseq - e.2.jckpt

/-- A checkpoint started when it is due (09 R242): C fixed, and its nodes laid into MAP stripes. A node that it has to write and
that is not loaded yet is read first. -/
def Chip.checkpoint (s : Chip) : Chip :=
  match s.mapSet with
  | none => s
  | some m =>
    if s.str.ckptRun.isSome || !s.checkpointDue || !s.setWrites m || !s.pgm.root then s
    else match s.dirtyNodes.find? fun k => !s.nodeThere (k / 2 ^ 30) (k % 2 ^ 30) with
      | some k => s.readNode (k / 2 ^ 30) (k % 2 ^ 30) 7
      | none =>
        let urgent := s.pgm.urgent || s.str.sets.any fun e => 49152 ≤ e.2.jseq - e.2.jckpt
        match Chip.layMap s.dirtyNodes.length s m (s.writeClass urgent) s.dirtyNodes with
        | .error cells => if cells then s.count 0x50003C else s
        | .ok s1 =>
          let sets := s1.str.sets.map fun e => (e.1, { e.2 with jfix := e.2.jseq })
          ({ s1 with str := { s1.str with ckptRun := some s.str.lastSealed, nodes := [], sealedSince := 0, sets } }).checkpointRecord

/-- A checkpoint that loses a MAP stripe ends: its nodes are modified still, and the next one is due at once (log 129). -/
def Chip.checkpointLost (s : Chip) : Chip :=
  { s with str := { s.str with ckptRun := none, fixed := [], ckptLeft := [], ckptRec := false, sealedSince := s.par 0x90031C,
                               nodes := (s.str.nodes ++ s.str.fixed.map (·.1)).eraseDups } }

/-- The map nodes of a checkpoint take their places, and count as loaded. -/
def Chip.placeNode (s : Chip) (e : Nat × Nat × Nat × Nat) : Chip :=
  let level := e.1 / 2 ^ 30
  let idx := e.1 % 2 ^ 30
  let add (l : List Nat) : List Nat := if l.contains idx then l else l ++ [idx]
  let s1 := match Tab.find s.str.mapNodes e.1, s.mapSet with
    | some o, some m => s.supersede m o.1 s.str.seq
    | _, _ => s
  let p := s1.pgm
  { s1 with
    str := { s1.str with mapNodes := Tab.ins s1.str.mapNodes e.1 e.2 },
    pgm := if level == 0 then { p with lnodes := add p.lnodes } else if level == 1 then { p with l1s := add p.l1s } else { p with l2s := add p.l2s } }

/-- A segment becomes FREE: a FREE record, and its LBAs deallocated (09 R244). -/
def Chip.freeSegment (s : Chip) (i g : Nat) : Chip :=
  let s1 := (s.modSet i fun t => { t with segs := Tab.del t.segs g, gaps := t.gaps.filter fun e => e.1 / 256 != g }).jrecord i 5 0 g
  (s.set i).presentPos.foldl (fun u q => u.posCmd i q 8 (.deallocate (slotLba (256 * g)) 4352)) s1

/-- Pending segments of every set that a checkpoint frees. -/
def Chip.freePending (s : Chip) (c : Nat) : Chip :=
  s.str.sets.foldl (fun t e =>
    ((e.2.segs.filter fun x => x.2.st == .pendingFree && x.2.superseded ≤ c).map (·.1)).foldl (fun u g => u.freeSegment e.1 g) t) s

/-! ### The cleaner (09 R244, R245) -/

/-- The FULL segments that the cleaner works through, those with the fewest live columns first (09 R244). -/
def Chip.cleanOrder (s : Chip) (i : Nat) : List Nat :=
  let t := s.set i
  ((t.segs.filter fun e => (e.2.st == .full || e.2.st == .cleaning) && s.liveCols i e.1 < 256 * t.colsNow &&
    !(t.writing.any (·.slot / 256 == e.1))).mergeSort fun a b => s.liveCols i a.1 ≤ s.liveCols i b.1).map (·.1)

/-- Live chunks of a segment that the cleaner copies: a page that is RESIDENT_DIRTY or DESTAGING is skipped. -/
def Chip.cleanPages (s : Chip) (i g : Nat) : List (Nat × Leaf) :=
  (s.livePages i g).filter fun x => (s.page x.1).st != .dirty && (s.page x.1).st != .destaging

/-- A live chunk read for the cleaner, its bytes as a column of its stripe. -/
def Chip.cleanRead (s : Chip) (i : Nat) (x : Nat × Leaf) : Column × Chip :=
  let s1 := s.learn x.1
  ({ page := x.1, lost := x.2.lost, bytes := Memory.sub s1.str.stored (x.1 * 65536) 65536, old := some x.2 },
    s1.readColumn i x.2.slot x.2.col 8 (.clean i x.1))

/-- A Read of the cleaner of a set is waiting or outstanding. -/
def Chip.cleanReads (s : Chip) (i : Nat) : Bool :=
  let mine (u : CmdUse) : Bool := match u with
    | .clean j _ => j == i
    | _ => false
  s.str.drives.any fun e => e.2.cmds.any (fun c => mine c.2.use) || e.2.waitCmds.any fun c => mine c.use

/-- The Reads of a cleaner stripe have ended: the stripe is written, unless the set cannot be written any more. -/
def Chip.cleanGo (s : Chip) (i : Nat) : Chip :=
  match (s.set i).copying with
  | none => s
  | some (cls, x) =>
    if s.cleanReads i then s
    else
      let s1 := s.modSet i fun t => { t with copying := none }
      if x.cols.isEmpty || !s.setWrites i then s1 else s1.tryLaunch i cls x

/-- A Read of the cleaner has ended: one that failed at the column's own position is made from the rest of the stripe; a chunk that
does not read back stays where it is. -/
def Chip.cleanReadDone (s : Chip) (i p d : Nat) (ok : Bool) : Chip :=
  let l := s.leaf p
  let t := s.set i
  let own := ((t.copies l.slot l.col).find? (t.readable l.slot)).bind fun q => (t.pos[q]?).bind (·.drive)
  let s1 := if ok then s
    else if own == some d then (t.others l.slot l.col).foldl (fun u q => u.posCmd i q 8 (.read (slotLba l.slot) 17) (.clean i p)) s
    else s.modSet i fun t => { t with copying := t.copying.map fun c => (c.1, { c.2 with cols := c.2.cols.filter (·.page != p) }) }
  s1.cleanGo i

/-- The cleaner of a set (09 R244, R245): its priority; the current map nodes of the segments it works on marked modified; and
one cleaner stripe of live chunks from them. -/
def Chip.cleanStep (s : Chip) (i : Nat) : Chip :=
  let t := s.set i
  let free := t.freeSegs * 100
  let mark := s.par 0x900314
  let urgent := if t.urgent then free ≤ (mark + 2) * t.segCount else free < mark * t.segCount
  let s1 := s.modSet i fun t => { t with urgent }
  let stop := s.ecl.step == 4 && s.segReserve t < t.freeSegs
  let d := t.colsNow
  if s.par 0x900310 * t.segCount ≤ free || stop || !s.setWrites i || t.journalFull || t.writing.any (·.clean) || t.copying.isSome || !s.pgm.bgDone || d == 0 then s1
  else
    let order := s.cleanOrder i
    let copy := order.flatMap fun g => (s.cleanPages i g).map fun e => (g, e)
    let put := copy.take d
    let bare := order.filter fun g => (s.livePages i g).isEmpty
    let from_ := (bare ++ if put.length < d then [] else put.map (·.1)).eraseDups
    let marks := (from_.flatMap (s.liveNodes i)).map (·.1)
    let s2 := s1.modSet i fun t => { t with segs := t.segs.map fun e => if from_.contains e.1 then (e.1, { e.2 with st := .cleaning }) else e }
    let s3 := { s2 with str := { s2.str with nodes := (s2.str.nodes ++ marks).eraseDups } }
    if put.length < d then s3
    else
      let r := put.foldl (fun (a : List Column × Chip) x => let c := a.2.cleanRead i x.2; (a.1 ++ [c.1], c.2)) ([], s3)
      (r.2.modSet i fun t => { t with
        copying := some (s3.writeClass urgent, { Stripe.blank with cols := r.1, since := s.now, clean := true }) }).cleanGo i

/-- A set at its reserve whose cleaner finds nothing to gain is FULL (09 R245). -/
def Chip.judgeFull (s : Chip) (i : Nat) : Chip :=
  let t := s.set i
  let full := t.freeSegs ≤ s.segReserve t && t.segs.all fun e => e.2.st != .full || 256 * t.colsNow ≤ s.liveCols i e.1
  let s1 := s.modSet i fun t => { t with full }
  if full && !t.full then s1.raise 0x09 i 5 3 0 (le 1 i) else s1

/-- What follows a seal or a checkpoint in a set: segments, checkpoint, cleaner, FULL (log 55). -/
def Chip.tidy (s : Chip) (i : Nat) : Chip := ((((s.segments i).checkpoint).cleanStep i).judgeFull i)

/-! ### Seals -/

/-- A page's leaf entry changed by a stripe (08 R210), its old place superseded, its leaf node modified. -/
def Chip.setLeaf (s : Chip) (p seq : Nat) (l : Leaf) : Chip :=
  let old := s.leaf p
  let s1 := if old.kind == 0 then s else s.supersede old.set old.slot seq
  { s1 with pgm := { s1.pgm with leaves := Tab.set s1.pgm.leaves Leaf.zero p l, pendLeaf := Tab.del s1.pgm.pendLeaf p },
            str := { s1.str with nodes := if s1.str.nodes.contains (p / 512) then s1.str.nodes else s1.str.nodes ++ [p / 512] } }

/-- What the seal of a stripe does to the page of a column (08 Table 8-3): its charge released if nothing was written since its
copy, and its state changed, unless an atomic is in progress on it (01 R21): then once that has ended. -/
def Chip.sealPage (s : Chip) (p : Nat) : Chip :=
  let g := s.page p
  let rest := { g with sealed := g.copied, since := g.copied + 1, jpos := g.jnext, jnext := 0, redirty := false }
  let calm := { rest with charged := false, jpos := 0 }
  let late := s.atomicOn p
  match g.st with
  | .destaging =>
    let x := if g.redirty then rest else calm
    s.setPage p (if late then { x with due := true } else { x with st := if g.redirty then .dirty else .clean, gap := g.gap && g.redirty })
  | .lostPartial => s.setPage p (if g.copied < g.fresh then rest else calm)
  | _ => s

/-- A column of a sealed stripe: leaf entry, stored copy and page state (08 R210, Table 8-3). -/
def Chip.sealColumn (s : Chip) (i : Nat) (x : Stripe) (c : Nat) (col : Column) : Chip :=
  let p := col.page
  let l : Leaf := x.leafOf i c col
  let put (t : Chip) : Chip := { t with str := { t.str with
    stored := Memory.lay 0 t.str.stored (p * 65536) 65536 col.bytes, chunks := Tab.ins t.str.chunks p l.chunk } }
  if x.clean then (if col.old == some (s.leaf p) then put (s.setLeaf p x.seq l) else s)
  else (put (s.setLeaf p x.seq l)).sealPage p

/-- A sealed stripe's charged bytes counted in the urgent run (13 R340). -/
def Chip.runCount (s : Chip) (bytes : Nat) : Chip :=
  { s with pgm := { s.pgm with run := s.pgm.run.map fun r =>
      { r with bytes := r.bytes + bytes, seals := r.seals + 1, secBytes := r.secBytes + bytes, secSeals := r.secSeals + 1 } } }

/-- A sealed MAP stripe of the running checkpoint: with the last one, the CHECKPOINT record goes out (09 R242). -/
def Chip.mapSealed (s : Chip) (x : Stripe) : Chip :=
  ({ s with str := { s.str with ckptLeft := s.str.ckptLeft.filter (· != x.seq) } }).checkpointRecord

/-- A stripe is sealed (08 R210, 09 R236): its columns take their places, and what waits on seals goes on. -/
def Chip.sealStripe (s : Chip) (i : Nat) (x : Stripe) : Chip :=
  let s1 := (s.modSet i fun t => { t with writing := t.writing.filter (·.seq != x.seq), gaps := Tab.del t.gaps x.slot }).dropChains x.chain.toList
  let s2 := (x.cols.zipIdx).foldl (fun t e => t.sealColumn i x e.2 e.1) (s1.notePresent i x.slot x.present)
  let s3 := { s2 with str := { s2.str with lastSealed := Nat.max s2.str.lastSealed x.seq, sealedSince := s2.str.sealedSince + 1 } }
  let s4 := if x.map then s3.mapSealed x else if x.clean then s3 else s3.runCount ((s.dirtyNow - s3.dirtyNow) * 65536)
  (((((s4.levels).flushAll).advanceRelease).tidy i).issueFetches).evict

/-- The COMMIT record of a stripe has completed on every available journal copy. -/
def Chip.committed (s : Chip) (i : Nat) (x : Stripe) : Bool := match x.commit with
  | some n => s.recordDone i n
  | none => false

/-- The COMMIT record of a set's oldest complete stripe has completed (09 R236): the stripe is sealed. -/
def stripeSealedEffect (i : Nat) (s : Chip) : Chip :=
  match (s.set i).writing.find? fun x => x.pend.isEmpty && !x.failed && s.committed i x with
  | none => s
  | some x => s.sealStripe i x

def execStripeSealed (set : Nat) (s : State) : Host.Outcome State Fault Refusal := .next (s.on (stripeSealedEffect set))

/-- A whole second of an urgent run has passed (13 R340): a measurement, if the second sealed a stripe (log 70). -/
def drainRateSecondEffect (s : Chip) : Chip :=
  match s.pgm.run with
  | none => s
  | some r =>
    let s1 := { s with pgm := { s.pgm with run := some { r with second := r.second + 1000000000, secBytes := 0, secSeals := 0 } } }
    if r.secSeals == 0 then s1 else (s1.measured 1000000000 r.secBytes).levels

def execDrainRateSecond (s : State) : Host.Outcome State Fault Refusal := .next (s.on drainRateSecondEffect)

/-- The cells of a stripe that is not sealed given back, and its pages to RESIDENT_DIRTY (08 Table 8-3): a page with an atomic in
progress changes once that has ended (01 R21). -/
def Chip.undoStripe (s : Chip) (x : Stripe) : Chip :=
  let s1 := s.dropChains x.chain.toList
  if x.clean then s1 else x.cols.foldl (fun t c =>
    let g := t.page c.page
    if g.st == .destaging then
      let late := t.atomicOn c.page
      t.setPage c.page { g with st := if late then g.st else .dirty, due := late, redirty := false, jnext := 0 }
    else t) s1

/-- A slot that holds no sealed stripe. -/
def StripeSet.bury (t : StripeSet) (slot : Nat) : StripeSet :=
  { t with segs := t.segs.map fun e => if e.1 == slot / 256 then (e.1, { e.2 with dead := e.2.dead ++ [slot % 256] }) else e }

/-- A stripe is abandoned (09 R236): its pages go back to RESIDENT_DIRTY and its slot stays unused; a checkpoint loses its
nodes with a MAP stripe. -/
def Chip.abandonStripe (s : Chip) (i : Nat) (x : Stripe) : Chip :=
  let s1 := (s.modSet i fun t => ({ t with writing := t.writing.filter (·.seq != x.seq) } : StripeSet).bury x.slot).undoStripe x
  let s2 := if x.map && s1.str.ckptLeft.contains x.seq then s1.checkpointLost else s1
  ((s2.levels).tidy i).issueFetches

/-- A stripe's Write has failed (09 R236), or does not end: the stripe is abandoned. -/
def stripeAbandonedEffect (i : Nat) (s : Chip) : Chip :=
  let w := (s.set i).writing
  match (w.find? (·.failed)).or (w.find? fun x => !x.pend.isEmpty) with
  | none => s
  | some x => s.abandonStripe i x

def execStripeWriteAbandoned (set : Nat) (s : State) : Host.Outcome State Fault Refusal :=
  .next (s.on (stripeAbandonedEffect set))

/-- The checkpoint of sequence `c` is in force (09 R242): its nodes take their places and pending segments are freed; records
older than it may be overwritten. -/
def Chip.checkpointDone (s : Chip) (c : Nat) : Chip :=
  let s1 := s.str.fixed.foldl Chip.placeNode s
  let sets := s1.str.sets.map fun e => (e.1, ({ e.2 with jckpt := Nat.max e.2.jckpt e.2.jfix, jwait := false } : StripeSet).trim)
  let s2 := { s1 with str := { s1.str with ckpt := c, ckptRun := none, ckptRec := false, fixed := [], sets } }
  (List.range 4).foldl (fun t i => if (t.set i).cfg.on then t.tidy i else t) (s2.freePending c)

/-- A checkpoint's CHECKPOINT record completes on every available copy (09 R242). -/
def checkpointWrittenEffect (s : Chip) : Chip :=
  match s.str.ckptRun with
  | none => s
  | some c =>
    let n := s.mapSet.bind fun m => (((s.set m).jrecs.filter (·.type == 3)).getLast?).map fun r => (m, r.seq)
    if s.str.ckptRec && n.all fun x => s.recordDone x.1 x.2 then s.checkpointDone c else s

def execCheckpointWritten (s : State) : Host.Outcome State Fault Refusal := .next (s.on checkpointWrittenEffect)

/-! ### Map nodes and fault-in (08 R212 to R217) -/

/-- Pages of PINNED regions that are being evicted keep their frames (05 R123). -/
def Chip.keepPinned (s : Chip) : Chip :=
  { s with pgm := { s.pgm with pages := s.pgm.pages.map fun e =>
      if e.2.st == .evicting && s.classOf e.1 == 0 then (e.1, { e.2 with st := .clean }) else e } }

/-- Eager fetches of the FREE pages of PINNED regions on ready sets, up to PGM_PIN_LIMIT (08 R217). -/
def Chip.faultIn (s0 : Chip) : Chip :=
  let s := s0.keepPinned
  let rs := s.rgn.table.filter fun e => e.2.live && e.2.cls == 0 && s.setUp e.2.set
  let ps := (rs.flatMap fun e => rangeFrom e.2.base e.2.len).eraseDups.filter fun p => (s.page p).st == .free
  let go := ps.take (s.par 0x70001C - s.pinNow)
  go.foldl (fun t p => ({ t with pgm := { t.pgm with eager := t.pgm.eager ++ [p] } }).queueFetch p 6) s

/-- The nodes on the drives that the background loader has still to read, in its order (08 R215). -/
def Chip.bgLeft (s : Chip) : List (Nat × Nat) :=
  let at_ (level : Nat) : List (Nat × Nat) := (s.str.mapNodes.filter fun e => e.1 / 2 ^ 30 == level).map fun e => (level, e.1 % 2 ^ 30)
  (at_ 1 ++ at_ 0).filter fun e => !s.nodeThere e.1 e.2

/-- The map loader carried on: L2 nodes directly after the root, then every node in the background class (08 R215). -/
def Chip.loadMap (s : Chip) : Chip :=
  if !s.pgm.root then s
  else
    let l2 := (s.str.mapNodes.filter fun e => e.1 / 2 ^ 30 == 2).map (·.1 % 2 ^ 30)
    let miss := l2.filter fun i => !s.nodeThere 2 i
    if !miss.isEmpty then miss.foldl (fun t i => t.readNode 2 i 3) s
    else
      let s1 := { s with pgm := { s.pgm with l2 := true } }
      match s1.bgLeft with
      | [] => { s1 with pgm := { s1.pgm with bgDone := true } }
      | (level, idx) :: _ => s1.readNode level idx 7

/-- A segment that an entry names is in use, however little else is known of it (log 128). -/
def Chip.noteSegment (s : Chip) (i slot : Nat) : Chip :=
  s.modSet i fun t => if (Tab.find t.segs (slot / 256)).isSome then t
    else { t with segs := Tab.ins t.segs (slot / 256) { st := .full, next := 256, superseded := 0, closed := true, dead := [] } }

/-- A leaf entry taken into the map area, unless the pending-delta table has a newer one for its page (09 R243). -/
def Chip.takeEntry (s : Chip) (p : Nat) (l : Leaf) : Chip :=
  let s1 := if l.kind == 0 then s else s.noteSegment l.set l.slot
  if (Tab.find s.pgm.pendLeaf p).isSome then s1
  else { s1 with pgm := { s1.pgm with leaves := Tab.set s1.pgm.leaves Leaf.zero p l } }

/-- The entries of a node taken into the map area: leaf entries, or where the child nodes lie. -/
def Chip.takeWords (s : Chip) (level idx : Nat) (ws : NodeWords) : Chip :=
  ws.foldl (fun t e =>
    let c := idx * 512 + e.1
    if level == 0 then t.takeEntry c (leafOf e.2)
    else match innerOf e.2 with
      | some x => ({ t with str := { t.str with mapNodes := Tab.ins t.str.mapNodes (nodeKey (level - 1) c) x } }).noteSegment (t.mapSet.getD 0) x.1
      | none => t) s

/-- A FREE page below a node that cannot be rebuilt is LOST_PARTIAL with all its sectors marked, as long as there are frames;
its leaf entry says the same, so that a fetch finds it so (08 R214; log 130). -/
def Chip.losePage (s : Chip) (p : Nat) : Chip :=
  let l := s.leaf p
  let s1 := { s with pgm := { s.pgm with leaves := Tab.set s.pgm.leaves Leaf.zero p { l with kind := 2, lost := 65535 } } }
  if (s.page p).resident then s
  else if (s.page p).st = .free then
    match s1.takeFrame with
    | some (f, t) => t.setPage p { Page.blank with st := .lostPartial, frame := some f, lost := 65535, demand := s.now }
    | none => s1
  else s1

/-- A lost range recorded (08 R205, R214), in records of at most 4 GiB less 4 KiB: their length has 32 bits. -/
def Chip.lostRanges : Nat → Chip → Nat → Nat → Chip
  | 0, s, _, _ => s
  | n + 1, s, addr, len =>
    let k := Nat.min len 0xFFFFF000
    if len == 0 then s
    else Chip.lostRanges n (s.raise 0x07 0xFFFF 1 3 0 (le 8 addr ++ le 4 k ++ le 1 PageState.lostPartial.code ++ [0] ++ le 4 0)) (addr + k) (len - k)

/-- Every page below a map node that cannot be rebuilt loses all its sectors (08 R214). -/
def Chip.loseNode (s : Chip) (level idx : Nat) : Chip :=
  let n := 512 ^ (level + 1)
  let lo := idx * n
  let s1 := (rangeFrom lo n).foldl Chip.losePage s
  Chip.lostRanges (n * 65536 / 0xFFFFF000 + 1) (s1.count 0x700038) (lo * 65536) (n * 65536)

/-- A map node counts as loaded, and the loader and the waiting fetches go on (08 R212, R215). -/
def Chip.tookNode (s : Chip) (level idx : Nat) : Chip :=
  let add (l : List Nat) : List Nat := if l.contains idx then l else l ++ [idx]
  let p := { s.pgm with mapReads := s.pgm.mapReads.filter (· != nodeKey level idx) }
  let p1 := if level == 0 then { p with lnodes := add p.lnodes } else if level == 1 then { p with l1s := add p.l1s } else { p with l2s := add p.l2s }
  (({ s with pgm := p1 }).loadMap).issueFetches

/-- A map node's read ends (08 R212 to R215): `tries` are the entries that the drives, then the steps of R200, then a scan of
stripe headers gave. The first of them whose every CHECK holds is loaded; with none the node is lost for good. -/
def mapNodeLoadedEffect (level idx : Nat) (tries : List NodeWords) (s : Chip) : Chip :=
  if level == 3 then
    match s.mapSet with
    | some m => if s.setUp m then ((({ s with pgm := { s.pgm with root := true } }).loadMap).issueFetches) else s
    | none => s
  else if 3 < level || !s.pgm.mapReads.contains (nodeKey level idx) then s
  else
    let t := match tries.find? fun ws => ws.all fun e => wordGood e.2 with
      | some ws => s.takeWords level idx ws
      | none => s.loseNode level idx
    t.tookNode level idx

def execMapNodeLoaded (level : Nat) (idx : Nat) (tries : List NodeWords) (s : State) : Host.Outcome State Fault Refusal :=
  .next (s.on (mapNodeLoadedEffect level idx tries))

end Sys2Proof.Machine
end

