-- ==== Sys2Proof/Machine/Checks.lean ====
section
/-!
DEFINITION. Region entries and set configurations as the registers and records hold them (05 Table 5-1, 17 Table 17-11),
their clamps (05 R129, 09 R255), and the dependent checks of 14 Table 14-9.
-/
namespace Sys2Proof.Machine

/-! ### Set configurations -/

/-- The eight words of STR_SET_CFG (17 Table 17-11). -/
def SetCfg.words (g : SetCfg) : List Word :=
  let fg (w : Nat) : Nat := (List.range 10).foldl (fun n k => n + g.fg.getD (10 * w + k) 0 * 2 ^ (3 * k)) 0
  [BitVec.ofNat 32 (g.layout + g.n * 256 + b2n g.on * 2 ^ 31), BitVec.ofNat 32 g.mask] ++
  ((List.range 4).map fun w => BitVec.ofNat 32 (fg w)) ++ [0, 0]

/-- The configuration that eight words hold. -/
def SetCfg.ofWords (ws : List Word) : SetCfg :=
  let w (i : Nat) : Nat := (ws.getD i 0).toNat
  { on := bit (w 0) 31, layout := w 0 % 4, n := bits (w 0) 13 8, mask := w 1,
    fg := (List.range 32).map fun k => bits (w (2 + k / 10)) (3 * (k % 10) + 2) (3 * (k % 10)) }

/-- The nearest member count of a layout's form at or below a value (09 Table 9-2, R232, R255). -/
def memberCount (layout limit n : Nat) : Nat :=
  let step := if layout == 0 then 2 else if layout == 1 then 3 else 1
  let top := Nat.min n (if layout == 1 then Nat.min limit 30 else limit)
  top - top % step

/-- The least member count of a layout (09 Table 9-2). -/
def leastMembers (layout : Nat) : Nat := if layout == 1 then 6 else 4

/-- Drive ports that a set's mask may name (09 R232): those of the variant that no other set's mask names. -/
def Chip.maskRoom (s : Chip) (i : Nat) : Nat :=
  let taken := s.str.sets.foldl (fun m e => if e.1 != i && e.2.cfg.on then m ||| e.2.cfg.mask else m) 0
  (List.range s.nDrives).foldl (fun m d => setBit m d (!bit taken d)) 0

/-- A set configuration clamped and reported (09 R232, R255): one left unconfigured with the clamp of its count. -/
def Chip.clampSet (s : Chip) (i src : Nat) (g : SetCfg) : SetCfg × Chip :=
  if !g.on then (g, s)
  else
    let a := 0x900000 + 0x20 * i
    let limit := if s.glb.sl4804 then 8 else 32
    let mask := g.mask &&& s.maskRoom i
    let t := if mask == g.mask then s else s.clamped (regField (a + 4) 0) g.mask mask src
    let m := memberCount g.layout limit g.n
    let t1 := if m == g.n then t else t.clamped (regField a 8) g.n m src
    if m < leastMembers g.layout || popCount 32 mask < m then ({ g with on := false, n := m, mask }, t1.clamped (regField a 31) 1 0 src)
    else ({ g with n := m, mask }, t1)

/-! ### Region entries (05 Table 5-1) -/

/-- The 48 bytes of a region table entry. -/
def Region.bytes (e : Region) : List Byte :=
  le 4 e.base ++ le 4 e.len ++ le 2 e.gen ++
  le 1 (b2n e.live + b2n e.offInst * 2 + b2n e.offTko * 4 + b2n e.offRbld * 8) ++
  le 1 (b2n e.pair + b2n e.mirror * 2 + e.cls * 4 + e.set * 16) ++ le 1 (b2n e.ddlEn) ++ le 3 0 ++ le 4 e.ddl ++ le 4 0 ++
  le 24 e.rights.toNat

/-- The entry that 48 bytes hold, its reserved bits dropped. -/
def Region.ofBytes (b : List Byte) : Region :=
  let st := leField b 10 1
  let at_ := leField b 11 1
  { base := leField b 0 4 % 2 ^ 31, len := leField b 4 4, gen := leField b 8 2, live := bit st 0, offInst := bit st 1,
    offTko := bit st 2, offRbld := bit st 3, pair := bit at_ 0, mirror := bit at_ 1, cls := bits at_ 3 2,
    set := bits at_ 5 4, ddlEn := bit (leField b 12 1) 0, ddl := leField b 16 4, rights := BitVec.ofNat 192 (leField b 24 24) }

/-- The reserved fields of an entry that are not 0: each is one clamp, to 0. -/
def reservedClamps (b : List Byte) : List (Nat × Nat) :=
  ([bit (leField b 0 4) 31 |> b2n, bits (leField b 10 1) 7 4, bits (leField b 11 1) 7 6, bits (leField b 12 1) 7 1,
    leField b 13 3, leField b 20 4].filter (· != 0)).map fun v => (v, 0)

/-- Live entries other than one. -/
def others (t : Tab Region) (idx : Nat) : List Region := (t.filter fun e => e.1 != idx && e.2.live).map (·.2)

/-- Two entries overlap in the persistent address space. -/
def Region.meets (a b : Region) : Bool := a.base < b.base + b.len && b.base < a.base + a.len

/-- The mirror capacity in pages (12 R304). -/
def Chip.mirrorCap (s : Chip) : Nat := s.syz.mirrorGiB * 16384 - ceilDiv (s.syz.mirrorGiB * 16384) 512

/-- An entry takes the mirrored pages past the mirror capacity (05 R126, R129). -/
def Chip.mirrorOver (s : Chip) (t : Tab Region) (idx : Nat) (e : Region) : Bool :=
  s.mirrorCap < pagesOf (e :: (others t idx).filter (·.mirror))

/-- An entry takes the pinned pages past the pinning limit, once that has effect at S4 (05 R129, 08 R197, R220). -/
def Chip.pinOver (s : Chip) (t : Tab Region) (idx : Nat) (e : Region) : Bool :=
  let pinned := e :: (others t idx).filter (·.cls == 0)
  let locked := (s.pgm.pages.filter fun p => p.2.pinned && !(pinned.any fun r => r.base ≤ p.1 && p.1 < r.base + r.len)).length
  s.cfg.dramDone && s.par 0x70001C < pagesOf pinned + locked

/-- A field's clamp, if it changes. -/
def clampOf (given used : Nat) : List (Nat × Nat) := if given == used then [] else [(given, used)]

/-- The clamps of an entry against a table, in the order of R129, with the values given and used. -/
def Chip.clampEntry (s : Chip) (t : Tab Region) (idx : Nat) (e : Region) : Region × List (Nat × Nat) :=
  let gen := if e.gen == 0 then 1 else e.gen
  if !e.live then ({ e with gen }, clampOf e.gen gen)
  else
    let space := Nat.max 1 s.pgm.space
    let cls := if e.cls == 3 then 1 else e.cls
    let set := if (s.set e.set).cfg.on then e.set else s.mapSet.getD e.set
    let len1 := Nat.min (Nat.max 1 e.len) (2 ^ 31)
    let base := Nat.min e.base (space - 1)
    let len := Nat.min len1 (space - base)
    let cs := clampOf e.gen gen ++ clampOf e.cls cls ++ clampOf e.set set ++ clampOf e.len len1 ++ clampOf e.base base ++
      clampOf len1 len
    let e1 := { e with gen, cls, set, base, len }
    match (others t idx).find? e1.meets with
    | some o =>
      let e2 := { e1 with pair := o.pair, mirror := o.mirror, cls := o.cls, set := o.set }
      let cs2 := cs ++ clampOf (b2n e1.pair) (b2n o.pair) ++ clampOf (b2n e1.mirror) (b2n o.mirror) ++
        clampOf e1.cls o.cls ++ clampOf e1.set o.set
      if (e2.mirror && s.mirrorOver t idx e2) || (e2.cls == 0 && s.pinOver t idx e2) then
        let lo := Nat.max e2.base o.base
        let hi := Nat.min (e2.base + e2.len) (o.base + o.len)
        ({ e2 with base := lo, len := hi - lo }, cs2 ++ clampOf e2.base lo ++ clampOf e2.len (hi - lo))
      else (e2, cs2)
    | none =>
      let m1 := e1.mirror && s.syz.compat
      let pair := e1.pair || m1
      let m2 := m1 && !s.mirrorOver t idx { e1 with mirror := true }
      let cls2 := if e1.cls == 0 && s.pinOver t idx e1 then 1 else e1.cls
      ({ e1 with mirror := m2, pair, cls := cls2 },
        cs ++ clampOf (b2n e1.mirror) (b2n m1) ++ clampOf (b2n e1.pair) (b2n pair) ++ clampOf (b2n m1) (b2n m2) ++
        clampOf e1.cls cls2)

/-- The clamps of an entry reported (05 R129, 14 R367). -/
def Chip.entryClamps (s : Chip) (idx src : Nat) (cs : List (Nat × Nat)) : Chip :=
  cs.foldl (fun t c => t.clamped (itemField 0x10 idx) c.1 c.2 src) s

/-- Every entry of the region table clamped again in index order (14 Table 14-9 order 8). -/
def Chip.reclampAll (s : Chip) (src : Nat) : Chip :=
  let r := s.rgn.table.foldl (fun (acc : Tab Region × Chip) x =>
    let c := acc.2.clampEntry acc.1 x.1 x.2
    (Tab.set acc.1 Region.blank x.1 c.1, acc.2.entryClamps x.1 src c.2)) (([] : Tab Region), s)
  { r.2 with rgn := { r.2.rgn with table := r.1 } }

/-! ### Dependent checks (14 Table 14-9) -/

/-- A register's lowest field held to bounds that have moved, and reported with source 2. -/
def Chip.recheck (s : Chip) (a : Nat) : Chip :=
  match fieldsOf a with
  | some (f :: _) =>
    let v := f.get (s.par a)
    let u := f.clamp (s.bounds a f) v
    if u == v then s else (s.setPar a (f.put (s.par a) u)).clamped (regField a f.lsb) v u 2
  | _ => s

/-- The data capacity of the configured sets in bytes, once every segment count is known (09 R246, 14 Table 14-9). -/
def Chip.capacity (s : Chip) : Option Nat :=
  let on := (List.range 4).filter fun i => (s.set i).cfg.on
  if on.isEmpty || on.any (fun i => s.cfg.segCounts.getD i 0 == 0) then none
  else
    some ((on.map fun i =>
      let n := s.cfg.segCounts.getD i 0
      let d := (s.set i).cfg.cols
      (n - s.reserveFor n d) * 256 * d * 65536).sum)

/-- Order 4: PGM_SPACE against the capacity (08 R189, 09 R246); entries are clamped again when it falls. -/
def Chip.checkSpace (s : Chip) : Chip :=
  match s.capacity with
  | none => s
  | some c =>
    let top := Nat.max 1 (c * 4096 / (65536 * 4097))
    if s.pgm.space ≤ top then s
    else
      let s1 := ({ s with pgm := { s.pgm with space := top } }).setPar 0x700000 top
      (s1.clamped (regField 0x700000 0) s.pgm.space top 2).reclampAll 2

/-- Order 6: PGM_PIN_LIMIT against its bound, once the frames are known (08 R197); entries are clamped again when it falls
(log 169). -/
def Chip.checkPins (s : Chip) : Chip :=
  if !s.cfg.dramDone then s
  else
    let s1 := s.recheck 0x70001C
    if s1.par 0x70001C < s.par 0x70001C then s1.reclampAll 2 else s1

/-- STR_SPARE_MASK holds no drive port of a set's mask (09 R232, Table 9-9). -/
def Chip.checkSpares (s : Chip) : Chip :=
  let v := s.par 0x900304
  let u := v - (v &&& s.masked)
  if u == v then s else (s.setPar 0x900304 u).clamped (regField 0x900304 0) v u 2

/-- The dependent checks that a live write of a register may move (14 R366, R368). -/
def Chip.dependents (s : Chip) (a : Nat) : Chip :=
  if a == 0xC00114 then s.recheck 0xC00118
  else if a == 0xE00000 || a == 0xE00008 || a == 0xE0000C then
    let s1 := if a == 0xE00000 then s.recheck 0xC00120 else s
    ((s1.fitBudget).levels).checkPins
  else if a == 0x700004 then (s.levels).checkPins
  else if a == 0x700014 then s.checkPins
  else if a == 0xAE0008 then s.recheck 0xAE000C
  else s

end Sys2Proof.Machine
end

