-- ==== Sys2Proof/Machine/Drives.lean ====
section
/-!
DEFINITION. Drive ports (09 R221 to R231) and stripe sets (09 R232, R234, R241, R247 to R254): readiness, loss, the states
of a set, journal positions, rebuild, patrol and forming.
-/
namespace Sys2Proof.Machine

/-! ### Drive ports -/

/-- A root port is in 2 × x2 mode (09 R221). -/
def Chip.bifurcated (s : Chip) (d : Nat) : Bool := bit (s.par (0x800000 + 0x1000 * (d / 2))) 0

/-- A drive port of the variant that its root port's mode uses (09 R221), in a silicon region that is not fenced: four root
ports belong to each (01 R12, 16 R405). One that is fenced while Eclipse drains keeps its ports (16 R402; log 166). -/
def Chip.portUsed (s : Chip) (d : Nat) : Bool :=
  d < s.nDrives && (d % 2 == 0 || s.bifurcated d) && (!bit s.cmt.fencedRegions (d / 8) || s.ecl.lostRegion)

/-- Positions that a drive port holds: set and position. -/
def Chip.holds (s : Chip) (d : Nat) : List (Nat × Nat) :=
  s.str.sets.flatMap fun e => ((e.2.pos.zipIdx).filter fun (x : Position × Nat) => x.1.drive == some d).map fun x => (e.1, x.2)

/-- Positions of a set that are missing. -/
def StripeSet.missing (t : StripeSet) : List Nat := (List.range t.cfg.n).filter fun i => !t.presentPos.contains i

/-- An update of a position. -/
def StripeSet.modPos (t : StripeSet) (p : Nat) (f : Position → Position) : StripeSet :=
  match t.pos[p]? with
  | some x => { t with pos := setAt t.pos p (f x) }
  | none => t

/-- OFF_RBLD of the live regions of a set that enters FAILED, set; of those whose set is not FAILED any more, cleared (09
Table 9-7). -/
def Chip.markOffline (s : Chip) (i : Nat) (b : Bool) : Chip :=
  { s with rgn := { s.rgn with table := s.rgn.table.map fun e =>
      if !e.2.live then e
      else if b then (if e.2.set == i then (e.1, { e.2 with offRbld := true }) else e)
      else (e.1, { e.2 with offRbld := e.2.offRbld && (s.set e.2.set).st == .failed }) } }

/-- A set's segment count, once known, goes into the power record and the capacity check (14 Table 14-9 order 4). -/
def Chip.knowSegments (s : Chip) (i : Nat) : Chip :=
  let n := (s.set i).segCount
  (if s.cfg.segCounts.getD i 0 == n then s
  else ({ s with cfg := { s.cfg with segCounts := setAt s.cfg.segCounts i n } }).askPower (Nat.max s.evr.mark s.evr.asked)).checkSpace

/-- What starts when a set becomes ready: the map root (09 R243), fetches, a PRELOAD that waits, and fault-in (07 R176; 08 R215
to R217). -/
def Chip.setReady (s : Chip) (i : Nat) : Chip :=
  let s1 := s.knowSegments i
  let s2 := if s1.mapSet == some i then { s1 with pgm := { s1.pgm with root := true } } else s1
  (((s2.loadMap).issueFetches).preload).faultIn

/-- A set changes its state, with its record (09 R248, Table 9-7). -/
def Chip.setState (s : Chip) (i : Nat) (st : SetState) : Chip :=
  let t := s.set i
  if t.st = st then s
  else
    let was := s.setUp i
    let s1 := (s.modSet i fun t => { t with st := st }).raise 9 i 1 2 0
      [BitVec.ofNat 8 i, BitVec.ofNat 8 t.st.code, BitVec.ofNat 8 st.code]
    let s2 := if st = .failed then s1.markOffline i true else if t.st = .failed then s1.markOffline i false else s1
    if !was && s2.setUp i then s2.setReady i else s2

/-! ### Rebuild (09 R252) -/

/-- A drive holds a current member of some set (09 R234, R252). -/
def Chip.isMember (s : Chip) (d : Nat) : Bool :=
  !(s.holds d).isEmpty || (match (s.drive d).label with
    | some l => s.str.sets.any fun e => e.2.ident == l.setId && e.2.labelGen ≤ l.gen
    | none => false)

/-- A drive port that a rebuild may use: ready, no current member, large enough. -/
def Chip.spareFits (s : Chip) (i d : Nat) : Bool :=
  (s.drive d).ready && !s.isMember d && (s.set i).z ≤ (s.drive d).size

/-- An admin command to a drive port is outstanding, or waits. -/
def Drive.asked (k : Drive) (cmd : NvmeCmd) : Bool := (k.cmds.any fun c => c.2.cmd == cmd) || k.waitCmds.any fun c => c.cmd == cmd

/-- A unit registers on a drive under its writer ID, and the active acquires its reservation (09 R230). -/
def Chip.register (s : Chip) (d : Nat) : Chip :=
  let key := s.sec.writer
  if s.str.conflict then s
  else
    let s1 := if (s.drive d).registered then s else (s.modDrive d fun k => { k with registered := true }).admin d (.register key)
    if s1.syz.role == .active && !(s1.drive d).holder && !(s1.drive d).asked (.acquire key) then s1.admin d (.acquire key) else s1

/-- The old active is preempted on a drive: this unit's key, and the partner's (09 R230). -/
def Chip.preempt (s : Chip) (d : Nat) : Chip := s.admin d (.preempt s.sec.writer (s.syz.partner.getD 0))

/-- A rebuild starts (09 R252 step 1): the reserved head and the label of the new member written, its journal copy begun; then
its first slot (log 167). -/
def Chip.startRebuild (s : Chip) (i p d : Nat) : Chip :=
  let t := s.set i
  let old := ((t.pos.findSome? fun x => x.drive.bind fun k => (s.drive k).label).map (·.serials)).getD []
  let label : Label := { setId := t.ident, set := i, gen := t.labelGen + 1, layout := t.cfg.layout, n := t.cfg.n, pos := p,
                         fg := t.cfg.fg.take t.cfg.n, serials := setAt old p (s.drive d).serial, z := t.z }
  let s1 := s.modSet i fun t => { (t.modPos p fun x => { x with drive := some d, ready := false, lost := false, errors := [] }) with
    rbState := 1, rbPos := p, rbDrive := d, rbSlot := 0, rbRead := none, rbRemain := t.rebuildLeft.length, rbLost := 0 }
  let s2 := (((s1.modDrive d fun k => { k with label := some label }).register d).writeLabel d).nvme d 8 (.write 2 32766 [])
  let s3 := if t.jpos.contains p && !t.jlive.contains p then s2.copyRing i p 0 else s2
  ((s3.setState i .rebuilding).rebuildStep i).tidy i

/-- A rebuild that Eclipse has stopped goes on from SLOT, once its target is back (09 R252). -/
def Chip.resumeRebuild (s : Chip) (i : Nat) : Chip :=
  let t := s.set i
  if t.st = .degraded ∧ t.rbState = 2 ∧ (t.pos[t.rbPos]?).bind (·.drive) = some t.rbDrive ∧ s.drivesOn ∧ s.ecl.step < 4 then
    ((s.modSet i fun t => { t with rbState := 1, rbRead := none }).setState i .rebuilding).rebuildStep i
  else s

/-- The automatic rebuild of the lowest missing position onto the lowest fitting spare (09 R252, R254). -/
def Chip.autoRebuild (s : Chip) (i : Nat) : Chip :=
  let t := s.set i
  let spares := (bitsOf s.nDrives (s.par 0x900304)).filter (s.spareFits i)
  if t.st != .degraded || t.rbState == 1 || s.ecl.step ≥ 4 || !s.drivesOn then s
  else match t.missing, spares with
    | p :: _, d :: _ => s.startRebuild i p d
    | _, _ => s

/-- The journal positions of a configuration (09 R241). -/
def SetCfg.journal (g : SetCfg) : List Nat :=
  match (rangeFrom 1 (g.n - 1)).find? fun k => g.fg.getD k 0 != g.fg.getD 0 0 with
  | some k => [0, k]
  | .none => [0, 1]

/-- The journal check of a set begins once at most T of its positions are missing and drives may be commanded (09 R247): both
copies are read, and the seal slots with them (log 131). -/
def Chip.startScan (s : Chip) (i : Nat) : Chip :=
  let t := s.set i
  if !t.cfg.on || t.scanned || t.scanAt.isSome || t.cfg.tolerance < t.missing.length || !s.drivesOn then s
  else
    let ps := if t.jpos.isEmpty then t.cfg.journal else t.jpos
    let s1 := ps.foldl (fun u p => u.posCmd i p 3 (.read 512 16384) (.scan i))
      (s.modSet i fun t => { t with scanAt := some s.now, slotScan := false })
    t.presentPos.foldl (fun u p => u.posCmd i p 3 (.read 256 256) (.scan i)) s1

/-- The journal checks of every set that may begin. -/
def Chip.startScans (s : Chip) : Chip := (List.range 4).foldl Chip.startScan s

/-- One row of 09 Table 9-7 applied, if a row applies. -/
def Chip.judgeOnce (s : Chip) (i : Nat) : Chip :=
  let t := s.set i
  let gone := t.missing.length
  let tol := t.cfg.tolerance
  match t.st with
  | .waiting =>
    if gone == 0 && t.scanned then s.setState i .ready
    else if !t.waited then s
    else if tol < gone then s.setState i .failed
    else if t.scanned then ((s.setState i .degraded).resumeRebuild i).autoRebuild i
    else s
  | .ready => if gone == 0 then s else s.setState i .degraded
  | .degraded => if gone == 0 then s.setState i .ready else if tol < gone then s.setState i .failed else s
  | .failed => if gone ≤ tol && t.scanned then s.setState i .degraded else s
  | .rebuilding => s

/-- A set judged until no row applies. -/
def Chip.judgeSet (s : Chip) (i : Nat) : Chip :=
  if (s.set i).cfg.on then (((s.startScan i).judgeOnce i).judgeOnce i).judgeOnce i else s

/-! ### Patrol's findings (09 R251) -/

/-- A patrol counter (09 Table 9-8). -/
def Chip.patrolled (s : Chip) (k : Nat) : Chip := s.count (0x900360 + 4 * k)

/-- A patrol rewrite of a position of a slot, under the slot's repair lock (09 R249, R251): its header block, or all 17 LBAs,
from the other positions. -/
def Chip.patrolWrite (s : Chip) (i slot n p : Nat) : Chip :=
  let x := s.slotBlocks i slot p ((s.set i).lostAt slot p)
  x.2.lockWrite i slot p 9 (.write (slotLba slot) n (x.1.take (4096 * n))) (.repair i slot)

/-- The rows in which a patrol visit met more failures than the layout solves: the sectors that it names and the positions that cannot
be read. Sectors in a lost mask, of a page or of a member, are excluded (09 R251). -/
def Chip.patrolRows (s : Chip) (i slot : Nat) (lost : List (Nat × Nat)) : List (Nat × Nat × List Nat) :=
  let t := s.set i
  let live := lost.filter fun x =>
    let l := s.leaf x.1
    l.kind != 0 && l.set == i && l.slot == slot && !(l.kind == 2 && bit l.lost (x.2 % 16)) &&
      !(t.copies slot l.col).any fun q => bit (t.lostAt slot q) (x.2 % 16)
  let missing := (t.presentAt slot).filter fun q => !t.readable slot q
  ((live.map (·.2 % 16)).eraseDups).map fun sec =>
    (slot, sec, ((live.filter (·.2 % 16 == sec)).flatMap (fun x => t.copies slot (s.leaf x.1).col) ++ missing).eraseDups)

/-- What one patrol visit found, treated (log 60). -/
def Chip.patrolFinding (s : Chip) (i slot : Nat) (f : PatrolFinding) (done : Chip → Chip) : Chip := match f with
  | .agree => done s
  | .headerBad p => done ((s.patrolled 0).patrolWrite i slot 1 p)
  | .sectorsBad p => done ((s.patrolled 1).patrolWrite i slot 17 p)
  | .parityDisagrees =>
    let l := (s.set i).presentAt slot
    done ((l.filter fun p => !((s.set i).cfg.dataPos slot l).contains p).foldl (fun u p => u.patrolWrite i slot 17 p) (s.patrolled 2))
  | .mirrorDiffers c =>
    let ps := ((s.set i).copies slot c).filter fun p => (s.set i).presentPos.contains p
    let at_ := match s.pageAt i slot c with
      | some p => (p * 65536, 65536)
      | none => (0, 0)
    done (((ps.drop 1).foldl (fun u p => u.patrolWrite i slot 17 p) (s.patrolled 3)).raise 9 i 2 3 0
      (le 1 i ++ le 4 slot ++ le 1 (ps.headD 0) ++ le 8 at_.1 ++ le 4 at_.2))
  | .tooMany lost => s.treatRows i none (s.patrolRows i slot lost) fun t => done (t.patrolled 4)

/-- The sealed slots of a set's FULL and OPEN segments, ascending: the slots that patrol visits. -/
def StripeSet.sealedSlots (t : StripeSet) : List Nat :=
  (t.segs.filter fun e => e.2.st == .full || e.2.st == .opened).flatMap fun e =>
    (rangeFrom (256 * e.1) e.2.next).filter fun slot => !e.2.dead.contains (slot % 256) && !t.writing.any (·.slot == slot)

/-- The slot that patrol visits next: the first sealed one from its place on, else the first of all. -/
def StripeSet.patrolNext (t : StripeSet) : Option Nat := (t.sealedSlots.find? (t.patrolAt ≤ ·)).orElse fun _ => t.sealedSlots.head?

/-- A lap of patrol ends, with its duration in seconds. -/
def Chip.patrolLap (s : Chip) (i : Nat) (lap : Option Nat) : Chip := match lap with
  | none => s
  | some sec =>
    let s2 := s.modSet i fun t => { t with orbit := sec, patrolAt := 0 }
    if s.par (0x900340 + 4 * i) < sec then s2.raise 9 i 4 2 0 (le 1 i ++ le 4 sec) else s2

/-- The Reads of a patrol visit have ended: what they found is treated, and the visit is over. -/
def Chip.patrolGo (s : Chip) (i : Nat) : Chip :=
  match (s.set i).visit with
  | none => s
  | some (slot, f, lap) =>
    if s.inFlight (.patrol i) then s
    else if !s.setUp i || 4 ≤ s.ecl.step || !s.drivesOn then s.modSet i fun t => { t with visit := none }
    else s.patrolFinding i slot f fun t => (t.modSet i fun x => { x with visit := none, patrolAt := slot + 1 }).patrolLap i lap

/-- The work of a set that waits for Reads, or for the twin, goes on. -/
def Chip.goOn (s : Chip) (i : Nat) : Chip := ((s.rebuildJudge i).cleanGo i).patrolGo i

/-- The work of every set goes on. -/
def Chip.goOnAll (s : Chip) : Chip := ((List.range 4).foldl Chip.goOn s).reportMissed

/-! ### Sets that E4 of Eclipse cannot drain (13 R336) -/

/-- Contiguous runs of a rising list of pages, each below 4 GiB: first page and pages (log 99). -/
def pageRuns : List Nat → List (Nat × Nat)
  | [] => []
  | p :: r => match pageRuns r with
    | (q, n) :: rest => if q == p + 1 && n < 65535 then (p, n + 1) :: rest else (p, 1) :: (q, n) :: rest
    | [] => [(p, 1)]

/-- Charged pages of a set, rising. -/
def Chip.chargedOf (s : Chip) (i : Nat) : List Nat :=
  (s.pgm.pages.filter fun e => e.2.charged && s.setOf e.1 == i).map (·.1)

/-- A set entered in the undrained mask, its dirty ranges named. -/
def Chip.undrain (s : Chip) (i : Nat) : Chip :=
  (pageRuns (s.chargedOf i)).foldl (fun t r =>
    t.raise 0x0E i 3 3 0 (le 1 i ++ le 8 (r.1 * 65536) ++ le 4 (r.2 * 65536)))
    { s with ecl := { s.ecl with undrained := setBit s.ecl.undrained i true } }

/-- Sets with charged pages that cannot be written while E4 runs. -/
def Chip.judgeDrain (s : Chip) : Chip :=
  if s.ecl.step != 4 then s
  else (List.range 4).foldl (fun t i =>
    if !bit t.ecl.undrained i && !(t.chargedOf i).isEmpty && !t.setWrites i then t.undrain i else t) s

/-- A position is lost (09 R250): its journal copy, its stripes' Writes and its own rebuild end; reads are reconstructed. -/
def Chip.losePosition (s : Chip) (i p : Nat) : Chip :=
  let s1 := s.modSet i fun t =>
    let own := t.rbState == 1 && t.rbPos == p
    { (t.modPos p fun x => { x with ready := false, lost := true }) with
      jlive := t.jlive.filter (· != p), jcopy := t.jcopy.filter (·.1 != p), rbState := if own then 0 else t.rbState,
      writing := t.writing.map fun x => if x.pend.contains p then { x with failed := true } else x }
  let ended := (s.set i).rbState == 1 && (s.set i).rbPos == p
  ((if ended then s1.setState i .degraded else s1).judgeSet i).judgeDrain

/-- The reads that a lost drive port had for a fetch or a map node, made again from the other positions (09 R250). -/
def Chip.readAgain (s : Chip) (c : DriveCmd) : Chip := match c.use with
  | .fetch p => s.readPage p c.cls
  | .node key => match s.mapSet, Tab.find s.str.mapNodes key with
    | some m, some (slot, col, _) => s.readColumn m slot col c.cls (.node key)
    | _, _ => s
  | .clean i p => if (s.set i).copying.isSome then s.readColumn i (s.leaf p).slot (s.leaf p).col 8 (.clean i p) else s
  | .archive m rest => s.archiveFrom m rest
  | _ => s

/-- A drive port is lost (09 R222, R227, R250): its commands are failed inside the device, and its positions lost. -/
def Chip.loseDrive (s : Chip) (d : Nat) : Chip :=
  let k := s.drive d
  let s1 := s.modDrive d fun k => { k with lost := true, ready := false, up := false, enabled := false, cmds := [], waitCmds := [] }
  let s2 := (s.holds d).foldl (fun t x => t.losePosition x.1 x.2) (s1.dropLocks fun e => e.2.2.1 == d)
  ((k.cmds.map (·.2) ++ k.waitCmds).foldl Chip.readAgain s2).goOnAll

/-- DRV_PERST_N is low for a drive port for a reason that stands: the delay, MAINTENANCE, or step E6 (09 R223, R229). -/
def Chip.perstHeld (s : Chip) (d : Nat) : Bool :=
  !s.str.delay || s.glb.state == .maintenance || s.cfg.phase < 2 || (s.drive d).shut

/-- What DRV_PRSNT_N says of a drive port taken in (09 R221, R223): a drive that has come, or one that is gone, or that the
mode of its root port no longer serves. -/
def Chip.judgePresence (s : Chip) (d : Nat) : Chip :=
  let k := s.drive d
  let there := k.pin && s.portUsed d
  if there == k.present then s
  else if there then s.modDrive d fun k => { Drive.blank with pin := true, present := true, perst := s.perstHeld d, shut := k.shut }
  else (s.loseDrive d).modDrive d fun k => { Drive.blank with pin := k.pin, perst := k.perst, shut := k.shut }

/-- DRV_PRSNT_N moves (09 R221): in x4 mode the odd port's level is kept and ignored. -/
def presenceEffect (d : Nat) (present : Bool) (s : Chip) : Chip :=
  if s.nDrives ≤ d then s else (s.modDrive d fun k => { k with pin := present }).judgePresence d

def execDrivePresenceChange (d : Nat) (present : Bool) (s : State) : Host.Outcome State Fault Refusal :=
  .next (s.on (presenceEffect d present))

/-- NVH_PERST_DLY has passed since PWR_GOOD_IN (09 R223): the lines go high, or at S2 if that comes later. -/
def Chip.releasePerst (s : Chip) : Chip :=
  (List.range s.nDrives).foldl (fun t d => t.modDrive d fun k => { k with perst := !t.portUsed d || t.perstHeld d }) s

/-- S2 has applied BIFUR (09 R221): presence is judged anew for every drive port. -/
def Chip.judgePorts (s : Chip) : Chip := (List.range s.nDrives).foldl Chip.judgePresence s

def perstDelayEffect (s : Chip) : Chip := ({ s with str := { s.str with delay := true } }).releasePerst

def execPerstDelayExpiry (s : State) : Host.Outcome State Fault Refusal := .next (s.on perstDelayEffect)

/-- Drives may be set up (09 R228, R231; 12 R307): D22 powered, no conflict reported, and not in FAULT or SEALED. -/
def Chip.setUpOn (s : Chip) : Bool :=
  !bit s.pws.gated 22 && !s.str.conflict && s.glb.state != .fault && s.glb.state != .sealed

/-- The admin commands that find out what a drive is (09 R224, R226). -/
def setUpCmds : List NvmeCmd := [.identify 1, .identify 2, .identify 0, .setQueues 16, .getQueues]

/-- Those commands have completed, or are to be issued anew. -/
def Drive.endSetUp (k : Drive) : Drive :=
  { k with cmds := k.cmds.filter fun c => !setUpCmds.contains c.2.cmd, waitCmds := k.waitCmds.filter fun c => !setUpCmds.contains c.cmd }

/-- A drive port whose link is up, or whose controller has been reset, is set up (09 R227, R228; log 125). -/
def Chip.beginSetUp (s : Chip) (d : Nat) : Chip :=
  let k := s.drive d
  if k.ready || k.refused || !k.up || !s.setUpOn then s
  else setUpCmds.foldl (fun t c => t.admin d c) (s.modDrive d Drive.endSetUp)

/-- Outstanding commands taken back to be issued again (09 R227). -/
def Drive.requeue (k : Drive) : Drive := { k with waitCmds := k.cmds.map (·.2) ++ k.waitCmds, cmds := [] }

/-- The rate that a drive port trains at (09 R222): no higher than NVH_PORT_CFG.MAXRATE. -/
def Chip.linkRate (s : Chip) (d rate : Nat) : Nat := Nat.min rate (bits (s.par (0x800000 + 0x1000 * (d / 2))) 2 1)

/-- A drive link comes up, narrower than configured or not, or is lost (09 R222, R223). -/
def driveLinkEffect (d : Nat) (up : Bool) (width rate : Nat) (flit : Bool) (s : Chip) : Chip :=
  let k := s.drive d
  if !k.present || k.perst || k.pulse || !s.portUsed d then s
  else if up then
    let r := s.linkRate d rate
    let s1 := s.modDrive d fun k => { k with up := true, width, rate := r, flit := r == 2 || flit, enabled := true }
    let s2 := if width < (if s.bifurcated d then 2 else 4) then
        s1.raise 8 (d / 2) 2 2 0 [BitVec.ofNat 8 d, BitVec.ofNat 8 width, BitVec.ofNat 8 r]
      else s1
    (s2.beginSetUp d).submitAll d
  else s.modDrive d fun k => { k.requeue with up := false, ready := false, enabled := false, pulse := true }

def execDriveLinkChange (d : Nat) (up : Bool) (width : Nat) (rate : Nat) (flit : Bool) (s : State) : Host.Outcome State Fault Refusal :=
  .next (s.on (driveLinkEffect d up width rate flit))

/-! ### Commands that end -/

/-- The set and position of a drive port, where it holds one. -/
def Chip.memberOf (s : Chip) (d : Nat) : Option (Nat × Nat) := (s.holds d).head?

/-- A stripe's Write to a position has completed, or failed (09 R236); with its last one the COMMIT record goes out. -/
def Chip.writeEnded (s : Chip) (i p seq : Nat) (ok : Bool) : Chip :=
  let s1 := s.modSet i fun t => { t with writing := t.writing.map fun x =>
    if x.seq == seq then { x with pend := x.pend.filter (· != p), failed := x.failed || !ok } else x }
  match (s1.set i).writing.find? (·.seq == seq) with
  | some x =>
    if !ok || !x.pend.isEmpty || x.failed || x.commit.isSome then s1
    else
      let n := (s1.set i).jseq + 1
      let s2 := s1.modSet i fun t => { t with writing := t.writing.map fun y => if y.seq == seq then { y with commit := some n } else y }
      if x.map then s2.jrecord i 2 seq x.slot else s2.jrecord i 2 seq x.slot x.cols.length (x.colTable i)
  | none => s1

/-- A media error on a position (09 R250): 16 within 60 s lose it. -/
def Chip.mediaError (s : Chip) (i p : Nat) : Chip :=
  let s1 := s.modSet i fun t => t.modPos p fun x =>
    { x with errors := s.now :: x.errors.filter fun (e : Nat) => s.now ≤ e + 60000000000 }
  match (s1.set i).pos[p]? with
  | some x => if 16 ≤ x.errors.length && !x.lost then s1.losePosition i p else s1
  | none => s1

/-- Another unit holds the drives, or says so: FENCED, and every connection ends (02 R47; 12 R294, Table 12-1). -/
def Chip.fence (s : Chip) : Chip :=
  let s1 := ({ s with syz := { s.syz with role := .fenced } }).toFault 8
  s1.connIds.foldl Chip.freeConn s1

/-- A Reservation Conflict (09 R231, 12 Table 12-1): nothing further goes to any drive, and this unit is fenced. -/
def Chip.conflicted (s : Chip) : Chip :=
  let s1 := { s with str := { s.str with conflict := true } }
  if s1.syz.role == .active then s1.fence else s1

/-- What the end of a drive command lets go on, by its use. -/
def Chip.used (s : Chip) (d : Nat) (c : DriveCmd) (ok : Bool) : Chip := match c.use with
  | .stripe seq => match s.memberOf d with
    | some (i, p) => s.writeEnded i p seq ok
    | none => s
  | .ring i => s.ringCopied i
  | .repair i slot => s.unlock i slot
  | .rebuild i slot => if ok then s.rebuilt i slot else (s.unlock i slot).rebuildStep i
  | .rebuildRead i slot q => s.rebuildReadDone i slot q none ok
  | .rebuildSector i slot q k => s.rebuildReadDone i slot q (some k) ok
  | .clean i p => s.cleanReadDone i p d ok
  | .patrol i => s.patrolGo i
  | .copy _ => s.reportMissed
  | .archive m rest => if ok then s else s.archiveFrom m rest
  | _ => s

/-- What a reservation or shutdown command does once it has completed (09 R229, R230). -/
def Chip.adminDone (s : Chip) (d : Nat) : NvmeCmd → Chip
  | .acquire _ => s.modDrive d fun k => { k with holder := true }
  | .preempt _ _ => s.modDrive d fun k => { k with holder := true }
  | .release _ => s.modDrive d fun k => { k with holder := false }
  | .flush => if (s.drive d).shn then s else (s.modDrive d fun k => { k with shn := true }).emit (.nvmeCtl d true true)
  | _ => s

/-- An NVMe command ends with a status (09 R224, R231, R236, R249, R250). -/
def Chip.cmdEnds (s : Chip) (d cid : Nat) (c : DriveCmd) (st : NvmeStatus) : Chip :=
  let ok := decide (st = NvmeStatus.success)
  let s1 := s.modDrive d fun k => { k with cmds := k.cmds.filter (·.1 != cid) }
  let s2 := if st = NvmeStatus.mediaError then (match s1.memberOf d with
    | some (i, p) => s1.mediaError i p
    | none => s1) else s1
  let s3 := s2.used d c ok
  let s4 := if ok || c.cmd == .flush then s3.adminDone d c.cmd else s3
  (if st = NvmeStatus.conflict then s4.conflicted else s4).submitAll d

def nvmeCompleteEffect (d cid : Nat) (st : NvmeStatus) (s : Chip) : Chip :=
  match (s.drive d).cmds.find? fun (e : Nat × DriveCmd) => e.1 == cid with
  | none => s
  | some e => s.cmdEnds d cid e.2 st

def execNvmeCommandComplete (d : Nat) (cid : Nat) (st : NvmeStatus) (s : State) : Host.Outcome State Fault Refusal :=
  .next (s.on (nvmeCompleteEffect d cid st))

/-! ### Errors of a link and of a controller -/

/-- An AER error reported to FLT (09 R222). -/
def Chip.aerCount (s : Chip) (d k : Nat) : Chip :=
  { s with flt := { s.flt with aer := Tab.ins s.flt.aer (3 * d + k) ((Tab.find s.flt.aer (3 * d + k)).getD 0 + 1) } }

/-- An AER error (09 R222): the command fails, and is issued once more; a fatal one retrains the link. -/
def aerEffect (d : Nat) (k : AerKind) (s : Chip) : Chip :=
  if !(s.drive d).present then s
  else match k with
    | .correctable => s.aerCount d 0
    | .nonFatal cid =>
      let s0 := s.aerCount d 1
      match (s.drive d).cmds.find? fun (e : Nat × DriveCmd) => e.1 == cid with
      | some (_, c) =>
        if c.again then s0.cmdEnds d cid c .failed
        else (s0.modDrive d fun k => { k with cmds := k.cmds.filter (·.1 != cid), waitCmds := { c with again := true } :: k.waitCmds }).submitAll d
      | none => s0
    | .fatal => (s.aerCount d 2).modDrive d fun k => { k with up := false }

def execPcieAerError (d : Nat) (k : AerKind) (s : State) : Host.Outcome State Fault Refusal := .next (s.on (aerEffect d k))

/-- A link has not retrained within 100 ms (09 R222): the drive port is lost and reset. -/
def retrainTimeoutEffect (d : Nat) (s : Chip) : Chip :=
  let k := s.drive d
  if k.present && !k.up && !k.lost then (s.loseDrive d).modDrive d fun k => { k with pulse := true } else s

def execLinkRetrainTimeout (d : Nat) (s : State) : Host.Outcome State Fault Refusal := .next (s.on (retrainTimeoutEffect d))

/-- The 10 ms reset pulse of a drive port ends (09 R223). -/
def perstPulseEffect (d : Nat) (s : Chip) : Chip := s.modDrive d fun k => { k with pulse := false }

def execDrvPerstPulseExpiry (d : Nat) (s : State) : Host.Outcome State Fault Refusal := .next (s.on (perstPulseEffect d))

/-- A command has run past STR_CMD_TIMEOUT (09 R227): a controller reset, CC.EN cleared and then set, and a lost port at the third
within 60 s. -/
def nvmeTimeoutEffect (d cid : Nat) (s : Chip) : Chip :=
  let k := s.drive d
  if !(k.cmds.any (·.1 == cid)) then s
  else
    let resets := s.now :: k.resets.filter fun e => s.now ≤ e + 60000000000
    let s1 := s.modDrive d fun k => { k.requeue with ready := false, resets := resets }
    if 3 ≤ resets.length then s1.loseDrive d else (((s1.emit (.nvmeCtl d false false)).emit (.nvmeCtl d true false)).beginSetUp d)

def execNvmeCommandTimeout (d : Nat) (cid : Nat) (s : State) : Host.Outcome State Fault Refusal :=
  .next (s.on (nvmeTimeoutEffect d cid))

/-- A controller has not become ready within CAP.TO (09 R227, R228). -/
def controllerTimeoutEffect (d : Nat) (s : Chip) : Chip :=
  let k := s.drive d
  if k.present && !k.ready && !k.lost && !k.perst then s.loseDrive d else s

def execControllerReadyTimeout (d : Nat) (s : State) : Host.Outcome State Fault Refusal :=
  .next (s.on (controllerTimeoutEffect d))

/-- A critical warning recorded (09 R224). -/
def Chip.critical (s : Chip) (d w : Nat) : Chip :=
  let s1 := s.modDrive d fun k => { k with warn := w % 256 }
  if w % 256 == 0 then s1 else s1.raise 8 (d / 2) 3 2 0 [BitVec.ofNat 8 d, BitVec.ofNat 8 w]

/-- The Error Information and SMART / Health logs of a ready drive read, and a critical warning recorded (09 R224). -/
def Chip.smart (s : Chip) (d w : Nat) : Chip :=
  if !(s.drive d).ready || !s.drivesOn then s
  else (((s.critical d w).admin d .errorLog).admin d .smartLog)

def execNvmeAsyncEvent (d : Nat) (warning : Nat) (s : State) : Host.Outcome State Fault Refusal :=
  .next (s.on fun c => c.smart d warning)

def execSmartPoll (warnings : List (Nat × Nat)) (s : State) : Host.Outcome State Fault Refusal :=
  .next (s.on fun c => (List.range c.nDrives).foldl (fun t d => t.smart d (Tab.get warnings 0 d)) c)

/-! ### Readiness and membership -/

/-- Why a drive is refused, by the order of R226; none when it is not. -/
def driveRefusal (f : DriveInfo) : Option Nat :=
  if !f.multiPort then some 0 else if !f.reservations then some 1 else if !f.nsOk || !f.lba4k then some 2
  else if f.queues < 4 then some 3 else none

/-- A label names a set as its configuration expects it (09 R234). -/
def Chip.labelFits (s : Chip) (d : Nat) (l : Label) : Bool :=
  let t := s.set l.set
  l.set < 4 && t.cfg.on && l.layout == t.cfg.layout && l.n == t.cfg.n && l.pos < t.cfg.n &&
  (t.ident == 0 || t.ident == l.setId) && (bit t.cfg.mask d || bit (s.par 0x900304) d)

/-- A stale drive: recorded and not used (09 R234). -/
def Chip.stale (s : Chip) (d gen : Nat) : Chip := s.raise 9 0xFFFF 3 2 0 (le 1 d ++ le 4 gen)

/-- A drive becomes the member of its position. -/
def Chip.joinSet (s : Chip) (d : Nat) (l : Label) : Chip :=
  let s1 := s.modSet l.set fun t => { (t.modPos l.pos fun x => { x with drive := some d, ready := true, lost := false }) with
    ident := l.setId, labelGen := l.gen, z := l.z }
  s1.register d

/-- Members with an older label generation than one now seen are stale. -/
def Chip.dropOlder (s : Chip) (i : Nat) : Chip :=
  let t := s.set i
  t.pos.zipIdx.foldl (fun (u : Chip) (x : Position × Nat) => match x.1.drive with
    | some d => (u.modSet i fun t => t.modPos x.2 fun x => { x with drive := none, ready := false }).stale d t.labelGen
    | none => u) s

/-- The target of a suspended rebuild is back, with the next label generation (09 R252). -/
def Chip.isTarget (s : Chip) (l : Label) : Bool :=
  let t := s.set l.set
  (t.rbState == 2 || t.rbState == 1) && l.pos == t.rbPos && l.gen == t.labelGen + 1 && t.ident == l.setId

/-- A drive whose label has been read takes its place (09 R234). -/
def Chip.member (s : Chip) (d : Nat) (l : Label) : Chip :=
  let t := s.set l.set
  if !s.labelFits d l then s
  else if s.isTarget l then
    let s1 := s.modSet l.set fun t =>
      { (t.modPos l.pos fun x => { x with drive := some d, ready := false, lost := false }) with rbDrive := d }
    s1.resumeRebuild l.set
  else if l.gen < t.labelGen && t.ident != 0 then s.stale d l.gen
  else if t.labelGen < l.gen && t.ident != 0 then ((s.dropOlder l.set).joinSet d l).judgeSet l.set
  else (s.joinSet d l).judgeSet l.set

/-- The label of a drive that is ready so far read, and the I/O queues and logs set up, on the way to readiness (09 R224, R225, R228):
the queues are 256 entries deep. Their outcome has come with the event (log 125). -/
def Chip.finishSetUp (s : Chip) (d : Nat) (f : DriveInfo) : Chip :=
  let pairs := Nat.min 16 f.queues
  let rest : List NvmeCmd := [.setArbitration, .getArbitration] ++
    ((rangeFrom 1 pairs).flatMap fun q => [.createCq q 256, .createSq q 256]) ++ [.errorLog, .smartLog]
  let s1 := s.modDrive d fun k => k.endSetUp
  if (driveRefusal f).isSome then s1 else ((rest.foldl (fun t c => t.ran d 0 c) s1).ran d 3 (.read 0 2)).critical d f.warn

/-- A drive port becomes ready, or is refused (09 R226, R228, R230). One that becomes ready in a takeover is preempted. -/
def driveReadyEffect (d : Nat) (f : DriveInfo) (s : Chip) : Chip :=
  let k := s.drive d
  if !k.present || k.perst || k.pulse || !k.up || k.refused || k.ready || !s.portUsed d || !s.setUpOn then s
  else
    let s0 := s.finishSetUp d f
    match driveRefusal f with
    | some r => (s0.modDrive d fun k => { k with refused := true }).raise 8 (d / 2) 1 2 0 [BitVec.ofNat 8 d, BitVec.ofNat 8 r]
    | Option.none =>
      let s1 := s0.modDrive d fun k => { k with
        ready := true, lost := false, label := f.label, size := f.size, serial := f.serial, pairs := Nat.min 16 f.queues, queue := 0 }
      let s2 := match f.label with
        | some l => s1.member d l
        | none => s1
      let s3 := if s2.glb.state = .takeover ∧ !(s2.drive d).holder ∧ !(s2.holds d).isEmpty then s2.preempt d else s2
      ((s3.submitAll d).issueFetches)

def execDriveReady (d : Nat) (info : DriveInfo) (s : State) : Host.Outcome State Fault Refusal :=
  .next (s.on (driveReadyEffect d info))

/-! ### The journal check and scan (09 R243, R247) -/

/-- The entries in the body of a COMMIT or MARK record: page and leaf entry. -/
def jrecEntries (r : JRec) : List (Nat × Nat) :=
  (List.range (Nat.min 60 r.count)).map fun k => (leField r.body (16 * k) 4, leField r.body (16 * k + 8) 8)

/-- An entry of a COMMIT's column table put in the pending-delta table (09 R243), unless one of a later stripe is there. -/
def Chip.pendEntry (s : Chip) (seq : Nat) (e : Nat × Nat) : Chip :=
  let l := leafOf e.2
  if l.kind == 0 || ((Tab.find s.pgm.pendLeaf e.1).any fun q => seq < q) then s
  else
    let s1 := s.noteSegment l.set l.slot
    { s1 with pgm := { s1.pgm with leaves := Tab.set s1.pgm.leaves Leaf.zero e.1 l, pendLeaf := Tab.ins s1.pgm.pendLeaf e.1 seq },
              str := { s1.str with nodes := if s1.str.nodes.contains (e.1 / 512) then s1.str.nodes else s1.str.nodes ++ [e.1 / 512] } }

/-- An entry of a MARK record: it stands unless a stripe sealed later holds the page. -/
def Chip.markEntry (s : Chip) (e : Nat × Nat) : Chip :=
  match Tab.find s.pgm.pendLeaf e.1 with
  | some q => if (s.leaf e.1).chunk = (leafOf e.2).chunk then s.pendEntry q e else s
  | none => s.pendEntry 0 e

/-- The root of a CHECKPOINT taken (09 R243): the L2 nodes that its 16 entries name; what is older than C is on the drives. -/
def Chip.takeRoot (s : Chip) (r : JRec) : Chip :=
  let old := (s.pgm.pendLeaf.filter fun e => 0 < e.2 && e.2 ≤ r.stripe).map (·.1)
  let s1 := { s with
    str := { s.str with ckpt := r.stripe },
    pgm := { s.pgm with root := true, leaves := s.pgm.leaves.filter fun e => !old.contains e.1,
                        pendLeaf := s.pgm.pendLeaf.filter fun e => !old.contains e.1 } }
  s1.takeWords 3 0 ((List.range 16).map fun k => (k, leField r.body (8 * k) 8))

/-- The map nodes of a complete MAP stripe, where no CHECKPOINT can be read (09 R247): they lie where its header says. -/
def Chip.takeNodes (s : Chip) (i : Nat) (f : FoundStripe) : Chip :=
  f.nodes.foldl (fun t e => ({ t with str := { t.str with
    mapNodes := Tab.ins t.str.mapNodes e.2 (f.slot, e.1 / 16, e.1 % 16) } }).noteSegment i f.slot) s

/-- The stripe that a scan found is one whose writes this unit had under way: it knows its bytes. -/
def Chip.ownBytes (s : Chip) (i : Nat) (f : FoundStripe) : Chip :=
  match (s.set i).writing.find? fun x => x.seq == f.seq && x.slot == f.slot with
  | none => s
  | some x => x.cols.zipIdx.foldl (fun t e => { t with str := { t.str with
      stored := Memory.lay 0 t.str.stored (e.1.page * 65536) 65536 e.1.bytes,
      chunks := Tab.ins t.str.chunks e.1.page (x.leafOf i e.2 e.1).chunk } }) s

/-- A scanned slot holds a complete stripe (09 R247 step 4). -/
def foundWhole (f : FoundStripe) : Bool := f.present != 0 && f.present &&& f.good == f.present && f.solvable

/-- A complete stripe above the last COMMIT (09 R247 step 5): its COMMIT record now, and its leaf entries. -/
def Chip.takeFound (s : Chip) (i : Nat) (f : FoundStripe) : Chip :=
  let n := (s.set i).cfg.n
  let table := (List.range 32).flatMap fun c => match f.cols.find? (·.1 == c) with
    | some x => le 4 x.2.1 ++ le 4 0 ++ le 8 x.2.2
    | none => List.replicate 16 0
  let s1 := if f.map then s.jrecord i 2 f.seq f.slot else s.jrecord i 2 f.seq f.slot 32 table
  let s2 := (if f.map then s1 else f.cols.foldl (fun t x => t.pendEntry f.seq x.2) (s1.ownBytes i f)).noteSegment i f.slot
  let l := (List.range n).filter fun k => bit f.present k
  { s2.notePresent i f.slot l with str := { (s2.notePresent i f.slot l).str with lastSealed := Nat.max s2.str.lastSealed f.seq } }

/-- The records of a set's journal taken (09 R243): the root, for the map set; then the entries of COMMIT and MARK records. A
warm resume has kept the map (08 R218). -/
def Chip.takeRecords (s : Chip) (i : Nat) (rs : List JRec) : Chip :=
  if s.cfg.warm then s
  else
    let s1 := match (rs.filter fun r => r.type == 3).getLast? with
      | some r => if s.mapSet == some i then (s.takeRoot r).modSet i fun t => { t with jckpt := r.seq } else s
      | none => s
    let cs := (rs.filter fun r => r.type == 2 && s1.str.ckpt < r.stripe).mergeSort fun a b => a.stripe ≤ b.stripe
    let s2 := cs.foldl (fun t r => (jrecEntries r).foldl (fun u e => u.pendEntry r.stripe e) t) s1
    (rs.filter fun r => r.type == 4).foldl (fun t r => (jrecEntries r).foldl Chip.markEntry t) s2

/-- No CHECKPOINT can be read: a fresh one is written, and one that takes the corrected nodes along is due (09 R247). -/
def Chip.freshRoot (s : Chip) (i c : Nat) : Chip :=
  if s.mapSet != some i then s
  else
    let s1 := { s with pgm := { s.pgm with root := true } }
    { s1.jrecord i 3 c 0 16 (s1.rootWords.flatMap (le 8)) with
      str := { (s1.jrecord i 3 c 0 16 (s1.rootWords.flatMap (le 8))).str with ckpt := c, sealedSince := s.par 0x90031C } }

/-- The segment table of a set after its scan: segments in use are closed to new stripes (log 128). -/
def StripeSet.takeSegs (t : StripeSet) (used : List Nat) : StripeSet :=
  { t with segs := used.foldl (fun (m : Tab Segment) g =>
      if (Tab.find m g).isSome then m else Tab.ins m g { st := .full, next := 256, superseded := 0, closed := true, dead := [] }) t.segs }

/-- Restored remap entries whose DIMM has changed are discarded (11 R292). -/
def Chip.checkRemaps (s : Chip) : Chip :=
  s.dmc.map.foldl (fun t n =>
    (t.chan n).remap.foldl (fun u e =>
      let serial := (u.chan n).serials.getD (e.2.2 / 8192 % 2) 0
      if serial % 8192 == e.2.2 % 8192 then u
      else (u.modChan n fun k => { k with remap := Tab.del k.remap e.1 }).raise 0x0B n 6 1 0
        (le 1 e.1 ++ le 4 e.2.1 ++ le 4 e.2.2)) t) s

/-- The remap entries that this unit's newest seal holds, restored for the channels of which the configuration store holds no record
(11 R292): a record of the store is never older than the seal (log 197). -/
def Chip.sealedRemaps (s : Chip) (f : ScanInfo) : Chip :=
  match newestSeal ((f.seals.filterMap sealOf).filter fun x => x.writer == s.sec.writer) with
  | none => s
  | some x =>
    let known := (s.goodRecords remapBase 1024).map fun e => leField e.2 5 1
    Chip.checkRemaps (((List.range 12).filter fun n => s.dmc.map.contains n && !known.contains n && (s.chan n).remap.isEmpty).foldl (fun t n =>
      t.modChan n fun k => { k with remap := Tab.get x.remap [] n }) s)

/-- Segments with an OPEN record since the latest CHECKPOINT and no later FREE record (09 R247 step 3). -/
def openSegs (rs : List JRec) : List Nat :=
  ((rs.filter fun r => r.type == 1 && !rs.any fun q => q.type == 5 && q.slot == r.slot && r.seq < q.seq).map (·.slot)).eraseDups

/-- The segments whose every slot is scanned: those with an OPEN record, or every one where both copies are unreadable; none where a
device seal is as new as the journal (09 R247; 13 R337). -/
def Chip.scanSegs (s : Chip) (i : Nat) (f : ScanInfo) : List Nat := match f.recs with
  | none => List.range (s.set i).segCount
  | some rs => if (newestSeal (f.seals.filterMap sealOf)).any fun x => maxOf (rs.map (·.seq)) ≤ x.records.getD i 0 then [] else openSegs rs

/-- The Reads of the slots of the segments to scan: one for each segment and position. -/
def Chip.scanReads (s : Chip) (i : Nat) (l : List Nat) : Chip :=
  l.foldl (fun t g => (t.set i).presentPos.foldl (fun u p => u.posCmd i p 3 (.read (slotLba (256 * g)) 4352) (.scan i)) t)
    (s.modSet i fun t => { t with slotScan := true })

/-- What the journal check and the slot scan of a set found is taken over (09 R247): the records, complete stripes above the last
COMMIT in the order of their sequences, the next sequence (R237), and the segments. -/
def Chip.takeScan (s : Chip) (i : Nat) (f : ScanInfo) : Chip :=
  let rs := f.recs.getD []
  let last := maxOf (rs.map (·.seq))
  let quiet := f.recs.isSome && (newestSeal (f.seals.filterMap sealOf)).any fun x => last ≤ x.records.getD i 0
  let commit := maxOf ((rs.filter fun r => r.type == 2 || r.type == 3).map (·.stripe))
  let found := if quiet then [] else (f.found.filter fun x => foundWhole x && (f.recs.isNone || commit < x.seq)).mergeSort fun a b => a.seq ≤ b.seq
  let s1 := s.modSet i fun t =>
    let jpos := if t.jpos.isEmpty then t.cfg.journal else t.jpos
    { (t.takeSegs f.used) with
      jpos, jlive := jpos.filter fun p => t.presentPos.contains p, jseq := last, jrecs := rs,
      jckpt := Nat.max t.jckpt (minOf (last + 1) (rs.map (·.seq)) - 1),
      scanMs := (s.now - t.scanAt.getD s.now) / 1000000, scanAt := none }
  let s2 := s1.takeRecords i rs
  let s3 := if f.recs.isNone then (found.filter (·.map)).foldl (fun t x => t.takeNodes i x) s2 else s2
  let s4 := found.foldl (fun t x => t.takeFound i x) s3
  let live := (rs.filter (·.type == 2)).map (·.slot) ++ found.map (·.slot)
  let shut (e : Nat × Segment) : Nat × Segment :=
    let x := if e.2.st == .opened && !quiet then { e.2 with st := .full, closed := true } else e.2
    (e.1, if (s.scanSegs i f).contains e.1 then { x with dead := (List.range x.next).filter fun k => !live.contains (256 * e.1 + k) } else x)
  let s5 := (if f.recs.isNone then s4.freshRoot i (maxOf ((found.filter (·.map)).map (·.seq))) else s4).modSet i fun t => { t with
    writing := [], scanned := true, segs := t.segs.map shut }
  let seen := Nat.max commit (maxOf (f.found.map (·.seq)))
  let since := (rs.filter fun r => r.type == 2 && s5.str.ckpt < r.stripe).length
  (({ s5 with str := { s5.str with
    seq := Nat.max s5.str.seq (seen + 1), lastSealed := Nat.max s5.str.lastSealed commit,
    sealedSince := if s.cfg.warm then s5.str.sealedSince else s5.str.sealedSince + since + found.length } }).segments i).judgeSet i

/-- A set's journal check and slot scan end: once the journal is read, the slots to scan are, and then what both found is taken. -/
def setScanEffect (i : Nat) (f : ScanInfo) (s : Chip) : Chip :=
  let t := s.set i
  if !t.cfg.on || t.scanned || t.cfg.tolerance < t.missing.length || !s.drivesOn || s.inFlight (.scan i) then s
  else
    let l := s.scanSegs i f
    let s1 := if t.slotScan || l.isEmpty then s else s.scanReads i l
    if s1.inFlight (.scan i) then s1 else (s1.sealedRemaps f).takeScan i f

def execSetScanComplete (set : Nat) (info : ScanInfo) (s : State) : Host.Outcome State Fault Refusal :=
  .next (s.on (setScanEffect set info))

/-- STR_READY_WAIT has passed since a set's first position became ready (09 Table 9-7). -/
def readyWaitEffect (i : Nat) (s : Chip) : Chip :=
  let t := s.set i
  if t.cfg.on && t.st == .waiting && !t.presentPos.isEmpty then
    (s.modSet i fun t => { t with waited := true }).judgeSet i
  else s

def execReadyWaitExpiry (set : Nat) (s : State) : Host.Outcome State Fault Refusal := .next (s.on (readyWaitEffect set))

/-- A new journal position: the lowest available one in a failure group other than the survivor's (09 R241). -/
def journalReplaceEffect (i : Nat) (s : Chip) : Chip :=
  let t := s.set i
  match t.jlive with
  | [q] =>
    let ok := t.presentPos.filter fun p => p != q && t.cfg.fg.getD p 0 != t.cfg.fg.getD q 0
    match ok with
    | p :: _ => if s.setUp i && s.drivesOn && t.jcopy.isNone then ((s.modSet i fun t => { t with jpos := [q, p] }).copyRing i p 0).ringCopied i
      else s
    | [] => s
  | _ => s

def execJournalPositionReplace (set : Nat) (s : State) : Host.Outcome State Fault Refusal :=
  .next (s.on (journalReplaceEffect set))

/-! ### Rebuild commands -/

def execRebuildDelayExpiry (set : Nat) (s : State) : Host.Outcome State Fault Refusal :=
  .next (s.on fun c => c.autoRebuild set)

/-- GO of STR_REBUILD_CTL (09 R252, Table 9-7): refused for a drive port that may not take the position. -/
def rebuildEffect (force : Bool) (i p d : Nat) (s : Chip) : Chip :=
  let i := i % 4
  let t := s.set i
  let s1 := s.setPar 0x900328 (i + p % 32 * 256 + d % 32 * 65536 + b2n force * 2 ^ 30)
  let may := bit t.cfg.mask (d % 32) || bit (s.par 0x900304) (d % 32)
  let st := t.st == .degraded || (force && t.st == .failed)
  if t.cfg.on && may && st && t.rbState != 1 && t.missing.contains (p % 32) && s.spareFits i (d % 32) && s.drivesOn && s.ecl.step < 4 then
    s1.startRebuild i (p % 32) (d % 32)
  else s1

def execRebuild (ses : Session) (set : Nat) (pos : Nat) (d : Nat) (s : State) : Host.Outcome State Fault Refusal :=
  .next (s.on fun c => c.asRole ses 23 2 (rebuildEffect false set pos d))

def execRebuildForce (ses : Session) (set : Nat) (pos : Nat) (d : Nat) (s : State) : Host.Outcome State Fault Refusal :=
  .next (s.on fun c => c.asRole ses 23 2 (rebuildEffect true set pos d))

/-! ### The end of a rebuild, and the rows of a fetch -/

/-- A rebuild ends (09 R252 to R254): the label generation raised, the next position rebuilt. -/
def Chip.endRebuild (s1 : Chip) (i : Nat) : Chip :=
  let s2 := s1.modSet i fun t => { (t.modPos t.rbPos fun x => { x with ready := true, lost := false }) with
    rbState := 3, rbRemain := 0, labelGen := t.labelGen + 1 }
  let t2 := s2.set i
  let s3 := t2.pos.foldl (fun u x => match x.drive with
    | some d => u.modDrive d fun k => { k with label := k.label.map fun l => { l with gen := t2.labelGen } }
    | none => u) s2
  let s4 := (t2.pos.filterMap (·.drive)).foldl Chip.writeLabel s3
  ((s4.setState i (if t2.missing.isEmpty then .ready else .degraded)).judgeSet i).autoRebuild i

/-- The last slot of a rebuild has been visited, and its Write has ended: the rebuild ends. -/
def rebuildCompleteEffect (i : Nat) (s : Chip) : Chip :=
  let t := s.set i
  if t.rbState != 1 || !t.rebuildLeft.isEmpty || t.rbRead.isSome || s.str.locks.any (fun e => e.1 == i && e.2.2.2.rebuild) then s
  else s.endRebuild i

def execRebuildComplete (set : Nat) (s : State) : Host.Outcome State Fault Refusal := .next (s.on (rebuildCompleteEffect set))

/-- The rows of a page's stripe that its fetch finds with more unknown sectors than the layout solves (09 R253): the sectors that did not
read back at its own position, with the positions that cannot be read. -/
def Chip.fetchRows (s : Chip) (p : Nat) (bad : List Nat) : List (Nat × Nat × List Nat) :=
  let l := s.leaf p
  let t := s.set l.set
  let gone := ((t.presentAt l.slot).filter fun q => !t.readable l.slot q) ++ (t.copies l.slot l.col).filter (t.readable l.slot)
  if l.kind == 0 || t.solves gone.length 0 then []
  else ((List.range 16).filter fun i => bad.contains i && !(l.kind == 2 && bit l.lost i)).map fun i => (l.slot, i, gone)

/-- A page fetch completes (08 R199 to R205): with it the other unknown sectors of its rows are treated (09 R253), once the twin has
answered for them. -/
def fetchEndsEffect (p : Nat) (bad fixed : List Nat) (time : Nat) (errs : List (Nat × List (Nat × Byte))) (s : Chip) : Chip :=
  let g := s.page p
  if g.st != .fetching || g.issued.isNone then s
  else
    let rows := s.fetchRows p bad
    if rows.isEmpty then fetchCompleteEffect p bad fixed time errs s
    else
      let i := (s.leaf p).set
      let asks := (rows.flatMap (s.rowAsks i)).filter fun x => x.1 != p
      let s1 := s.askSectors asks
      if asks.any fun x => s1.askWaits (sectorAddr x.1 x.2) 4096 then s1
      else
        let s2 := fetchCompleteEffect p bad fixed time errs s1
        if (s2.page p).st == .fetching then s2 else s2.treatRows i (some p) rows id

def execFetchComplete (page : Nat) (bad fixed : List Nat) (time : Nat) (errs : List (Nat × List (Nat × Byte))) (s : State) :
    Host.Outcome State Fault Refusal := .next (s.on (fetchEndsEffect page bad fixed time errs))

/-! ### Patrol (09 R251) -/

/-- A patrol visit reads the 17 LBAs of every present position in class 9 (09 R251). -/
def Chip.patrolReads (s : Chip) (i slot : Nat) : Chip :=
  (((s.set i).presentAt slot).filter fun p => (s.set i).presentPos.contains p).foldl (fun u p =>
    u.posCmd i p 9 (.read (slotLba slot) 17) (.patrol i)) s

/-- A patrol visit of the slot whose turn it is, and the end of a lap with its duration in seconds; where no slot is sealed a lap ends
at once. -/
def patrolEffect (i slot : Nat) (f : PatrolFinding) (lap : Option Nat) (s : Chip) : Chip :=
  let t := s.set i
  if !s.setUp i || 4 ≤ s.ecl.step || !s.drivesOn || t.visit.isSome then s
  else match t.patrolNext with
    | none => s.patrolLap i lap
    | some n =>
      if n != slot then s
      else ((s.modSet i fun t => { t with visit := some (slot, f, lap) }).patrolReads i slot).patrolGo i

def execPatrolVisit (set : Nat) (slot : Nat) (finding : PatrolFinding) (lapEnd : Option Nat) (s : State) :
    Host.Outcome State Fault Refusal := .next (s.on (patrolEffect set slot finding lapEnd))

/-! ### Forming (09 R234) -/

/-- Leaf entries of a set cleared, and its CLEAN pages sent to eviction: all slots become free (log 163). -/
def Chip.emptySet (s : Chip) (i : Nat) : Chip :=
  let mine := (s.pgm.leaves.filter fun e => e.2.set == i && e.2.kind != 0).map (·.1)
  let s1 := mine.foldl (fun t p => if (t.page p).st == .clean then t.evictPage p else t) s
  { s1 with pgm := { s1.pgm with leaves := s1.pgm.leaves.filter fun e => !mine.contains e.1,
                                 pendLeaf := s1.pgm.pendLeaf.filter fun e => !mine.contains e.1 },
            str := { s1.str with nodes := (s1.str.nodes ++ mine.map (· / 512)).eraseDups } }

/-- A set that FORM makes the map set holds no map yet (08 R212): every node of the map area has to be written to it. -/
def Chip.emptyMap (s : Chip) : Chip :=
  { s with pgm := { s.pgm with root := true, l2 := true },
           str := { s.str with mapNodes := [], fixed := [], ckptRun := none, ckptLeft := [], ckptRec := false,
                               nodes := (s.str.nodes ++ s.pgm.leaves.map fun (e : Nat × Leaf) => e.1 / 512).eraseDups } }

/-- The configuration that FORM would apply: the value held pending, or the one in force. -/
def Chip.pendingCfg (s : Chip) (i : Nat) : SetCfg := (Tab.find s.str.pend i).getD (s.set i).cfg

/-- The ready drives of a mask, in ascending order (log 30). -/
def Chip.readyIn (s : Chip) (mask : Nat) : List Nat := (bitsOf s.nDrives mask).filter fun d => (s.drive d).ready

/-- The drives that FORM puts together: the first N ready ones of the mask (log 30). -/
def Chip.formDrives (s : Chip) (g : SetCfg) : List Nat := (s.readyIn g.mask).take g.n

/-- FORM may not run (09 R234, 14 R368): a live region names the set, or the drives are not all there. -/
def Chip.formRefused (s : Chip) (i : Nat) (g : SetCfg) : Bool :=
  s.glb.state != .active || (s.rgn.table.any fun e => e.2.live && e.2.set == i) || !g.on || (s.formDrives g).length < g.n ||
  ((s.formDrives g).any fun d => (s.holds d).any fun x => x.1 != i) || !s.logRoom || !s.drivesOn

/-- A set formed over drives (09 R234): a fresh identity, the next label generation, labels and journals written, all its
pages forgotten, and its configuration logged (log 65 and 149). -/
def Chip.formSet (s : Chip) (i : Nat) (g : SetCfg) (ds : List Nat) : Chip :=
  let d := s.draw
  let ident := BitVec.ofNat 64 (Config.trng d.1)
  let z := minOf (2 ^ 40) (ds.map fun x => (s.drive x).size)
  let old := s.set i
  let s2 := ((old.opened.toList ++ old.writing).foldl Chip.undoStripe d.2).emptySet i
  let t : StripeSet := { StripeSet.blank with
    cfg := g, ident := ident, labelGen := old.labelGen + 1, z := z, jpos := g.journal, jlive := g.journal, scanned := true,
    pos := ds.map fun x => { drive := some x, ready := true, lost := false, errors := [] },
    st := old.st, orbit := old.orbit, m := old.m, v := old.v }
  let s3 := s2.modSet i fun _ => t
  let s4 := { s3 with str := { s3.str with pend := Tab.del s3.str.pend i } }
  let s5 := ds.zipIdx.foldl (fun (u : Chip) (x : Nat × Nat) =>
    let l : Label := { setId := ident, set := i, gen := t.labelGen, layout := g.layout, n := g.n, pos := x.2, fg := g.fg.take g.n,
                       serials := ds.map fun k => (s.drive k).serial, z := z }
    ((u.modDrive x.1 fun k => { k with label := some l }).register x.1).writeLabel x.1) s4
  let s6 := s5.askLog 3 (le 1 i ++ le 3 0 ++ wordsBytes g.words ++ le 8 ident.toNat)
  let s7 := if s6.mapSet == some i then s6.emptyMap else s6
  ((s7.setState i .ready).checkSpares).setReady i

/-- STR_SET_CTL.FORM (09 R234, 14 R368). -/
def formEffect (i : Nat) (s : Chip) : Chip :=
  let i := i % 4
  let s0 := s.setPar 0x900300 i
  let c := s0.clampSet i 1 (s0.pendingCfg i)
  if s.formRefused i c.1 then s0 else c.2.formSet i c.1 (s.formDrives c.1)

def execForm (ses : Session) (set : Nat) (s : State) : Host.Outcome State Fault Refusal :=
  .next (s.on fun c => c.asRole ses 23 2 (formEffect set))

end Sys2Proof.Machine
end

