-- ==== Sys2Proof/Machine/Dram.lean ====
section
/-!
DEFINITION. DRAM channels (10): temperature and refresh, the write queue's age, the row-disturbance windows, the frequency
change and the margin helpers; the scrubber and the remap tables (11 R286 to R292).
-/
namespace Sys2Proof.Machine

/-! ### Temperature and refresh (10 R259, R268 to R271) -/

/-- Package ranks of a channel. -/
def Chip.packRanks (s : Chip) : Nat := match s.dmc.pop with
  | some p => p.dimms * p.ranks
  | none => 0

/-- The DIMM slot of a package rank of a channel. -/
def Chip.rankSlot (s : Chip) (ch r : Nat) : Nat := match s.dmc.pop with
  | some p => (s.chan ch).slots.getD (r / Nat.max 1 p.ranks) 0
  | none => 0

/-- Several REFab commands to a rank. -/
def Chip.refabs (s : Chip) (ch r : Nat) : Nat → Chip
  | 0 => s
  | n + 1 => (s.refab ch r).refabs ch r n

/-- A rank enters doubled refresh: a debt above the new limit is caught up at once (10 R270). -/
def Chip.enterDoubled (s : Chip) (ch r : Nat) : Chip :=
  let s1 := s.modChan ch fun k => { k with doubled := setBit k.doubled r true }
  let debt := Tab.get (s.chan ch).debt 0 r
  if 4 * 1950 < debt then
    ((s1.refabs ch r (debt / 1950)).count (0xA00018 + 0x10000 * ch)).raise 0x0A ch 4 1 0 (le 1 r ++ le 4 debt)
  else s1

/-- A rank's refresh rate judged (10 R268). -/
def Chip.judgeRefresh (s : Chip) (ch r : Nat) : Chip :=
  let k := s.chan ch
  let hi := (s.par 0xAE0008 : Int)
  let t := (k.temps.filter fun (e : Nat × Int) => e.1 == s.rankSlot ch r).map (·.2)
  if bit k.mr4 r || t.any fun x => hi ≤ x then (if bit k.doubled r then s else s.enterDoubled ch r)
  else if t.all fun x => x < hi - 2 then s.modChan ch fun k => { k with doubled := setBit k.doubled r false }
  else s

/-- Every rank of a channel judged. -/
def Chip.judgeRanks (s : Chip) (ch : Nat) : Chip := (List.range s.packRanks).foldl (fun t r => t.judgeRefresh ch r) s

/-- A channel that answers: trained, its domain powered. -/
def Chip.chanOn (s : Chip) (ch : Nat) : Bool := ch < s.nChans && (s.chan ch).used && s.domainOn (16 + ch / 3)

/-- A hub temperature reading of a DIMM, of an excluded channel too (10 R259). -/
def Chip.hubReading (s : Chip) (ch slot : Nat) (c : Int) : Chip :=
  if s.nChans ≤ ch || !s.domainOn (16 + ch / 3) then s
  else
    let s1 := s.modChan ch fun k => { k with temps := (slot, c) :: k.temps.filter fun (e : Nat × Int) => e.1 != slot }
    let s2 := if (s.par 0xAE000C : Int) ≤ c then s1.raise 0x0A ch 3 2 1 (le 1 slot ++ le 1 c.toNat) else s1
    if s2.chanOn ch then s2.judgeRanks ch else s2

def execDimmTempPoll (readings : List (Nat × Nat × Int)) (s : State) : Host.Outcome State Fault Refusal :=
  .next (s.on fun c => readings.foldl (fun t x => t.hubReading x.1 x.2.1 x.2.2) c)

/-- MR4 of every rank read (10 R268): `doubled` lists the channels and ranks that report a rate of 2× or higher. -/
def mr4Effect (doubled : List (Nat × Nat)) (s : Chip) : Chip :=
  ((List.range s.nChans).filter s.chanOn).foldl (fun t ch =>
    let m := doubled.foldl (fun m x => if x.1 == ch then setBit m x.2 true else m) 0
    (t.modChan ch fun k => { k with mr4 := m }).judgeRanks ch) s

def execMr4Poll (doubled : List (Nat × Nat)) (s : State) : Host.Outcome State Fault Refusal := .next (s.on (mr4Effect doubled))

/-- A rank's refresh debt set. -/
def Chip.setDebt (s : Chip) (ch r n : Nat) : Chip := s.modChan ch fun k => { k with debt := Tab.set k.debt 0 r n }

/-- A rank's refresh is judged after some ns (10 R269): a due one waits for class 1, and, below twice tREFI, for the next 8
requests to hold none for the rank; at the limit nothing holds it up. -/
def refreshDueEffect (ch r elapsed : Nat) (s : Chip) : Chip :=
  let k := s.chan ch
  if !s.chanOn ch || s.packRanks ≤ r || k.selfRef then s
  else
    let i := k.trefi r
    let debt := Tab.get k.debt 0 r + elapsed
    let force := 4 * i ≤ debt
    let go := force || (i ≤ debt && !s.class1Waits ch r && (2 * i ≤ debt || !s.soonFor ch r))
    let s1 := s.setDebt ch r debt
    let s2 := if go then s1.refab ch r else s1
    if force then s2.count (0xA00014 + 0x10000 * ch) else s2

def execRefreshDue (ch : Nat) (rank : Nat) (elapsed : Nat) (s : State) : Host.Outcome State Fault Refusal :=
  .next (s.on (refreshDueEffect ch rank elapsed))

/-- A rank's debt has reached the limit: one REFab preempts all traffic (10 R269). -/
def refreshForcedEffect (ch r : Nat) (s : Chip) : Chip :=
  let k := s.chan ch
  if !s.chanOn ch || s.packRanks ≤ r || k.selfRef then s
  else
    let debt := Nat.max (4 * k.trefi r) (Tab.get k.debt 0 r)
    ((s.setDebt ch r debt).refab ch r).count (0xA00014 + 0x10000 * ch)

def execRefreshForced (ch : Nat) (rank : Nat) (s : State) : Host.Outcome State Fault Refusal :=
  .next (s.on (refreshForcedEffect ch rank))

/-! ### The write queue and the row-disturbance windows (10 R263, R272, R273) -/

/-- The oldest write of a channel is 2 µs old: a batch (10 R263). -/
def writeQueueAgeEffect (ch : Nat) (s : Chip) : Chip :=
  if !s.chanOn ch || (s.chan ch).stopped then s else s.writeBatch ch (if s.readWaiting ch then 16 else 0)

def execWriteQueueAgeExpiry (ch : Nat) (s : State) : Host.Outcome State Fault Refusal := .next (s.on (writeQueueAgeEffect ch))

/-- Throttles of a channel that are over end: their held requests are admitted (log 76). -/
def Chip.endThrottles (s : Chip) (ch : Nat) : Chip :=
  let past := (s.chan ch).throttles.filter fun t => t.minOver && t.windowOver
  let s1 := s.modChan ch fun k => { k with throttles := k.throttles.filter fun t => !(t.minOver && t.windowOver) }
  past.foldl (fun u t => t.held.foldl Chip.enqueue u) s1

/-- A window of DMC_RD_WINDOW ends (10 R272): every tracker is cleared, and throttles past their 1 ms end. -/
def rdWindowEffect (s : Chip) : Chip :=
  ((List.range s.nChans).filter s.chanOn).foldl (fun t ch =>
    (t.modChan ch fun k => { k with trackers := [], throttles := k.throttles.map fun x => { x with windowOver := true } }).endThrottles ch) s

def execRdWindowEnd (s : State) : Host.Outcome State Fault Refusal := .next (s.on rdWindowEffect)

/-- The 1 ms of a throttle has passed (10 R273). -/
def rdMinEffect (ch c bank : Nat) (s : Chip) : Chip :=
  (s.modChan ch fun k => { k with throttles := k.throttles.map fun x =>
    if x.conn == c && x.bank == bank then { x with minOver := true } else x }).endThrottles ch

def execRdThrottleMinExpiry (ch : Nat) (c : Nat) (bank : Nat) (s : State) : Host.Outcome State Fault Refusal :=
  .next (s.on (rdMinEffect ch c bank))

/-- DMC_RD_SPACING has passed: one held request of a throttle is admitted, and what waits behind its line (10 R273). -/
def rdSpacingEffect (ch c bank : Nat) (s : Chip) : Chip :=
  match (s.chan ch).throttles.find? fun t => t.conn == c && t.bank == bank with
  | some t =>
    (t.next).foldl Chip.enqueue (s.modChan ch fun k => { k with throttles := k.throttles.map fun x =>
      if x.conn == c && x.bank == bank then { x with held := x.held.filter fun r => !t.next.contains r } else x })
  | none => s

def execRdSpacingExpiry (ch : Nat) (c : Nat) (bank : Nat) (s : State) : Host.Outcome State Fault Refusal :=
  .next (s.on (rdSpacingEffect ch c bank))

/-! ### Frequency change (10 R271, R274, R275) -/

/-- The highest speed code of a population (10 Table 10-2). -/
def popSpeed (p : Population) : Nat := if p.dimms ≤ 1 then 2 else if p.stack ≤ 1 then 1 else 0

/-- The highest speed code R258 allows for the channels in use (log 104). -/
def Chip.speedLimit (s : Chip) : Nat :=
  let p := match s.dmc.pop with
    | some p => popSpeed p
    | none => 2
  Nat.min p (minOf 2 (s.dmc.map.map fun n => (s.chan n).spd))

/-- A channel drains, pays its debt and enters self-refresh (10 R271, Table 10-5 steps 1 and 2; log 160). -/
def Chip.stopChannel (s : Chip) (n : Nat) : Chip :=
  let s1 := s.writeBatch n 0
  let s2 := (List.range s.packRanks).foldl (fun t r =>
    t.refabs n r (Tab.get (t.chan n).debt 0 r / (t.chan n).trefi r)) s1
  s2.modChan n fun k => { k with stopped := true, selfRef := true, debt := [] }

/-- A lane whose read and write eyes are both as wide as DMC_TRAIN_MIN_UI (10 R266). -/
def Chip.lanePasses (s : Chip) (l : LaneEye) : Bool := s.par 0xAE0004 ≤ l.rdEye && s.par 0xAE0004 ≤ l.wrEye

/-- The timing set of a channel that is not active replaced (10 R274). -/
def Channel.setIdle (k : Channel) (t : TimingSet) : Channel := if k.setB then { k with setA := t } else { k with setOther := t }

/-- The inactive set of every channel in use filled for a speed, before anything is centred for it (10 R274). -/
def Chip.fillIdle (s : Chip) (speed : Nat) : Chip :=
  s.dmc.map.foldl (fun t n => t.modChan n fun k => k.setIdle { speed, ranks := [] }) s

/-- GO of DMC_FREQ_CTL (10 R274): the target is clamped, and the channels in use change one at a time. -/
def frequencyEffect (target : Nat) (s : Chip) : Chip :=
  if s.dmc.freqBusy || s.dmc.map.isEmpty || (s.glb.state != .active && s.glb.state != .umbra) then s
  else
    let given := target % 4
    let v := Nat.min given s.speedLimit
    let s1 := if v == given then s else s.clamped (regField 0xAE0020 0) given v 1
    let s2 := { ((s1.setPar 0xAE0020 v).fillIdle v) with dmc := { (s1.fillIdle v).dmc with
      freqBusy := true, freqResult := 0, freqTarget := v, freqChan := 0, freqStop := false } }
    s2.stopChannel (s.dmc.map.headD 0)

def execFrequencyChange (ses : Session) (target : Nat) (s : State) : Host.Outcome State Fault Refusal :=
  .next (s.on fun c => c.asRole ses 23 2 (frequencyEffect target))

/-- A channel leaves self-refresh and admits what waited (10 R271, Table 10-5 step 5). -/
def Chip.resumeChannel (s : Chip) (n : Nat) : Chip :=
  Chip.admitAll (s.chan n).inq.length (s.modChan n fun k => { k with stopped := false, selfRef := false, debt := [] }) n

/-- The change of one channel ends with what re-centring found (10 Table 10-5, R275): well, or, where a lane is below
DMC_TRAIN_MIN_UI, back at the previous set. -/
def channelFrequencyEffect (ranks : List (List LaneEye)) (s : Chip) : Chip :=
  if !s.dmc.freqBusy then s
  else
    let n := s.dmc.map.getD s.dmc.freqChan 0
    let bad := ranks.findSome? fun r => r.findIdx? fun l => !s.lanePasses l
    let ok := bad.isNone
    let lane := bad.getD 0
    let s0 := if ok then s.modChan n fun k =>
      { k.setIdle { speed := s.dmc.freqTarget, ranks } with setB := !k.setB, speed := s.dmc.freqTarget, pattern := none } else s
    let s1 := s0.resumeChannel n
    if !ok then
      ({ s1 with dmc := { s1.dmc with freqBusy := false, freqResult := 1 } }).raise 0x0A n 6 2 0 (le 1 lane ++ le 1 1)
    else if s.dmc.freqStop then { s1 with dmc := { s1.dmc with freqBusy := false, freqResult := 2 } }
    else if s.dmc.map.length ≤ s.dmc.freqChan + 1 then { s1 with dmc := { s1.dmc with freqBusy := false, freqResult := 0 } }
    else
      ({ s1 with dmc := { s1.dmc with freqChan := s.dmc.freqChan + 1 } }).stopChannel (s.dmc.map.getD (s.dmc.freqChan + 1) 0)

def execChannelFrequencyDone (ranks : List (List LaneEye)) (s : State) : Host.Outcome State Fault Refusal :=
  .next (s.on (channelFrequencyEffect ranks))

/-! ### Margin helpers (10 R267, Table 10-4) -/

/-- What a helper writes to the arrays (10 R267): all but READ_PROBE write the pattern chosen over the reserved rows, PATTERN_FULL over
the whole channel. -/
def Chip.writePattern (s : Chip) (ch helper : Nat) : Chip :=
  let sel := s.par 0xAE0024
  let user := if sel == 2 then (List.range 16).map fun i => s.par (0xA00300 + 0x10000 * ch + 4 * i) else []
  let s1 := if helper == 0 then s else s.modChan ch fun k => { k with pattern := some (sel, user) }
  if helper == 2 then s1.modChan ch fun k => { k with bad := [], rewrite := none } else s1

/-- GO of DMC_MARGIN_CTL for a helper (0 READ_PROBE to 4 CA_SWEEP): outside its states or roles it ends REFUSED, as a code that
Table 10-4 does not list. -/
def marginEffect (helper role : Nat) (m : MarginReq) (s : Chip) : Chip :=
  if (s.chan m.ch).mgBusy then s
  else
    let st := s.glb.state == .maintenance || (helper == 0 && (s.glb.state == .active || s.glb.state == .umbra))
    let need := if helper == 2 || helper == 4 then 3 else 2
    let s1 := s.setPar (0xA00080 + 0x10000 * m.ch) (helper + m.lane % 16 * 16 + m.rank % 16 * 256)
    if st && need ≤ role && helper ≤ 4 then
      (s1.writePattern m.ch helper).modChan m.ch fun k => { k with mgBusy := true, mgHelper := helper, mgResult := 0 }
    else s1.modChan m.ch fun k => { k with mgHelper := helper, mgResult := 1 }

/-- A margin command of a session, whatever its role (10 R267). -/
def marginCommand (helper : Nat) (ses : Session) (m : MarginReq) (s : Chip) : Chip :=
  if s.nChans ≤ m.ch then s else s.asRole ses (16 + m.ch / 3) 0 (marginEffect helper (s.ses ses).role m)

def execReadProbe (ses : Session) (m : MarginReq) (s : State) : Host.Outcome State Fault Refusal :=
  .next (s.on (marginCommand 0 ses m))
def execPattern (ses : Session) (m : MarginReq) (s : State) : Host.Outcome State Fault Refusal :=
  .next (s.on (marginCommand 1 ses m))
def execPatternFull (ses : Session) (m : MarginReq) (s : State) : Host.Outcome State Fault Refusal :=
  .next (s.on (marginCommand 2 ses m))
def execEyeSweep (ses : Session) (m : MarginReq) (s : State) : Host.Outcome State Fault Refusal :=
  .next (s.on (marginCommand 3 ses m))
def execCaSweep (ses : Session) (m : MarginReq) (s : State) : Host.Outcome State Fault Refusal :=
  .next (s.on (marginCommand 4 ses m))

/-- A helper ends: the channel is back at its trained settings (10 R267). -/
def marginDoneEffect (ch : Nat) (r : MarginResult) (s : Chip) : Chip :=
  if (s.chan ch).mgBusy then
    s.modChan ch fun k => { k with
      mgBusy := false, mgResult := 0, mgWidth := r.width, mgHeight := r.height, mgErrors := r.errors, mgMap := r.map.take 64 }
  else s

def execMarginHelperDone (ch : Nat) (r : MarginResult) (s : State) : Host.Outcome State Fault Refusal :=
  .next (s.on (marginDoneEffect ch r))

/-- Every running helper ended by step E1 of Eclipse: ABORTED. -/
def Chip.abortHelpers (s : Chip) : Chip :=
  (List.range s.nChans).foldl (fun t n =>
    if (t.chan n).mgBusy then t.modChan n fun k => { k with mgBusy := false, mgResult := 2 } else t) s

/-! ### The scrubber (11 R286 to R288) and the remap tables (R292) -/

/-- The page that a frame holds: one whose fetch has merged. -/
def Chip.pageInFrame (s : Chip) (f : Nat) : Option Nat :=
  (s.pgm.pages.find? fun e => e.2.frame == some f && e.2.st != .fetching).map (·.1)

/-- The rewrite of a corrected line, or of an uncorrectable one in a free frame, owed by the scrubber. -/
def Chip.owesRewrite (s : Chip) (ch fl : Nat) : Chip := s.modChan ch fun k => { k with rewrite := some fl }

/-- A burst of a line that no page holds, read and classified (11 R279), with its counters (R280). -/
def Chip.freeBurst (s : Chip) (ch fl : Nat) (errs : List (Nat × Byte)) : Burst × Chip :=
  let e := s.burstOf fl errs
  let c := classify s.x8 false e
  let t := s.staysBad fl e
  let fixed := correction s.x8 false e
  let poison (u : Chip) : Chip := u.count (0xB00100 + 4 * ch)
  (c, match c with
    | .good => t
    | .corrected => t.correctedAt fl fixed
    | .poison => poison t
    | .poisonCorrected => poison (t.correctedAt fl fixed)
    | .uncorrectable => t.count (0xB000C0 + 4 * ch))

/-- The map node at a byte offset of the map area, by level and index (log 191). -/
def Chip.nodeAt (s : Chip) (off : Nat) : Nat × Nat :=
  let leaves := ceilDiv s.pgm.space 512
  let l1 := ceilDiv s.pgm.space 262144
  let k := (off - leaves * 6144) / 4096
  if off < leaves * 6144 then (0, off / 6144)
  else if k < l1 then (1, k)
  else if k < l1 + ceilDiv s.pgm.space 134217728 then (2, k - l1)
  else (3, 0)

/-- A map node is in the map area, read there from the drives. -/
def Chip.nodeLoaded (s : Chip) (level idx : Nat) : Bool :=
  if level == 0 then s.pgm.lnodes.contains idx else if level == 1 then s.pgm.l1s.contains idx
  else if level == 2 then s.pgm.l2s.contains idx else s.pgm.root

/-- A map node has been modified since it was loaded: the running checkpoint, or the next one, is to write it. -/
def Chip.nodeModified (s : Chip) (level idx : Nat) : Bool :=
  if level == 3 then !(s.str.nodes.isEmpty && s.str.fixed.isEmpty)
  else s.str.nodes.contains (nodeKey level idx) || s.str.fixed.any (·.1 == nodeKey level idx)

/-- An unmodified map node leaves the map area and is read from the drives again (08 R214). -/
def Chip.reloadNode (s : Chip) (level idx : Nat) : Chip :=
  let p := s.pgm
  let s1 : Chip := { s with pgm := if level == 0 then { p with lnodes := p.lnodes.erase idx } else if level == 1 then { p with l1s := p.l1s.erase idx }
    else if level == 2 then { p with l2s := p.l2s.erase idx } else { p with root := false } }
  s1.readNode level idx 3

/-- An uncorrectable line of an internal area, at a byte offset of it (11 R285; log 191): a node that nothing has modified is read
again; a modified one, a frame descriptor or a delta line in use is a fault of the channel's region; what holds nothing is
cleared. -/
def Chip.areaLost (s : Chip) (ch fl area off : Nat) : Chip :=
  let n := s.nodeAt off
  if area == 0 then
    if !s.nodeLoaded n.1 n.2 then s.owesRewrite ch fl
    else if s.nodeModified n.1 n.2 then s.fenceRegion (ch / 3) 2
    else (s.modChan ch fun k => { k with bad := Tab.del k.bad fl }).reloadNode n.1 n.2
  else if area == 1 then s.fenceRegion (ch / 3) 2
  else if area == 2 then (if off / 128 < s.deltaUsed then s.fenceRegion (ch / 3) 2 else s.owesRewrite ch fl)
  else if s.syz.role == .umbra then s
  else s.owesRewrite ch fl

/-- A scrub read of a frame line: counted, and its line to be rewritten, repaired, or, in a free frame, cleared. One that meets an
uncorrectable line while its bank holds 8 repairs waits (none; 11 R282). -/
def Chip.scrub (s : Chip) (ch fl : Nat) (errs : List (Nat × Byte)) : Option Chip :=
  let s1 := s.enqueue { cls := 5, fl, tag := .mei, write := false, awaited := false, sweep := false }
  let held := s.heldLine ch fl
  match s.pageInFrame (held / 1024) with
  | some p =>
    let line := p * 1024 + held % 1024
    let r := s1.readBurst line errs
    match r.1 with
    | .uncorrectable => if s.repairRoom (s.bankOf line) line then some (r.2.startRepair (s.bankOf line) line) else none
    | .corrected => some (r.2.owesRewrite ch held)
    | _ => some r.2
  | none =>
    let r := s1.freeBurst ch held errs
    match r.1, s.areaOf held with
    | .corrected, _ => some (r.2.owesRewrite ch held)
    | .uncorrectable, some a => some (r.2.areaLost ch held a.1 a.2)
    | .uncorrectable, none => some (r.2.owesRewrite ch held)
    | _, _ => some r.2

/-- A lap ends: its duration, one warning past the target, and the lap's counts begin again. -/
def Chip.lapEnds (s : Chip) (ch : Nat) : Chip :=
  let sec := (s.now - (s.chan ch).lapAt) / 1000000000
  let s1 := s.modChan ch fun k => { k with lap := sec, lapAt := s.now, scrubAt := 0, devs := [], failing := [], celog := [] }
  if s.par 0xB00004 < sec then s1.raise 0x0B ch 3 2 0 (le 4 sec) else s1

/-- A channel is idle enough for the scrubber (10 Table 10-3, class 5): no request waits in an input class or a throttle buffer, and the
write queue is below its drain mark. -/
def Channel.scrubs (k : Channel) : Bool :=
  !k.blocked && k.inq.isEmpty && k.wq.length < 48 && k.throttles.all fun t => t.held.isEmpty

/-- The rewrite that the last scrub read owes, in the row that the read opened: a full line written, unless a write has come between
(11 R286, R287; log 133). -/
def Chip.payRewrite (s : Chip) (ch : Nat) : Chip := match (s.chan ch).rewrite with
  | some fl => s.postLine { cls := 5, fl, tag := .mei, write := true, awaited := false, sweep := false }
  | none => s

/-- A scrub read of a channel (11 R286): its next line in ascending order, which may end the lap. There is none from step E4 of
Eclipse on, while MEI_SCRUB_EN is 0, or while anything of a higher class waits. A line in the write queue is read from there. -/
def scrubEffect (ch : Nat) (errs : List (Nat × Byte)) (s : Chip) : Chip :=
  let k := s.chan ch
  if !s.chanOn ch || s.par 0xB00008 % 2 == 0 || 4 ≤ s.ecl.step || !k.scrubs then s
  else
    let fl := s.frameNo ch (k.scrubAt / 1024) * 1024 + k.scrubAt % 1024
    let s1 := s.payRewrite ch
    let queued := (s1.chan ch).wq.any (·.1 == fl)
    match s1.scrub ch fl (if queued then [] else errs) with
    | none => s1
    | some s2 =>
      let s3 := s2.modChan ch fun k => { k with scrubAt := k.scrubAt + 1 }
      if s.framesOn ch * 1024 ≤ k.scrubAt + 1 then s3.lapEnds ch else s3

def execScrubRead (ch : Nat) (errs : List (Nat × Byte)) (s : State) :
    Host.Outcome State Fault Refusal := .next (s.on (scrubEffect ch errs))

/-- MEI_REMAP_CLR (11 R292): the tables of the channels named, in MAINTENANCE only. -/
def remapClearEffect (mask : Nat) (s : Chip) : Chip :=
  if s.glb.state != .maintenance then s
  else (bitsOf s.nChans mask).foldl (fun t n =>
    (t.modChan n fun k => { k with remap := [], ueOnce := [] }).askRemap n 0xFF 2 0 0) s

def execRemapClear (ses : Session) (mask : Nat) (s : State) : Host.Outcome State Fault Refusal :=
  .next (s.on fun c => c.asRole ses 23 3 (remapClearEffect mask))

end Sys2Proof.Machine
end

