-- ==== Sys2Proof/Machine/RgnEdit.lean ====
section
/-!
DEFINITION. The region edit window (05 R130 to R137): its claim, the commands of Table 5-4, and how a change persists.
-/
namespace Sys2Proof.Machine

/-- The session holds the claim of the edit window. -/
def Chip.ownsEdit (s : Chip) : Session → Bool
  | .i2c => s.rgn.path == 1
  | .mgmt c => s.rgn.path == 2 && s.rgn.conn == c

/-- CLAIM: an unclaimed window goes to the session (05 R130). -/
def editClaimEffect (q : Session) (s : Chip) : Chip :=
  if s.rgn.path != 0 then s
  else match q with
    | .i2c => { s with rgn := { s.rgn with path := 1, conn := 0 } }
    | .mgmt c => { s with rgn := { s.rgn with path := 2, conn := c } }

def execEditClaim (ses : Session) (s : State) : Host.Outcome State Fault Refusal :=
  .next (s.on fun c => c.asRole ses 23 2 (editClaimEffect ses))

/-- RELEASE by the owner ends the claim. -/
def editReleaseEffect (q : Session) (s : Chip) : Chip :=
  if s.ownsEdit q then { s with rgn := { s.rgn with path := 0, conn := 0 } } else s

def execEditRelease (ses : Session) (s : State) : Host.Outcome State Fault Refusal :=
  .next (s.on fun c => c.asRole ses 23 2 (editReleaseEffect ses))

/-- 10 s have passed with no write to the window by its owner: the claim ends. -/
def editTimeoutEffect (s : Chip) : Chip := { s with rgn := { s.rgn with path := 0, conn := 0 } }

def execEditClaimTimeout (s : State) : Host.Outcome State Fault Refusal := .next (s.on editTimeoutEffect)

/-- A write to the window's data or command: it takes effect from the owner only (05 R130). -/
def Chip.editWrite (s : Chip) (q : Session) (f : Chip → Chip) : Chip :=
  if s.ownsEdit q then f s
  else { s with rgn := { s.rgn with foreign := Nat.min 65535 (s.rgn.foreign + 1) } }

/-- PERSISTED, once the change log holds the last edit and a standby, if there is one, has acknowledged it (05 R135). -/
def Chip.judgePersisted (s : Chip) : Chip :=
  if s.rgn.logDone && (s.rgn.jwait == 0 || s.rgn.jwait ≤ s.syz.acked || !s.journaled) then
    { s with rgn := { s.rgn with persisted := true } }
  else s

/-- A change of an entry persisted (05 R135, 12 R300): its change-log record, and its REGION entry in the journal. -/
def Chip.persistEdit (s : Chip) (idx code : Nat) (e : Region) : Chip :=
  let s1 := s.askLog 1 (le 4 idx ++ le 1 code ++ le 3 0 ++ e.bytes)
  let s2 := { s1 with rgn := { s1.rgn with persisted := false, logDone := false, logAt := s1.cfg.logSeq, jwait := 0 } }
  if s.journaled then
    let r := s2.post false 4 idx 0 (e.bytes ++ le 4 code) []
    { r.2 with rgn := { r.2.rgn with jwait := r.1 }, syz := { r.2.syz with rgnWait := r.2.syz.rgnWait ++ [(r.1, s1.cfg.logSeq)] } }
  else s2

/-- A change commits at one instant (05 R132): the new entry, the drain of the old one, its records. -/
def Chip.commitEdit (s : Chip) (idx code : Nat) (e : Region) (clamped : Bool) (key : Nat) : Chip :=
  let was := s.region idx
  let s1 := s.setRegion idx e
  let conns := s1.xpt.conns.map fun x => (x.1, { x.2 with msgs := x.2.msgs.map fun m =>
    if m.checked && m.region == idx && m.op != 0x12 && m.op != 0x20 && m.op != 0x07 then { m with old := true } else m })
  let s2 := { s1 with xpt := { s1.xpt with conns }, rgn := { s1.rgn with
    busy := true, finish := some (idx, code, b2n clamped, key) } }
  let s3 := (s2.persistEdit idx code e).drainEdit
  let s4 := if e.live && e.cls == 0 && !(was.live && was.cls == 0 && was.base == e.base && was.len == e.len) then s3.faultIn else s3
  if was.live && was.cls == 0 then s4.evict else s4

/-- The entry that RGN_EDIT_DATA gives CREATE (from a free entry) or MODIFY (from a live one), before its clamps. -/
def Chip.editedEntry (s : Chip) (old : Region) : Region :=
  let d := Region.ofBytes (wordsBytes s.rgn.data)
  { d with gen := old.gen, live := true, offTko := old.live && old.offTko, offRbld := old.live && old.offRbld }

/-- The next generation of an entry (05 R120). -/
def nextGen (g : Nat) : Nat := if g == 0xFFFF then 1 else g + 1

/-- The key of an entry (05 R119). -/
def keyOf (idx gen : Nat) : Nat := idx * 65536 + gen

/-- CREATE and MODIFY clamp the new entry and commit it. -/
def Chip.commitClamped (s : Chip) (idx code : Nat) (key : Bool) : Chip :=
  let old := s.region idx
  let c := s.clampEntry s.rgn.table idx (s.editedEntry old)
  (s.entryClamps idx 1 c.2).commitEdit idx code c.1 (!c.2.isEmpty) (if key then keyOf idx c.1.gen else 0)

/-- An edit command of the owner (05 R131): ignored while one runs; refused in the order of Table 5-5. -/
def editCommand (q : Session) (idx code : Nat) (pre : Region → Bool) (change : Bool) (run : Chip → Chip) (s : Chip) : Chip :=
  s.asRole q 23 2 fun t => t.editWrite q fun u =>
    if u.rgn.busy then ({ u with rgn := { u.rgn with overrun := true } }).count 0x300100
    else
      let v := { u with rgn := { u.rgn with cmd := idx * 65536 + code } }
      if v.glb.state != .active then v.endEdit idx code 3 0
      else if !pre (v.region idx) then v.endEdit idx code 2 0
      else if change && !v.logRoom then v.endEdit idx code 4 0
      else run v

/-- READ: the entry copied to RGN_EDIT_DATA. -/
def rgnReadEffect (idx : Nat) (s : Chip) : Chip :=
  ({ s with rgn := { s.rgn with data := bytesWords 12 (s.region idx).bytes } }).endEdit idx 1 0 0

/-- CREATE: the clamped entry committed live, its generation that of the free entry. -/
def rgnCreateEffect (idx : Nat) (s : Chip) : Chip := s.commitClamped idx 2 true

/-- MODIFY: the clamped entry committed, generation and hardware OFF bits kept. -/
def rgnModifyEffect (idx : Nat) (s : Chip) : Chip := s.commitClamped idx 3 false

/-- ROTATE: the generation incremented. -/
def rgnRotateEffect (idx : Nat) (s : Chip) : Chip :=
  let e := s.region idx
  s.commitEdit idx 4 { e with gen := nextGen e.gen } false (keyOf idx (nextGen e.gen))

/-- REMOVE: the entry free, its generation incremented. -/
def rgnRemoveEffect (idx : Nat) (s : Chip) : Chip :=
  let e := s.region idx
  s.commitEdit idx 5 { e with live := false, gen := nextGen e.gen } false 0

def execRgnRead (ses : Session) (idx : Nat) (s : State) : Host.Outcome State Fault Refusal :=
  .next (s.on (editCommand ses (idx % 65536) 1 (fun _ => true) false (rgnReadEffect (idx % 65536))))

def execRgnCreate (ses : Session) (idx : Nat) (s : State) : Host.Outcome State Fault Refusal :=
  .next (s.on (editCommand ses (idx % 65536) 2 (fun e => !e.live) true (rgnCreateEffect (idx % 65536))))

def execRgnModify (ses : Session) (idx : Nat) (s : State) : Host.Outcome State Fault Refusal :=
  .next (s.on (editCommand ses (idx % 65536) 3 (fun e => e.live) true (rgnModifyEffect (idx % 65536))))

def execRgnRotate (ses : Session) (idx : Nat) (s : State) : Host.Outcome State Fault Refusal :=
  .next (s.on (editCommand ses (idx % 65536) 4 (fun e => e.live) true (rgnRotateEffect (idx % 65536))))

def execRgnRemove (ses : Session) (idx : Nat) (s : State) : Host.Outcome State Fault Refusal :=
  .next (s.on (editCommand ses (idx % 65536) 5 (fun e => e.live) true (rgnRemoveEffect (idx % 65536))))

/-- A nonzero CODE that Table 5-4 does not define ends at once (05 R131). -/
def refusedCommandEffect (q : Session) (idx code : Nat) (s : Chip) : Chip :=
  if code % 16 ≤ 5 then s
  else
    s.asRole q 23 2 fun t => t.editWrite q fun u =>
      if u.rgn.busy then ({ u with rgn := { u.rgn with overrun := true } }).count 0x300100
      else ({ u with rgn := { u.rgn with cmd := idx % 65536 * 65536 + code % 16 } }).endEdit (idx % 65536) (code % 16) 5 0

def execRefusedCommand (ses : Session) (idx : Nat) (code : Nat) (s : State) : Host.Outcome State Fault Refusal :=
  .next (s.on (refusedCommandEffect ses idx code))

/-- A one-second interval of R137 ends: the first refusal of each cause is recorded again. -/
def checkIntervalEffect (s : Chip) : Chip :=
  let conns := s.xpt.conns.map fun e => (e.1, { e.2 with causes := 0 })
  { s with xpt := { s.xpt with conns }, rgn := { s.rgn with second := s.rgn.second + 1 } }

def execCheckEventIntervalEnd (s : State) : Host.Outcome State Fault Refusal := .next (s.on checkIntervalEffect)

end Sys2Proof.Machine
end

