-- ==== Sys2Proof/Machine/Service.lean ====
section
/-!
DEFINITION. The end of a start (14 R352 to R355), shared by its phases and the twin: the role decided, S6 and S7, the
entry to ACTIVE or UMBRA, and what a unit that serves announces.
-/
namespace Sys2Proof.Machine

/-- A phase of the start entered, with its time in µs (14 R352). -/
def Chip.enterPhase (s : Chip) (n : Nat) : Chip :=
  { s with cfg := { s.cfg with phase := n, times := setAt s.cfg.times n ((s.now - s.cfg.t0) / 1000) } }

/-- The advertisements of a service address on one logical port (03 R56). -/
def Chip.announcePort (s : Chip) (p : Nat) : Chip :=
  let a := s.portAddr p
  let tag := s.ipTag p 3
  if s.hostOn && s.hpx.service && s.portUp p then
    (s.send p (.neighborAdv p tag a.v6 false)).send p (.arpReply p tag a.v4 true)
  else s

/-- The MLDv2 report for the solicited-node group of a port's service address (03 Table 3-2). -/
def Chip.reportPort (s : Chip) (p : Nat) : Chip :=
  if s.hostOn && s.hpx.service && s.portUp p then s.send p (.mldReport p (s.ipTag p 3) (s.portAddr p).v6) else s

/-- The service addresses assumed, and reported and advertised on each logical port that is up (14 Table 14-3 S6). -/
def Chip.announce (s : Chip) : Chip :=
  (bitsOf 16 s.hpx.up).foldl (fun t p => (t.reportPort p).announcePort p) { s with hpx := { s.hpx with service := true } }

/-- The device epoch incremented and persisted (14 Table 14-3 S6, 12 Table 12-7 step 5). -/
def Chip.raiseEpoch (s : Chip) : Chip :=
  let s1 := { s with glb := { s.glb with epoch := (s.glb.epoch + 1) % 2 ^ 32 } }
  s1.askPower (Nat.max s1.evr.mark s1.evr.asked)

/-- Ready drives that hold a position of a configured set. -/
def Chip.memberDrives (s : Chip) : List Nat :=
  (List.range s.nDrives).filter fun d => (s.drive d).ready && (s.holds d).any fun x => (s.set x.1).cfg.on

/-- ACTIVE entered (00 R8; 16 R390): the notice period begins, a mark is persisted, reservations are acquired, and what
waited for the drives goes on; PINNED fault-in waits for a replay (12 Table 12-7 step 8). -/
def Chip.enterActive (s : Chip) (took : Bool) : Chip :=
  let s1 := s.enter .active
  let s2 := { s1 with glb := { s1.glb with activeAt := some s1.now, activeSeq := s1.evr.head, tookOver := took } }
  let s3 := ({ s2 with evr := { s2.evr with asked := s2.evr.head } }).askPower s2.evr.head
  let s4 := ((((s3.memberDrives.foldl Chip.register s3).startScans).loadMap).issueFetches)
  if s4.syz.replaying then s4 else s4.faultIn

/-- The gate of R354: every enabled port is up, or the wait has passed and one is; an event names the ports that are not. -/
def Chip.tryActive (s : Chip) : Chip :=
  let down := s.hpx.enabled - (s.hpx.enabled &&& s.hpx.up)
  if s.glb.state != .start || !s.cfg.begun || s.syz.role != .active || s.cfg.phase != 7 then s
  else if down == 0 then s.enterActive false
  else if s.cfg.gateOpen && s.hpx.up != 0 then (s.raise 1 0xFFFF 2 2 0 (le 2 down)).enterActive false
  else s

/-- A ROLE JOIN sent, with the JOURNAL_ACK that carries its credit (12 R298): what an earlier join left is discarded. One that a partner in
TAKEOVER or FAULT cannot accept yet is due again once it is ACTIVE (R314; log 193). -/
def Chip.sendJoin (s : Chip) : Chip :=
  let s1 := { s with syz := { s.syz with
    join := if s.syz.join == 3 then 2 else 0, refuse := 0, caughtUp := false, copy := some [], ring := [], ringAt := 0,
    pos := Nat.max s.syz.pos s.syz.accepted, accepted := 0, release := 0, mirror := [], mclean := [], mpages := [], eclSeen := false } }
  (s1.sendRole 2 0 0).sendJournalAck

/-- A unit in UMBRA sends the JOIN that is due (log 83). -/
def Chip.tryJoin (s : Chip) : Chip := if (s.syz.join == 1 || s.syz.join == 3) && s.glb.state == .umbra then s.sendJoin else s

/-- UMBRA entered (12 R313, 14 Table 14-3): the drives are registered with, the host ports serve nothing, and are held in
reset where SYZ_UMBRA_HOSTLINK says so. -/
def Chip.enterUmbra (s : Chip) : Chip :=
  let s1 := (s.enter .umbra).memberDrives.foldl Chip.register (s.enter .umbra)
  let s2 := { s1 with hpx := { s1.hpx with service := false } }
  let s3 := if s.par 0xC00134 == 0 then ({ s2 with hpx := { s2.hpx with up := 0 } }).gate [20] true else s2
  s3.tryJoin

/-! ### The start of a takeover (12 R308, R309) -/

/-- OFF_TKO set on every live journaled region, or cleared on every one that has it (12 Table 12-7). -/
def Chip.setOffTko (s : Chip) (b : Bool) : Chip :=
  { s with rgn := { s.rgn with table := s.rgn.table.map fun e =>
      (e.1, { e.2 with offTko := b && e.2.live && e.2.pair && !e.2.mirror }) } }

/-- A copy of the newest reliable frame on every other up link (12 Table 12-7 step 2). -/
def Chip.everyLink (s : Chip) : Chip := match s.syz.held.getLast? with
  | some f => ((bitsOf 4 s.syz.links).filter (· != f.link)).foldl (fun t l =>
      if t.syzOn f.op then t.emit (.syz l f.retry f.seq f.op f.es f.body (t.syzBytes f)) else t) s
  | none => s

/-- The region table as the ring gives it: its REGION entries are in place before any key is checked (12 R301, R310). -/
def Chip.ringRegions (s : Chip) : Chip :=
  (s.syz.ring.filter fun e => e.kind == 4 && s.syz.release < e.pos).foldl (fun t e => t.setRegion (e.addr % 65536) (Region.ofBytes e.data)) s

/-- Takeover starts on a trigger of R309, by its row (12 Table 12-7 steps 1 and 2, R308). SYZ has decided the unit's role, so
commands go to the drives again (09 R231). -/
def Chip.takeover (s : Chip) (trigger : Nat) : Chip :=
  let s0 := (s.ringRegions.enter .takeover).powerUp [20]
  let s1 := { s0 with str := { s0.str with conflict := false } }
  let s2 := { s1 with
    syz := { s1.syz with trigger := trigger, step := 2, preempted := 0, preDone := false, sealDone := false, replaying := true,
                         caughtUp := false, join := 0, fenceOut := true, copy := none, eclSeen := false,
                         tkoDue := false },
    glb := { s1.glb with sealFound := false }, cfg := { s1.cfg with roleDone := true } }
  let s3 := ((s2.setOffTko true).sendRole 4 0 0).everyLink
  s3.memberDrives.foldl Chip.preempt s3

/-- S6 and S7, once S4 has ended and the role is decided (14 Table 14-3), or the takeover that R314 gives a starting unit. -/
def Chip.trySix (s : Chip) : Chip :=
  if s.glb.state != .start || !s.cfg.begun || !s.cfg.dramDone || !s.cfg.roleDone || 6 ≤ s.cfg.phase then s
  else if s.syz.tkoDue then s.takeover 5
  else if s.syz.role == .active then
    let s1 := ((s.enterPhase 6).raiseEpoch).announce
    let s2 := s1.memberDrives.foldl Chip.register s1
    ((((s2.enterPhase 7).startScans).loadMap).issueFetches).tryActive
  else if s.syz.role == .umbra then ((s.enterPhase 6).enterPhase 7).enterUmbra
  else s

/-- A role decided (12 R314), with its record; an active's journal positions begin past every position seen (R300). -/
def Chip.decideRole (s : Chip) (r : TwinRole) (join : Nat) : Chip :=
  let y := s.syz
  let pos := if r = TwinRole.active then Nat.max y.pos y.accepted + (2 ^ 32 - 1) else y.pos
  let s1 := { s with
    syz := { y with role := r, join := join, pos := pos, release := if r = TwinRole.active then pos else y.release,
                    ring := if r = TwinRole.active then [] else y.ring },
    cfg := { s.cfg with roleDone := true }, str := { s.str with conflict := false } }
  (s1.raise 0x0C 0xFFFF 4 1 0 [BitVec.ofNat 8 r.code, 0]).trySix

end Sys2Proof.Machine
end

