-- ==== Sys2Proof/Machine/Twin.lean ====
section
/-!
DEFINITION. The twin (12): frames of the Syzygy link at each unit, the pair states of the active, the standby's ring and
mirror, the role at a start, and takeover.
-/
namespace Sys2Proof.Machine

/-! ### Frames that arrive (12 R296 to R298) -/

/-- A Syzygy frame reaches the engine: its link is up, D21 powered, and the unit not in MAINTENANCE (14 R364). -/
def Chip.syzTakes (s : Chip) (h : SyzHead) : Bool :=
  s.domainOn 21 && s.glb.state != .maintenance && s.glb.state != .off && bit s.syz.links h.link

/-- The sender is another unit than the partner learnt in ROLE START (12 R296). -/
def Chip.foreign (s : Chip) (h : SyzHead) : Bool := match s.syz.partner with
  | some w => h.sender.toNat != w.toNat % 2 ^ 32
  | none => false

/-- A frame received ahead of the cumulative link sequence is kept until its turn; the first frame of all begins the sequence. -/
def Syz.hold (y : Syz) (q : Nat) (m : SyzMsg) : Syz :=
  if y.rxKnown then { y with rxHeld := y.rxHeld ++ [(q, m)] }
  else { y with rxKnown := true, rxSeq := psnAdd q (2 ^ 32 - 1), rxHeld := [(q, m)] }

/-- A frame that is not reliable. -/
def Chip.recvLoose (s : Chip) (h : SyzHead) (f : Chip → Chip) : Chip :=
  if !s.syzTakes h then s else if s.foreign h then s.discard (16 + h.link) 15 else f s

/-! ### The active's side -/

/-- No response or FLUSH waits for the twin any more. -/
def Chip.resetHolds (s : Chip) : Chip :=
  let conns := s.xpt.conns.map fun e => (e.1, { e.2 with
    msgs := e.2.msgs.map fun m => { m with held := 0, holds := 0, owed := 0, pos := 0 },
    covered := e.2.covered.map fun v => { v with pos := 0, owed := 0 } })
  { s with xpt := { s.xpt with conns } }

/-- The frames held for a partner, or that wait for its credit, given up with their cells. -/
def Chip.dropFrames (s : Chip) (all : Bool) : Chip :=
  let gone := (s.syz.queue.filter fun f => all || f.entries) ++ (if all then s.syz.held else [])
  let s1 := { s with syz := { s.syz with
    queue := if all then [] else s.syz.control, held := if all then [] else s.syz.held, credit := none,
    tags := if all then s.syz.tags.filter (·.answer.isSome) else s.syz.tags } }
  (gone.flatMap (·.chains)).foldl Chip.syzFree s1

/-- The active goes on without a standby (12 Table 12-1, 02 R47): holds are released. -/
def Chip.dropTwin (s : Chip) (p : PairState) (all : Bool) : Chip :=
  let s1 := ((s.setPair p).dropFrames all).resetHolds
  let s2 := { s1 with syz := { s1.syz with entries := [], mirrorLeft := [], acked := s1.syz.pos } }
  (((((s2.serveQueues).finishAll).flushAll).raiseFlash).judgePersisted).levels

/-- SOLO entered: subscribers are told (12 Table 12-1). -/
def Chip.goSolo (s : Chip) : Chip :=
  let s1 := s.setPair .solo
  (s1.notifySubs 4 0 s1.evr.head).dropTwin .solo true

/-- The active loses its partner (12 Table 12-1): heartbeat loss, or TWIN_FENCE_IN asserted. -/
def Chip.partnerLost (s : Chip) : Chip :=
  if s.syz.pair == .paired then (s.setPair .inDoubt).goOnAll
  else if s.syz.pair == .catchingUp then s.dropTwin .noTwin true
  else s

/-- Flagged pages of twin-mirror regions (12 R305). -/
def Chip.flagged (s : Chip) : List Nat :=
  ((s.rgn.table.filter fun e => e.2.live && e.2.mirror).flatMap fun e => rangeFrom e.2.base e.2.len).eraseDups

/-- A resident page sent to the mirror as eight DATA entries, which touch it where it is charged (12 R302, R305); its last position. -/
def Chip.copyPage (s : Chip) (p : Nat) : Nat × Chip :=
  (List.range 8).foldl (fun acc i =>
    let a := p * 65536 + i * 8192
    let r := acc.2.post true 1 a 0 (Memory.readN 0 s.pgm.frames a 8192) []
    (r.1, if (s.page p).charged then r.2.touchPos r.1 a 8192 else r.2)) (s.syz.pos, s.sweepPage p 4 .syz false)

/-- The mirror copy carried on: acknowledged pages leave, resident ones are sent, others fetched (12 R305). -/
def Chip.stepMirror (s : Chip) : Chip :=
  if s.syz.pair != .catchingUp then s
  else
    let left := s.syz.mirrorLeft.filter fun e => e.2 == 0 || s.syz.acked < e.2
    let r := left.foldl (fun (acc : List (Nat × Nat) × Chip) e =>
      if e.2 != 0 then (acc.1 ++ [e], acc.2)
      else if (acc.2.page e.1).resident then
        let c := acc.2.copyPage e.1
        (acc.1 ++ [(e.1, c.1)], c.2)
      else (acc.1 ++ [e], acc.2.queueFetch e.1 6)) (([] : List (Nat × Nat)), s)
    { r.2 with syz := { r.2.syz with mirrorLeft := r.1 } }

/-- Frames of the standby's JOURNAL_ACK: those it covers leave, with their cells. -/
def Chip.covered (s : Chip) (cum : Nat) : Chip :=
  let done := s.syz.held.filter fun f => notAfter f.seq cum
  let held := s.syz.held.filter fun f => !notAfter f.seq cum
  let s1 := { s with syz := { s.syz with held, eclSent := s.syz.eclSent && (s.syz.queue ++ held).any fun f => f.op == 0x46 && f.body.head? == some 2 } }
  (done.flatMap (·.chains)).foldl Chip.syzFree s1

/-- A position acknowledged by the standby (02 R44 to R46, 12 R300): holds it covers are released, FLUSHes judged, credit
taken. -/
def Chip.takeAck (s : Chip) (pos credit : Nat) : Chip :=
  let acked := if s.journaled then Nat.max s.syz.acked (Nat.min pos s.syz.pos) else s.syz.acked
  let t := (({ s with syz := { s.syz with acked, credit := some credit } }).freePend acked).serveQueues
  (((((((t.finishAll).flushAll).pumpJournal).judgePersisted).stepMirror).advanceRelease).pumpOwed).levels

/-- A JOURNAL_ACK arrives (12 R298). -/
def journalAckEffect (h : SyzHead) (pos : Nat) (cum : BitVec 32) (credit : Nat) (s : Chip) : Chip :=
  s.recvLoose h fun t =>
    let t1 := t.covered cum.toNat
    if t1.syz.role != .active then t.syzFreed t1 else t1.takeAck pos credit

def execJournalAck (h : SyzHead) (pos : Nat) (cum : BitVec 32) (credit : Nat) (s : State) : Host.Outcome State Fault Refusal :=
  .next (s.on (journalAckEffect h pos cum credit))

/-- Causes for which a JOIN is refused (12 R314, Table 12-5). -/
def Chip.joinCauses (s : Chip) (m : RoleMsg) : Nat :=
  b2n (m.mode != b2n s.syz.compat) + 2 * b2n (m.ring != s.syz.ringGiB) + 4 * b2n (m.mirror != s.syz.mirrorGiB)

/-- A page of a journaled region: PAIR policy without the twin-mirror flag (12 R300). -/
def Chip.journaledPage (s : Chip) (p : Nat) : Bool := match s.regionOf p with
  | some e => e.2.pair && !e.2.mirror
  | none => false

/-- A standby joins (12 R301, Table 12-1): the join position, the copy of the region table, and the mirror copy. Charged
pages of journaled regions hold the release position until they are sealed. -/
def Chip.takeJoin (s : Chip) : Chip :=
  let pos := s.syz.pos
  let pages := s.pgm.pages.map fun e => if e.2.charged && s.journaledPage e.1 then (e.1, { e.2 with jpos := pos }) else e
  let s1 := { s with pgm := { s.pgm with pages },
                     syz := { s.syz with joinPos := pos, acked := pos, entries := [] } }
  let j := s1.releasePos
  let s2 := ({ s1 with syz := { s1.syz with release := j, noteJ := j } }).setPair .catchingUp
  let s3 := (s2.rgn.table.filter fun e => e.2.live || e.2.gen != 1).foldl (fun t e =>
    (t.post false 4 e.1 0 (e.2.bytes ++ le 4 0) []).2) s2
  let left := if s3.syz.compat then s3.flagged.map fun p => (p, 0) else []
  (({ s3 with syz := { s3.syz with mirrorLeft := left } }).stepMirror).advanceRelease

/-- ROLE JOIN at the active (12 R301, R314). -/
def Chip.joinTakes (t : Chip) (m : RoleMsg) : Chip :=
  let serves := t.syz.role == .active && (t.glb.state == .active || t.glb.state == .start)
  let free := t.syz.pair == .noTwin || t.syz.pair == .solo
  let causes := t.joinCauses m
  if !serves || !free then t
  else if causes != 0 then
    (({ t with syz := { t.syz with refuse := causes } }).sendRole 6 causes 0).raise 0x0C 0xFFFF 4 1 0
      [BitVec.ofNat 8 t.syz.role.code, BitVec.ofNat 8 causes]
  else t.takeJoin

/-- ROLE TAKEOVER at a unit whose role is ACTIVE, in whatever pair state: it is fenced (12 Table 12-1). -/
def Chip.takeoverTakes (t : Chip) : Chip :=
  if (t.glb.state == .active || t.glb.state == .eclipse) && t.syz.role == .active then t.fence else t

/-- ROLE REFUSE: an active that catches its standby up is alone again (12 R301); a standby's JOIN was refused. -/
def Chip.refuseTakes (t : Chip) (causes : Nat) : Chip :=
  let note (u : Chip) : Chip := u.raise 0x0C 0xFFFF 4 1 0 [BitVec.ofNat 8 u.syz.role.code, BitVec.ofNat 8 causes]
  if t.syz.role == .active && t.syz.pair == .catchingUp then note (t.dropTwin .noTwin false)
  else if t.syz.role == .umbra then note { t with syz := { t.syz with refuse := causes, caughtUp := false, copy := none } }
  else t

/-- The reservation of every ready drive of a configured set read (12 R459). -/
def Chip.askHolders (s : Chip) : Chip := s.memberDrives.foldl (fun t d => t.ran d 0 .report) s

/-- The reservation check of R459 on what the ready drives report: a Reservation Report has been read from each. -/
def soloCheckEffect (hs : List Holder) (s : Chip) : Chip :=
  let own := some s.sec.writer
  let ready := s.memberDrives
  let map := match s.mapSet with
    | some m => ready.any fun d => (s.holds d).any (·.1 == m)
    | none => false
  let t := s.askHolders
  if s.glb.state != .active || s.syz.pair != .inDoubt then s
  else if hs.any fun x => ready.contains x.drive && x.key.isSome && x.key != own then t.fence
  else if map && ready.all fun d => hs.any fun x => x.drive == d && x.key == own then t.goSolo
  else t

def execSoloWaitExpiry (hs : List Holder) (s : State) : Host.Outcome State Fault Refusal := .next (s.on (soloCheckEffect hs))

/-- The recheck 1 ms after a check that could not decide (12 R459). -/
def recheckEffect (hs : List Holder) (s : Chip) : Chip := soloCheckEffect hs s

def execReservationCheck (hs : List Holder) (s : State) : Host.Outcome State Fault Refusal := .next (s.on (recheckEffect hs))

/-- FETCH_RESP (12 R305): the fetch, rebuild step or repair that waits for its tag has the bytes. -/
def Chip.respTakes (t : Chip) (tag source mask : Nat) (data : List Byte) : Chip :=
  let tags := t.syz.tags.map fun x => if x.tag == tag && x.answer.isNone then { x with answer := some (source, mask, data) } else x
  { t with syz := { t.syz with tags } }

/-! ### The standby's side -/

/-- An entry put into the ring, in position order (12 R301). -/
def ringInsert (e : JEntry) : List JEntry → List JEntry
  | [] => [e]
  | x :: r => if e.pos < x.pos then e :: x :: r else if e.pos == x.pos then x :: r else x :: ringInsert e r

/-- The DRAM writes of an entry that goes into the ring, striped over the channels as class 1 (12 R301). -/
def Chip.ringWrite (s : Chip) (len : Nat) : Chip :=
  let size := Nat.max 1 s.syz.ringSize
  let at_ := s.syz.ringAt % size
  let first := Nat.min len (size - at_)
  let s1 := s.areaAccess 3 at_ first 1 .syz true
  let s2 := if first < len then s1.areaAccess 3 0 (len - first) 1 .syz true else s1
  { s2 with syz := { s2.syz with ringAt := (at_ + len) % size } }

/-- A region table entry of the standby set, with its change-log record where the entry changes (12 R301). -/
def Chip.standbyRegion (s : Chip) (idx code : Nat) (e : Region) : Chip :=
  if s.region idx = e then s
  else (s.setRegion idx e).askLog 1 (le 4 idx ++ le 1 code ++ le 3 0 ++ e.bytes)

/-- The standby's change log cannot take the copy: it refuses the join (12 R301). -/
def Chip.refuseCopy (s : Chip) : Chip :=
  (({ s with syz := { s.syz with caughtUp := false, refuse := 8, copy := none } }).sendRole 6 8 0).raise 0x0C 0xFFFF 4 1 0
    [BitVec.ofNat 8 s.syz.role.code, 8]

/-- Indices that no COPY entry has named set free with generation 1, each with its record (12 R301). -/
def Chip.freeUnnamed : List Nat → Chip → Chip
  | [], s => { s with syz := { s.syz with copy := none } }
  | i :: r, s =>
    if s.region i = Region.blank then Chip.freeUnnamed r s
    else if s.logRoom then Chip.freeUnnamed r (s.standbyRegion i 0 Region.blank)
    else s.refuseCopy

/-- The copy of the region table ends (12 R301). -/
def Chip.endCopy (s : Chip) : Chip := match s.syz.copy with
  | none => s
  | some named => Chip.freeUnnamed ((s.rgn.table.map (·.1)).filter fun i => !named.contains i) s

/-- The standby's JOIN stands: neither unit has refused it (12 R301, R314). -/
def Chip.joined (s : Chip) : Bool := s.glb.state == .umbra && s.syz.refuse == 0

/-- A REGION entry applied: COPY, or a later change (12 R301). -/
def Chip.applyRegion (s : Chip) (e : JEntry) : Chip :=
  let code := leField e.data 48 4
  let r := Region.ofBytes e.data
  let idx := e.addr % 65536
  if code == 0 then
    match s.syz.copy with
    | some named =>
      if s.region idx ≠ r ∧ !s.logRoom then s.refuseCopy
      else ({ s with syz := { s.syz with copy := some (idx :: named) } }).standbyRegion idx 0 r
    | none => s
  else if s.endCopy.joined then (s.endCopy).standbyRegion idx code r
  else s.endCopy

/-- One entry stored in the ring, and applied where it changes the region table; none is taken once the join is refused. -/
def Chip.storeEntry (s : Chip) (e : JEntry) : Chip :=
  let s1 := if !s.joined then s else if e.kind == 4 then s.applyRegion e else s.endCopy
  if !s1.joined || e.pos ≤ s1.syz.release then s1
  else ({ s1 with syz := { s1.syz with ring := ringInsert e s1.syz.ring } }).ringWrite (entrySize e + 16)

/-- The positions of a frame's entries accepted: frames come in the order of their link sequence, so every earlier one has been. -/
def Chip.acceptPos (s : Chip) (es : List JEntry) : Chip :=
  { s with syz := { s.syz with accepted := es.foldl (fun n e => Nat.max n e.pos) s.syz.accepted } }

/-- JOURNAL at the standby (12 R301). -/
def Chip.journalTakes (t : Chip) (epoch : Nat) (es : List JEntry) : Chip :=
  if !t.joined then t
  else
    let u := es.foldl Chip.storeEntry { t with syz := { t.syz with partnerEpoch := epoch } }
    if u.joined then u.acceptPos es else u

/-- The mirror frame of a flagged page: the number of flagged pages below it (12 R304). -/
def Chip.mirrorIdx (s : Chip) (p : Nat) : Nat :=
  ((s.rgn.table.filter fun e => e.2.live && e.2.mirror).map fun e => Nat.min e.2.len (p - e.2.base)).sum

/-- The DRAM accesses of some bytes of the mirror area, by persistent byte address (12 R304). -/
def Chip.mirrorAccess (s : Chip) (addr len cls : Nat) (write : Bool) : Chip :=
  s.areaAccess 4 (s.mirrorIdx (addr / 65536) * 65536 + addr % 65536) len cls .syz write

/-- One entry laid into the mirror area; its frame's clean bit is cleared (12 R304). -/
def Chip.mirrorEntry (s : Chip) (e : JEntry) : Chip :=
  let bytes : Memory := if e.kind == 2 then
      (List.range 64).foldl (fun m i => if bit e.mask.toNat i then Memory.write 0 m (e.addr + i) (e.data.getD i 0) else m) s.syz.mirror
    else Memory.writeN 0 s.syz.mirror e.addr e.data
  let pages := rangeFrom (e.addr / 65536) ((e.addr + Nat.max 1 e.data.length - 1) / 65536 - e.addr / 65536 + 1)
  let mp := pages.foldl (fun (l : Tab Nat) p => Tab.ins l p (Nat.max e.pos ((Tab.find l p).getD 0))) s.syz.mpages
  ({ s with syz := { s.syz with mirror := bytes, mpages := mp, mclean := s.syz.mclean.filter fun p => !pages.contains p } }).mirrorAccess
    e.addr e.data.length 1 true

/-- MIRROR_WRITE at the standby (12 R304). -/
def Chip.mirrorTakes (t : Chip) (es : List JEntry) : Chip :=
  if !t.joined || !t.syz.compat then t
  else if t.endCopy.joined then (es.foldl Chip.mirrorEntry t.endCopy).acceptPos es
  else t.endCopy

/-- The byte an entry gives an address, if it covers it. -/
def entryByte (e : JEntry) (a : Nat) : Option Byte :=
  if e.kind == 4 || a < e.addr || e.addr + e.data.length ≤ a then none
  else if e.kind == 2 && !bit e.mask.toNat (a - e.addr) then none
  else e.data[a - e.addr]?

/-- The answer to a MIRROR_FETCH: source, mask and data (12 R305). -/
def Chip.fetchAnswer (s : Chip) (addr size : Nat) : Nat × Nat × List Nat :=
  if (Tab.find s.syz.mpages (addr / 65536)).isSome then
    (1, 2 ^ size - 1, (Memory.readN 0 s.syz.mirror addr size).map (·.toNat))
  else
    let walk := ((s.syz.ring.filter fun e => s.syz.release < e.pos).reverse).take (s.par 0xC00130)
    let got := (List.range size).map fun i => walk.findSome? fun e => entryByte e (addr + i)
    let mask := (got.zipIdx.filter fun e => e.1.isSome).foldl (fun m e => setBit m e.2 true) 0
    (if mask == 0 then 0 else 2, mask, got.map fun b => (b.map (·.toNat)).getD 0)

/-- The DRAM reads behind the answer to a MIRROR_FETCH (10 Table 10-3): the mirror's lines, or those of the entries that the walk found
bytes in. -/
def Chip.fetchReads (s : Chip) (addr size : Nat) : Chip :=
  if (Tab.find s.syz.mpages (addr / 65536)).isSome then s.mirrorAccess addr size 3 false
  else
    let walk := ((s.syz.ring.filter fun e => s.syz.release < e.pos).reverse).take (s.par 0xC00130)
    let n := Nat.max 1 s.syz.ringSize
    (walk.foldl (fun (acc : Nat × Chip) e =>
      let at_ := (acc.1 + n - (entrySize e + 16) % n) % n
      (at_, if (List.range size).any fun i => (entryByte e (addr + i)).isSome then acc.2.areaAccess 3 at_ (entrySize e + 16) 3 .syz false
            else acc.2)) (s.syz.ringAt, s)).2

/-- MIRROR_FETCH at the standby, which answers it (12 R305; log 170). -/
def Chip.fetchTakes (t : Chip) (addr size tag : Nat) : Chip :=
  if t.glb.state != .umbra then t
  else
    let a := t.fetchAnswer addr size
    (t.fetchReads addr size).syzSmall 0x45 ([tag, a.1, a.2.1] ++ a.2.2)

/-- SEAL_NOTE RELEASE: entries at or before the release position may be overwritten, mirror frames are clean (12 R302, R304). -/
def Chip.releaseTakes (t : Chip) (pos : Nat) : Chip :=
  if t.glb.state != .umbra || pos < t.syz.release then t
  else { t with syz := { t.syz with
    release := pos, ring := t.syz.ring.filter fun e => pos < e.pos,
    mclean := (t.syz.mpages.filter fun e => e.2 ≤ pos).map (·.1) } }

/-! ### Takeover (12 R308 to R311) -/

/-- Drive ports as a mask. -/
def maskOfDrives (ds : List Nat) : Nat := ds.foldl (fun m d => setBit m d true) 0

/-- A trigger reaches a unit in UMBRA: it takes over if it is caught up, else it records that it does not (12 R295). -/
def Chip.trigger (s : Chip) (t : Nat) : Chip :=
  if s.glb.state != .umbra then s
  else if s.syz.caughtUp then s.takeover t
  else s.raise 0x0C 0xFFFF 6 3 0 [BitVec.ofNat 8 t]

/-- SYZ_FENCE_LIMIT has passed and some drive is not preempted: FAULT (12 R308). -/
def fenceLimitEffect (s : Chip) : Chip :=
  if s.glb.state != .takeover || s.syz.preDone then s
  else
    let mask := maskOfDrives (s.memberDrives.filter fun d => (s.drive d).holder)
    (({ s with syz := { s.syz with preempted := mask } }).raise 0x0C 0xFFFF 3 3 0
      ([BitVec.ofNat 8 s.syz.trigger, 0] ++ le 4 mask)).toFault 8

def execFenceLimitExpiry (s : State) : Host.Outcome State Fault Refusal := .next (s.on fenceLimitEffect)

/-- Every drive of every configured set is ready (12 R308): a position that is lost has none (log 194). -/
def Chip.allMembers (s : Chip) : Bool :=
  s.str.sets.all fun e => !e.2.cfg.on || e.2.pos.all fun x => x.lost || x.drive.any fun d => (s.drive d).ready

/-- The seal slots of the map set read (12 Table 12-7 step 4). -/
def Chip.searchSeals (s : Chip) : Chip := match s.mapSet with
  | some m => (s.set m).presentPos.foldl (fun t p => t.posCmd m p 3 (.read 256 256)) s
  | none => s

/-- Preempt and Abort has completed on every drive (12 Table 12-7 step 3): this unit holds the reservations. -/
def preemptEffect (s : Chip) : Chip :=
  if s.glb.state != .takeover || s.syz.preDone || !s.allMembers then s
  else
    let ds := s.memberDrives
    let s1 := ds.foldl (fun t d => t.modDrive d fun k => { k with
      holder := true, registered := true, cmds := k.cmds.filter fun c => c.2.cmd != .preempt s.sec.writer (s.syz.partner.getD 0) }) s
    Chip.searchSeals <| Chip.startScans { s1 with syz := { s1.syz with preDone := true, step := Nat.max 3 s1.syz.step, preempted := maskOfDrives ds } }

def execPreemptComplete (s : State) : Host.Outcome State Fault Refusal := .next (s.on preemptEffect)

/-- Step 4 ends, with or without the old active's seal (12 Table 12-7). -/
def Chip.endSearch (s : Chip) (found : Bool) : Chip :=
  if s.glb.state != .takeover || s.syz.sealDone then s
  else { s with syz := { s.syz with sealDone := true, step := Nat.max 4 s.syz.step }, glb := { s.glb with sealFound := found } }

/-- The map set's seal slots have been read, after step 3: SEAL_FOUND is set by a seal of the old active, for its epoch. -/
def sealSearchEffect (blocks : List (List Byte)) (s : Chip) : Chip :=
  let found := (blocks.filterMap sealOf).any fun x => s.syz.partner == some x.writer && x.epoch == s.syz.partnerEpoch
  if s.syz.preDone then s.endSearch found else s

def execSealSearchComplete (blocks : List (List Byte)) (s : State) : Host.Outcome State Fault Refusal :=
  .next (s.on (sealSearchEffect blocks))

/-- SYZ_SEAL_WAIT has passed: the search ends with no seal found. -/
def sealWaitEffect (s : Chip) : Chip := s.endSearch false

def execSealWaitExpiry (s : State) : Host.Outcome State Fault Refusal := .next (s.on sealWaitEffect)

/-- A mirror frame becomes its page's frame (12 R310): CLEAN if its clean bit is set, else DIRTY and charged. -/
def Chip.adoptMirror (s : Chip) (p : Nat) : Chip :=
  let g := s.page p
  if g.st != .free then s
  else
    let clean := s.syz.mclean.contains p
    let s1 := { s with pgm := { s.pgm with
      frames := Memory.lay 0 s.pgm.frames (p * 65536) 65536 (Memory.sub s.syz.mirror (p * 65536) 65536) } }
    let s2 := s1.setPage p { Page.blank with
      st := if clean then .clean else .dirty, frame := some (s.pgm.total + s.mirrorIdx p), use := true, demand := s.now }
    if clean then s2 else s2.charge p

/-- The service passes to this unit (12 R311, Table 12-7 step 5): it is ACTIVE, alone, with the service addresses. -/
def Chip.takeService (s : Chip) : Chip :=
  let pos := Nat.max s.syz.pos s.syz.accepted + (2 ^ 32 - 1)
  let s1 := { s with str := { s.str with conflict := false }, syz := { s.syz with
    role := .active, step := Nat.max 5 s.syz.step, pos := pos, acked := pos, entries := [], joinPos := 0, noteJ := 0, credit := none } }
  let s2 := ((s1.setPair .noTwin).raiseEpoch).announce
  let s3 := s2.raise 0x0C 0xFFFF 3 3 0
    ([BitVec.ofNat 8 s.syz.trigger, BitVec.ofNat 8 (b2n s.glb.sealFound)] ++ le 4 s.syz.preempted)
  let s4 := (s3.syz.mpages.map (·.1)).foldl Chip.adoptMirror s3
  let s5 := { s4 with syz := { s4.syz with mirror := [], mpages := [], mclean := [], step := if s4.syz.replaying then s4.syz.step else 8 } }
  s5.enterActive true

/-- Step 5 of a takeover, once the drives are preempted, the seal search is over and a port is up. -/
def takeoverActiveEffect (s : Chip) : Chip :=
  if s.glb.state != .takeover || !s.syz.preDone || !s.syz.sealDone || (s.par 0xC00134 == 0 && s.hpx.up == 0) then s
  else s.takeService

def execTakeoverActive (s : State) : Host.Outcome State Fault Refusal := .next (s.on takeoverActiveEffect)

/-- Bytes of one line replayed into a page (12 R310): its frame, its delta lines and its charge. -/
def Chip.replayLine (s : Chip) (line : Nat) (data : List Byte) (mask : Nat) : Chip :=
  let p := pageOfLine line
  let g := s.page p
  if g.resident then (s.writeLine line data mask).writePage p false
  else
    let s1 := if g.st == .free then
        match s.takeFrame with
        | some (f, t) => t.setPage p { Page.blank with st := .fetching, frame := some f, cls := 5, use := true, demand := s.now }
        | none => s.setPage p { Page.blank with st := .fetching, cls := 5, use := true, demand := s.now }
      else s
    let q := { s1.pgm with
      replayed := if s1.pgm.replayed.contains p then s1.pgm.replayed else p :: s1.pgm.replayed,
      queue := if s1.pgm.queue.contains p || (s1.page p).issued.isSome then s1.pgm.queue else s1.pgm.queue ++ [p] }
    let s2 := { s1 with pgm := q }
    let d := (Tab.find s2.pgm.deltas line).getD { mask := 0, data := List.replicate 64 0 }
    let s3 := { s2 with pgm := { s2.pgm with
      deltas := Tab.ins s2.pgm.deltas line { mask := d.mask ||| BitVec.ofNat 64 mask, data := overlay d.data data mask } } }
    s3.writePage p false

/-- One ring entry replayed; the region table has its REGION entries already. -/
def Chip.replayEntry (s : Chip) (e : JEntry) : Chip :=
  if e.kind == 4 then s
  else
    let n := Nat.max 1 e.data.length
    (rangeFrom (e.addr / 64) ((e.addr + n - 1) / 64 - e.addr / 64 + 1)).foldl (fun t line =>
      let bs := (List.range 64).map fun i => entryByte e (line * 64 + i)
      let mask := (bs.zipIdx.filter fun x => x.1.isSome).foldl (fun m x => setBit m x.2 true) 0
      if mask == 0 then t else t.replayLine line (bs.map fun b => b.getD 0) mask) s

/-- The ring replayed (12 R310, Table 12-7 steps 7 and 8): every entry after the release position is in place, OFF_TKO is
cleared and PINNED fault-in queued (log 80). -/
def Chip.replay (s : Chip) : Chip :=
  let s1 := (s.syz.ring.filter fun e => s.syz.release < e.pos).foldl Chip.replayEntry s
  let s2 := { (s1.setOffTko false) with syz := { s1.syz with
    ring := [], replaying := false, ringKept := false, step := if s1.glb.state == DevState.active then 8 else 7 } }
  let s3 := (s2.levels).issueFetches
  if s1.glb.state == .active then s3.faultIn else s3

/-- Replay completes. -/
def replayEffect (s : Chip) : Chip :=
  if !s.syz.replaying || (s.glb.state != .takeover && s.glb.state != .active) then s else s.replay

def execReplayComplete (s : State) : Host.Outcome State Fault Refusal := .next (s.on replayEffect)

/-! ### Triggers and notes -/

/-- SEAL_NOTE ECLIPSE (12 Table 12-1, R309): an active goes SOLO at once, a standby waits for a seal. -/
def Chip.eclipseTakes (t : Chip) : Chip :=
  if t.glb.state == .active && t.syz.pair == .paired then t.goSolo
  else if t.glb.state == .umbra then { t with syz := { t.syz with eclSeen := true } }
  else t

/-- ROLE CAUGHT_UP (12 R295): the standby may take over from now on. -/
def Chip.caughtUpTakes (t : Chip) : Chip :=
  if !t.joined then t
  else
    let u := t.endCopy
    if u.joined then { u with syz := { u.syz with caughtUp := true } } else u

/-! ### Reliable frames in the order of their link sequence (12 R297) -/

/-- What a reliable frame does at its receiver (12 Table 12-3); SEAL_NOTE SEALED and ROLE SWITCH_GO are takeover triggers (R309). -/
def Chip.syzTook (s : Chip) : SyzMsg → Chip
  | .journal epoch es => s.journalTakes epoch es
  | .mirrorWrite es => s.mirrorTakes es
  | .mirrorFetch addr size tag => s.fetchTakes addr size tag
  | .fetchResp tag source mask data => (s.respTakes tag source mask data).goOnAll
  | .release pos => s.releaseTakes pos
  | .eclipse => s.eclipseTakes
  | .sealed => s.trigger 2
  | .join m => s.joinTakes m
  | .caughtUp => s.caughtUpTakes
  | .takeover => s.takeoverTakes
  | .switchGo => s.trigger 4
  | .refuse causes => s.refuseTakes causes

/-- The frames whose turn has come take effect, in the order of their link sequence. -/
def Chip.inSequence : Nat → Chip → Chip
  | 0, s => s
  | n + 1, s =>
    let q := psnAdd s.syz.rxSeq 1
    match s.syz.rxHeld.find? (·.1 == q) with
    | some e => Chip.inSequence n
        (({ s with syz := { s.syz with rxSeq := q, rxHeld := s.syz.rxHeld.filter (·.1 != q) } }).syzTook e.2)
    | none => s

/-- A reliable frame: a duplicate is answered and no more, another is placed by its link sequence and answered (12 R297, R298;
log 79). -/
def Chip.recvReliable (s : Chip) (h : SyzHead) (m : SyzMsg) : Chip :=
  s.recvLoose h fun t =>
    let q := h.seq.toNat
    if t.syz.rxKnown && (notAfter q t.syz.rxSeq || t.syz.rxHeld.any (·.1 == q)) then t.sendJournalAck
    else (Chip.inSequence (t.syz.rxHeld.length + 1) { t with syz := t.syz.hold q m }).sendJournalAck

/-- ROLE JOIN arrives (12 R301, R314). -/
def roleJoinEffect (h : SyzHead) (m : RoleMsg) (s : Chip) : Chip := s.recvReliable h (.join m)

def execRoleJoin (h : SyzHead) (m : RoleMsg) (s : State) : Host.Outcome State Fault Refusal := .next (s.on (roleJoinEffect h m))

/-- ROLE TAKEOVER arrives (12 Table 12-1). -/
def roleTakeoverEffect (h : SyzHead) (s : Chip) : Chip := s.recvReliable h .takeover

def execRoleTakeover (h : SyzHead) (s : State) : Host.Outcome State Fault Refusal := .next (s.on (roleTakeoverEffect h))

/-- ROLE REFUSE arrives (12 R301). -/
def roleRefuseEffect (h : SyzHead) (causes : Nat) (s : Chip) : Chip := s.recvReliable h (.refuse causes)

def execRoleRefuse (h : SyzHead) (causes : Nat) (s : State) : Host.Outcome State Fault Refusal :=
  .next (s.on (roleRefuseEffect h causes))

/-- FETCH_RESP arrives (12 R305). -/
def fetchRespEffect (h : SyzHead) (tag source mask : Nat) (data : List Byte) (s : Chip) : Chip :=
  s.recvReliable h (.fetchResp tag source mask data)

def execFetchResp (h : SyzHead) (tag : Nat) (source : Nat) (mask : Nat) (data : List Byte) (s : State) :
    Host.Outcome State Fault Refusal := .next (s.on (fetchRespEffect h tag source mask data))

/-- JOURNAL arrives (12 R301). -/
def journalEffect (h : SyzHead) (es : List JEntry) (s : Chip) : Chip := s.recvReliable h (.journal h.epoch.toNat es)

def execJournal (h : SyzHead) (es : List JEntry) (s : State) : Host.Outcome State Fault Refusal := .next (s.on (journalEffect h es))

/-- MIRROR_WRITE arrives (12 R304). -/
def mirrorWriteEffect (h : SyzHead) (es : List JEntry) (s : Chip) : Chip := s.recvReliable h (.mirrorWrite es)

def execMirrorWrite (h : SyzHead) (es : List JEntry) (s : State) : Host.Outcome State Fault Refusal :=
  .next (s.on (mirrorWriteEffect h es))

/-- MIRROR_FETCH arrives (12 R305). -/
def mirrorFetchEffect (h : SyzHead) (addr size tag : Nat) (s : Chip) : Chip := s.recvReliable h (.mirrorFetch addr size tag)

def execMirrorFetch (h : SyzHead) (addr size tag : Nat) (s : State) : Host.Outcome State Fault Refusal :=
  .next (s.on (mirrorFetchEffect h addr size tag))

/-- SEAL_NOTE RELEASE arrives (12 R302). -/
def sealNoteReleaseEffect (h : SyzHead) (pos : Nat) (s : Chip) : Chip := s.recvReliable h (.release pos)

def execSealNoteRelease (h : SyzHead) (pos : Nat) (s : State) : Host.Outcome State Fault Refusal :=
  .next (s.on (sealNoteReleaseEffect h pos))

/-- SEAL_NOTE ECLIPSE arrives (12 Table 12-1, R309). -/
def sealNoteEclipseEffect (h : SyzHead) (s : Chip) : Chip := s.recvReliable h .eclipse

def execSealNoteEclipse (h : SyzHead) (s : State) : Host.Outcome State Fault Refusal := .next (s.on (sealNoteEclipseEffect h))

/-- SEAL_NOTE SEALED arrives (12 R309). -/
def sealNoteSealedEffect (h : SyzHead) (s : Chip) : Chip := s.recvReliable h .sealed

def execSealNoteSealed (h : SyzHead) (_last : Nat) (_seq : Nat) (s : State) : Host.Outcome State Fault Refusal :=
  .next (s.on (sealNoteSealedEffect h))

/-- ROLE SWITCH_GO arrives (12 R309, R316). -/
def roleSwitchGoEffect (h : SyzHead) (s : Chip) : Chip := s.recvReliable h .switchGo

def execRoleSwitchGo (h : SyzHead) (_last : Nat) (s : State) : Host.Outcome State Fault Refusal :=
  .next (s.on (roleSwitchGoEffect h))

/-- ROLE CAUGHT_UP arrives (12 R295). -/
def roleCaughtUpEffect (h : SyzHead) (s : Chip) : Chip := s.recvReliable h .caughtUp

def execRoleCaughtUp (h : SyzHead) (s : State) : Host.Outcome State Fault Refusal := .next (s.on (roleCaughtUpEffect h))

/-! ### Triggers, heartbeats and retransmission -/

/-- SYZ_ECL_TIMEOUT has passed after SEAL_NOTE ECLIPSE (12 R309). -/
def eclipseTimeoutEffect (s : Chip) : Chip := if s.syz.eclSeen then s.trigger 3 else s

def execEclipseTimeout (s : State) : Host.Outcome State Fault Refusal := .next (s.on eclipseTimeoutEffect)

/-- SYZ_HB_MISS intervals without a HEARTBEAT (12 R306, R309, Table 12-1). -/
def heartbeatLossEffect (s : Chip) : Chip :=
  if s.glb.state == .active && s.syz.role == .active then s.partnerLost
  else if s.glb.state == .umbra && !s.syz.eclSeen then
    let s1 := s.trigger 0
    if s1.glb.state == .umbra then { s1 with syz := { s1.syz with join := 2 } } else s1
  else s

def execHeartbeatLoss (s : State) : Host.Outcome State Fault Refusal := .next (s.on heartbeatLossEffect)

/-- TWIN_FENCE_IN recognised (12 R307): each role acts on it, and the level is recorded. -/
def twinFenceEffect (asserted : Bool) (s : Chip) : Chip :=
  let s1 := { s with syz := { s.syz with fenceIn := asserted } }
  if !asserted then s1
  else if s.glb.state == .umbra then s1.trigger 1
  else if s.glb.state == .active && s.syz.role == .active then s1.partnerLost
  else s1

def execTwinFenceInChange (asserted : Bool) (s : State) : Host.Outcome State Fault Refusal :=
  .next (s.on (twinFenceEffect asserted))

/-- The body of a HEARTBEAT (12 Table 12-5). -/
def Chip.heartbeatBody (s : Chip) : List Nat :=
  [s.glb.state.code, s.roleShown.code, b2n s.syz.caughtUp + 2 * b2n (s.ecl.step != 0),
   if s.syz.role == .umbra then s.syz.accepted else s.syz.release]

/-- 100 µs have passed: a HEARTBEAT on every up link (12 R306). -/
def heartbeatIntervalEffect (s : Chip) : Chip :=
  let body := s.heartbeatBody
  let s1 := if s.syzOn 0x42 then (bitsOf 4 s.syz.links).foldl (fun t l => t.emit (.syz l false 0 0x42 [] body (t.syzBytes (SyzFrame.small 0x42 body)))) s else s
  (s1.stepMirror).advanceRelease

def execHeartbeatInterval (s : State) : Host.Outcome State Fault Refusal := .next (s.on heartbeatIntervalEffect)

/-- The held frame that was sent longest ago: the one whose SYZ_RTO passes next (12 R297). -/
def oldestSent : List SyzFrame → Option SyzFrame
  | [] => none
  | f :: r => match oldestSent r with
    | some g => if g.turn < f.turn then some g else some f
    | none => some f

/-- SYZ_RTO has passed for a frame: it goes again with RETRY, on another up link where there is one (12 R297; log 81). -/
def syzRetransmitEffect (s : Chip) : Chip :=
  match oldestSent s.syz.held with
  | none => s
  | some f =>
    let g := { f with retry := true }
    let w := s.syzWire g (some f.link)
    { w.2 with syz := { w.2.syz with held := w.2.syz.held.map fun x => if x.seq == f.seq then { g with link := w.1, turn := s.syz.rr } else x } }

def execSyzRetransmitTimeout (s : State) : Host.Outcome State Fault Refusal := .next (s.on syzRetransmitEffect)

/-! ### The role at a start (12 R314) -/

/-- The rows of R314 for a partner that is not starting. -/
def Chip.roleFrom (s : Chip) (st : Nat) (caughtUp : Bool) : Chip :=
  if s.glb.state != .start || s.cfg.roleDone then s
  else if st == 5 then s.decideRole .umbra 1
  else if st == 4 || st == 8 then s.decideRole .umbra 3
  else if st == 3 then
    (if caughtUp && s.syz.last == .active && !s.syz.sealedSelf then s.decideRole .umbra 2 else s.decideRole .active 0)
  else s

/-- A role decided by the last row of R314: a kept ring is discarded. -/
def Chip.decideAfresh (s : Chip) (r : TwinRole) (join : Nat) : Chip :=
  ({ s with syz := { s.syz with ring := [], ringKept := false, ringAt := 0, mirror := [], mclean := [], mpages := [] } }).decideRole r join

/-- The rows of R314 for a partner that is also starting. -/
def Chip.roleAmong (s : Chip) (h : SyzHead) (m : RoleMsg) : Chip :=
  let theirs := m.lastRole == 1
  let mine := s.syz.last == .active
  if theirs && !m.sealed && s.syz.ringKept && h.epoch.toNat == s.syz.partnerEpoch then
    ({ s with syz := { s.syz with tkoDue := true }, cfg := { s.cfg with roleDone := true } }).trySix
  else if mine && !s.syz.sealedSelf && m.ringKept then s.decideRole .umbra 2
  else if (mine && !theirs) || (mine == theirs && s.sec.writer.toNat < m.writer.toNat) then s.decideAfresh .active 0
  else s.decideAfresh .umbra 2

/-- ROLE START at a unit in UMBRA (12 R309, R314; 13 R344): takeover, or a JOIN. -/
def Chip.startAtUmbra (s : Chip) (m : RoleMsg) : Chip :=
  let s1 := s.sendStart
  if m.lastRole == 1 && !m.sealed then
    let s2 := s1.trigger 5
    if s2.glb.state == .umbra then s2.sendJoin else s2
  else s1.sendJoin

/-- A starting partner's ROLE START arrives (12 R314); the operands give the partner's state and whether it is caught up, as
its HEARTBEATs report them. A unit that is not deciding its own role answers with a ROLE START. -/
def roleStartEffect (h : SyzHead) (m : RoleMsg) (state : Nat) (caughtUp : Bool) (s : Chip) : Chip :=
  if !s.syzTakes h then s
  else if s.foreign h then s.discard (16 + h.link) 15
  else if s.syz.rxKnown && s.syz.rxSeq == h.seq.toNat then s.sendJournalAck
  else
    let s0 := if state == 1 then s.dropFrames true else s
    let s1 := { s0 with syz := { s0.syz with
      partner := some m.writer, started := true, rxKnown := true, rxSeq := h.seq.toNat, rxHeld := [],
      tags := [] } }
    let s2 :=
      if s1.glb.state == .start && !s1.cfg.roleDone then
        (if state == 1 then s1.roleAmong h m else s1.roleFrom state caughtUp)
      else if state != 1 then s1
      else if s1.glb.state == .umbra then s1.startAtUmbra m
      else s1.sendStart
    s2.sendJournalAck

def execRoleStart (h : SyzHead) (m : RoleMsg) (state : Nat) (caughtUp : Bool) (s : State) : Host.Outcome State Fault Refusal :=
  .next (s.on (roleStartEffect h m state caughtUp))

/-- A HEARTBEAT arrives (12 R306): the partner's state is taken; a starting unit may learn its role from it, and a standby
whose JOIN waits for an ACTIVE partner sends it (log 82 and 171). -/
def heartbeatEffect (h : SyzHead) (state role : Nat) (caughtUp : Bool) (s : Chip) : Chip :=
  s.recvLoose h fun t =>
    let t0 := if role == 1 && t.glb.state == .umbra && t.syz.caughtUp then { t with syz := { t.syz with partnerEpoch := h.epoch.toNat } } else t
    let t1 := t0.roleFrom state caughtUp
    if t1.syz.join == 2 && role == 1 && t1.glb.state == .umbra then t1.sendJoin else t1

def execHeartbeat (h : SyzHead) (state role : Nat) (caughtUp _eclipse : Bool) (_pos : Nat) (s : State) :
    Host.Outcome State Fault Refusal := .next (s.on (heartbeatEffect h state role caughtUp))

/-- A Syzygy link of a region that is not fenced comes up or goes down (12 R298; 16 R405), with its training (03 R55); the first one sends ROLE START in a start (R314). -/
def syzLinkEffect (link : Nat) (up : Bool) (s : Chip) : Chip :=
  if s.nLinks ≤ link || bit s.cmt.fencedRegions link || !s.domainOn 21 || s.glb.state == .maintenance || s.glb.state == .off || bit s.syz.links link == up then s
  else
    let first := s.syz.links == 0
    let s1 := (({ s with syz := { s.syz with links := setBit s.syz.links link up } }).train (16 + link) (!up)).raise 0x0C 0xFFFF 2 1 0
      [BitVec.ofNat 8 link, BitVec.ofNat 8 (b2n up)]
    if up && first && s.glb.state == .start then s1.sendStart
    else s1

def execSyzLinkChange (link : Nat) (up : Bool) (s : State) : Host.Outcome State Fault Refusal :=
  .next (s.on (syzLinkEffect link up))

/-- No ROLE START within SYZ_JOIN_WAIT: the role follows from the reservations of the map set's drives (12 R314; log 84). -/
def joinWaitEffect (hs : List Holder) (s : Chip) : Chip :=
  if s.glb.state != .start || s.cfg.roleDone || s.syz.started || s.cfg.phase < 2 then s
  else match s.mapSet with
    | none => s
    | some m =>
      let drives := (List.range s.nDrives).filter fun d => (s.drive d).ready && bit (s.set m).cfg.mask d
      let seen := hs.filter fun x => drives.contains x.drive
      if drives.isEmpty || !(drives.all fun d => hs.any fun x => x.drive == d) then s
      else if seen.any fun x => x.key.isSome && x.key != some s.sec.writer then s.raise 0x0C 0xFFFF 4 1 0 [0, 0]
      else s.decideRole .active 0

def execJoinWaitExpiry (hs : List Holder) (s : State) : Host.Outcome State Fault Refusal := .next (s.on (joinWaitEffect hs))

end Sys2Proof.Machine
end

