-- ==== Sys2Proof/Machine/Boot.lean ====
section
/-!
DEFINITION. What a new start keeps and what it resets (14 R352, R356; 17 R415), for a full start, a warm resume and the
return of the always-on supply.
-/
namespace Sys2Proof.Machine

/-! ### What a start keeps -/

/-- A register of the always-on island (17 Table 17-2): GLB, PWS and FLT keep their values over a start. -/
def alwaysOnReg (a : Nat) : Bool := a < 0x100000 || (0xD00000 ≤ a && a < 0xE00000) || 0x1200000 ≤ a

/-- A drive port at a start: its presence pin, and nothing learnt since; an odd one is ignored until S2 (09 R221). -/
def Drive.restart (k : Drive) (d : Nat) : Drive := { Drive.blank with pin := k.pin, present := k.pin && d % 2 == 0 }

/-- A set at a start: what its drives hold (09 R234 to R247), and its configuration unknown until S2. The segment table lies in
the map area. -/
def StripeSet.restart (t : StripeSet) (warm : Bool) : StripeSet :=
  { StripeSet.blank with
    ident := t.ident, labelGen := t.labelGen, z := t.z, segs := if warm then t.segs else [], parts := t.parts, jpos := t.jpos,
    jseq := t.jseq, jckpt := t.jckpt, jrecs := t.jrecs, writing := t.writing,
    rbState := if t.rbState == 1 || t.rbState == 2 then 2 else 0, rbPos := t.rbPos, rbDrive := t.rbDrive,
    rbSlot := t.rbSlot, rbRemain := t.rbRemain, rbLost := t.rbLost }

/-- What is known of the map on the drives: nothing once the map area is lost (09 R243). -/
def Str.forget (p : Str) : Str :=
  { p with lastSealed := 0, ckpt := 0, ckptRun := none, mapNodes := [], nodes := [], fixed := [], ckptLeft := [], ckptRec := false,
           sealedSince := 0 }

/-- The drive pool at a start: what the drives hold, and in a warm resume what the map area says of it. A checkpoint that ran
leaves its nodes to be written again. -/
def Str.restart (p : Str) (warm : Bool) : Str :=
  let q : Str := { Str.reset with
    drives := p.drives.map fun e => (e.1, e.2.restart e.1), sets := p.sets.map fun e => (e.1, e.2.restart warm), stored := p.stored,
    chunks := p.chunks, seals := p.seals }
  if warm then { q with lastSealed := p.lastSealed, ckpt := p.ckpt, mapNodes := p.mapNodes,
                        nodes := (p.nodes ++ p.fixed.map (·.1)).eraseDups, sealedSince := p.sealedSince } else q

/-- The twin at a start: the last role and whether this unit sealed under it (12 R314), the ring where it is kept (R315)
(log 85). -/
def Syz.restart (y : Syz) (wrote warm linked : Bool) : Syz :=
  let kept := warm && (y.role == TwinRole.umbra || (y.role == TwinRole.none && y.ringKept))
  let none_ := y.role == TwinRole.none
  { Syz.reset with
    last := if none_ then y.last else y.role, sealedSelf := if none_ then y.sealedSelf else wrote, ringKept := kept,
    links := if linked then y.links else 0, src := if linked then y.src else 0, dst := if linked then y.dst else 0, pos := Nat.max y.pos y.accepted, partnerEpoch := y.partnerEpoch, swSeq := y.swSeq, age := y.age + 1,
    fenceOut := false, fenceIn := y.fenceIn,
    ring := if kept then y.ring else [], ringAt := if kept then y.ringAt else 0, accepted := if kept then y.accepted else 0, release := if kept then y.release else 0,
    mirror := if kept then y.mirror else [], mclean := if kept then y.mclean else [], mpages := if kept then y.mpages else [],
    ringGiB := if warm then y.ringGiB else 16, mirrorGiB := if warm then y.mirrorGiB else 0, compat := warm && y.compat }

/-- A page over a warm resume (08 R218): RESIDENT_CLEAN, or LOST_PARTIAL with its mask; no line is locked any more. -/
def Page.warm (g : Page) : Page :=
  { g with st := if g.st == .lostPartial then .lostPartial else .clean, issued := none, chain := none, charged := false,
           redirty := false, pinned := false, due := false, jpos := 0, jnext := 0 }

/-- The page manager at a warm resume: frames, descriptors and the map area are kept (08 R218); nothing waits. -/
def Pgm.warm (p : Pgm) : Pgm :=
  let pages := (p.pages.filter fun e => e.2.st != .fetching && e.2.st != .free).map fun (e : Nat × Page) => (e.1, e.2.warm)
  let lost := (p.pages.filter fun e => e.2.st == .fetching).filterMap (·.2.frame)
  { p with
    pages := pages, freed := lost ++ p.freed, evicting := false, urgent := false, ringUrgent := false, run := none, mapReads := [], eager := [], tcache := [],
    queue := [], fetchWaits := [], reserved := [], wants := [], pinSet := false, lowSet := false, deltas := [], replayed := [] }

/-- The page manager at a full start: DRAM contents are discarded, the map area with them. -/
def Pgm.cold (_ : Pgm) : Pgm := Pgm.reset

/-! ### The roles that end (15 R379) -/

/-- A role that a session holds, for its SESSION record: path, connection, serial and role. -/
def Chip.heldRoles (s : Chip) : List (Nat × Nat × Nat × Nat) :=
  let own := if s.sec.i2c.role == 0 then [] else [(0, 0, s.sec.i2c.serial, s.sec.i2c.role)]
  own ++ (s.sec.mgmt.filter fun e => e.2.role != 0).map fun e => (1, e.1, e.2.serial, e.2.role)

/-- A SESSION record (16 Table 16-5). -/
def Chip.sessionEvent (s : Chip) (path conn serial role : Nat) (outcome : Byte) : Chip :=
  s.raise 0x10 0xFFFF 1 0 0 (le 1 path ++ le 4 conn ++ le 4 serial ++ le 1 role ++ [outcome])

/-! ### The start -/

/-- A start begins (14 R352, R356): every unit outside the always-on island goes to its reset state, but for what the
drives, the flash and, in a warm resume, the DRAM hold; a warm resume counts its time from the moment the input was judged
returned. D16 to D23 are powered, D0 to D15 at S3. -/
def Chip.beginStart (s : Chip) (warm : Bool) : Chip :=
  let roles := s.heldRoles
  let linked := warm && s.domainOn 21
  let s1 : Chip := { s with
    glb := { s.glb with degraded := false, detail := 2, tookOver := false, sealFound := false, activeAt := none, activeSeq := 0 },
    regs := s.regs.filter fun e => alwaysOnReg e.1, cnts := s.cnts.filter fun e => alwaysOnReg e.1,
    hpx := Hpx.reset, xpt := Xpt.reset, rgn := Rgn.reset, cmt := Cmt.reset, bpm := Bpm.reset, lcc := Lcc.reset,
    pgm := if warm then s.pgm.warm else s.pgm.cold, str := s.str.restart warm, dmc := s.dmc.restart warm,
    syz := s.syz.restart s.ecl.sealed warm linked,
    pws := { s.pws with dir := if warm then 0 else s.pws.dir, holding := !warm && s.pws.holding, returned := false, minOff := false,
                        offDone := false, ended := false, abandon := !warm && s.pws.abandon, gated := 2 ^ 24 - 1 },
    ecl := { Ecl.reset with rate := s.ecl.rate },
    cfg := { Cfg.reset with begun := true, warm := warm, t0 := if warm then s.pws.returnAt else s.now, flash := s.cfg.flash },
    sec := { Sec.reset with writer := s.sec.writer, tap := s.sec.tap },
    evr := Evr.reset, flt := { s.flt with wdt := false, faulted := false, cause := 0 } }
  let s2 := (s1.enter .start).powerUp (rangeFrom 16 8)
  let s3 := roles.foldl (fun t r => t.sessionEvent r.1 r.2.1 r.2.2.1 r.2.2.2 (Config.openCode 3 1)) s2
  if s3.syz.links == 0 then s3
  else s3.sendStart

/-- The always-on supply is lost (18 R446): OFF, and every volatile state with it. The drives, the flash and the fuses keep
theirs; every output floats, so the fence reads as asserted (R450). -/
def Chip.powerLost (s : Chip) : Chip :=
  { Chip.reset with
    glb := { Glb.reset with sl4804 := s.glb.sl4804, gradeI := s.glb.gradeI, state := .off },
    str := s.str.restart false, pgm := s.pgm.cold,
    syz := { (s.syz.restart s.ecl.sealed false false) with fenceOut := true, age := s.syz.age },
    cfg := { Cfg.reset with flash := s.cfg.flash }, out := s.out, now := s.now, fresh := s.fresh }

end Sys2Proof.Machine
end

