-- ==== Sys2Proof/Machine/Seq.lean ====
section
/-!
DEFINITION. Rails, reset outputs and the sequences on SEQ_SYNC (13 R320 to R329), with fault-off (R328).
-/
namespace Sys2Proof.Machine

/-! ### Rails -/

/-- A rail input by number; VIN_SNS is 16. -/
def Chip.rail (s : Chip) (k : Nat) : Rail := s.pws.rails.getD k Rail.blank

/-- An update of a rail input. -/
def Chip.modRail (s : Chip) (k : Nat) (f : Rail → Rail) : Chip :=
  { s with pws := { s.pws with rails := setAt s.pws.rails k (f (s.rail k)) } }

/-- A rail deasserted: its under-thresholds no longer apply (13 R321). -/
def Rail.off (r : Rail) : Rail :=
  { r with enabled := false, confirmed := false, active := r.active / 4 * 4,
           beyond := [0, 0] ++ r.beyond.drop 2, inside := [0, 0] ++ r.inside.drop 2 }

/-- A rail that its monitor shows on: it reads above UV_WARN (13 R326); one that is not monitored counts at once (log 92). -/
def Rail.isOn (r : Rail) : Bool := r.enabled && (!r.cfg.monEn || r.cfg.uvWarn < r.code)

/-- A rail that its monitor shows off: it reads below OFF_LEVEL (13 R326). -/
def Rail.isOff (r : Rail) : Bool := !r.cfg.monEn || r.code < r.cfg.offLevel

/-- Rails that are switched in a state of the running sequence: RAIL_SNS inputs only (13 R322). -/
def Chip.stateRails (s : Chip) (n : Nat) : List Nat :=
  (List.range 16).filter fun k => if s.pws.dir == 1 then (s.rail k).cfg.upState == n else (s.rail k).cfg.downState == n

/-! ### A state's work (13 R326, R329) -/

/-- The STRETCH of reset outputs begins. -/
def Chip.startStretch (s : Chip) (go : RstCfg → Bool) : Chip :=
  { s with pws := { s.pws with outs := s.pws.outs.map fun o => if o.low && go o.cfg then { o with counting := true } else o } }

/-- The chip's work in the state that runs judged: it holds the line until it is done, or for ever once it abandons the
sequence (13 R326, R327, R329). -/
def Chip.seqWork (s : Chip) : Chip :=
  let n := s.pws.state
  if s.pws.dir == 1 then
    let rails := s.pws.rails.zipIdx.map fun e => if e.2 < 16 && e.1.isOn then { e.1 with confirmed := true } else e.1
    let s1 := { s with pws := { s.pws with rails } }
    let up := (s1.stateRails n).all fun k => (s1.rail k).isOn
    let held (o : RstOut) : Bool := o.cfg.holdSeq && o.cfg.release == n
    let s2 := if up then s1.startStretch fun c => c.holdSeq && c.release == n else s1
    let done := up && s2.pws.outs.all fun o => !held o || !o.low
    { s2 with pws := { s2.pws with holding := !done || s2.pws.abandon } }
  else if s.pws.dir == 2 then
    let done := (s.stateRails n).all fun k => (s.rail k).isOff
    { s with pws := { s.pws with holding := !done || s.pws.abandon } }
  else s

/-- A state of the sequence entered (13 R326): its rails switched, and in a down sequence its outputs asserted (R329). -/
def Chip.seqState (s : Chip) (n : Nat) : Chip :=
  let ks := s.stateRails n
  let s1 := { s with pws := { s.pws with state := n } }
  if s.pws.dir == 1 then (ks.foldl (fun t k => t.modRail k fun r => { r with enabled := true }) s1).seqWork
  else
    let was := ks.any fun k => (s.rail k).enabled
    let outs := s1.pws.outs.map fun o => if o.cfg.assert == n then { o with low := true, counting := false } else o
    let s2 := { s1 with pws := { s1.pws with outs, offDone := s1.pws.offDone || was } }
    (ks.foldl (fun t k => t.modRail k Rail.off) s2).seqWork

/-- An up sequence begins (13 R325). -/
def Chip.beginUp (s : Chip) : Chip := ({ s with pws := { s.pws with dir := 1, abandon := false } }).seqState 0

/-- A down sequence begins (13 R325). -/
def Chip.beginDown (s : Chip) : Chip :=
  ({ s with pws := { s.pws with dir := 2, abandon := false, ended := false, offDone := false } }).seqState 15

/-- The line rises (13 R326): the next state, or the end of the sequence; the outputs that do not hold the line start their
STRETCH at the end of their release state (R329). -/
def seqSyncRiseEffect (s : Chip) : Chip :=
  if s.pws.holding || s.pws.abandon then s
  else if s.pws.dir == 1 then
    let s1 := s.startStretch fun c => !c.holdSeq && c.release == s.pws.state
    if s.pws.state == 15 then { s1 with pws := { s1.pws with dir := 0 } } else s1.seqState (s.pws.state + 1)
  else if s.pws.dir == 2 then
    if s.pws.state == 0 then { s with pws := { s.pws with dir := 0, ended := true } } else s.seqState (s.pws.state - 1)
  else s

def execSeqSyncRise (s : State) : Host.Outcome State Fault Refusal := .next (s.on seqSyncRiseEffect)

/-- STRETCH of a reset output has passed: it is released (13 R329). -/
def resetStretchEffect (j : Nat) (s : Chip) : Chip :=
  match s.pws.outs[j]? with
  | some o =>
    if o.counting then
      ({ s with pws := { s.pws with outs := setAt s.pws.outs j { o with low := false, counting := false } } }).seqWork
    else s
  | none => s

def execResetStretchExpiry (j : Nat) (s : State) : Host.Outcome State Fault Refusal := .next (s.on (resetStretchEffect j))

/-! ### Fault-off (13 R327, R328) -/

/-- Every drive port held in reset, with what its link and commands were. -/
def Drive.held (k : Drive) : Drive :=
  { k with perst := true, pulse := false, up := false, ready := false, enabled := false, shn := false, cmds := [], waitCmds := [] }

/-- Fault-off (13 R328): every rail off, every reset low, the fence asserted, SEQ_SYNC held low, FAULT. Nothing but the
always-on island is left powered. -/
def Chip.faultOff (s : Chip) (cause : Nat) : Chip :=
  let s1 := s.raise 0x0D 0xFFFF 4 4 0 [Config.openCode 0 cause]
  let s2 := s1.toFault 5
  let rails := s2.pws.rails.map Rail.off
  let outs := s2.pws.outs.map fun o => { o with low := true, counting := false }
  let s3 := { s2 with
    pws := { s2.pws with rails, outs, dir := 3, holding := true, abandon := false, ended := false },
    syz := { s2.syz with fenceOut := true },
    str := { s2.str with drives := s2.str.drives.map fun (e : Nat × Drive) => (e.1, e.2.held) } }
  (s3.emit (.seqSync true)).gate (List.range 24) true

/-- SEQ_SYNC has been low for more than 50 ms (13 R327): a sequence fault. -/
def sequenceFaultEffect (s : Chip) : Chip :=
  if !s.glb.aonUp || s.pws.dir == 3 then s
  else (s.raise 0x0D 0xFFFF 3 2 0 (le 4 (2 ^ 31 + s.pws.state))).faultOff 2

def execSequenceFault (s : State) : Host.Outcome State Fault Refusal := .next (s.on sequenceFaultEffect)

end Sys2Proof.Machine
end

