-- ==== Sys2Proof/Machine/Eclipse.lean ====
section
/-!
DEFINITION. Eclipse (13 R333 to R344): its steps, the drain, the seal, the way into SEALED or a warm resume, and planned
switchover (12 R316).
-/
namespace Sys2Proof.Machine

/-! ### Steps -/

/-- µs from the trigger. -/
def Chip.eclTime (s : Chip) : Nat := (s.now - s.ecl.t0) / 1000

/-- A step entered, with its time and its record (13 R334). -/
def Chip.eclStep (s : Chip) (n : Nat) : Chip :=
  ({ s with ecl := { s.ecl with step := n, times := setAt s.ecl.times n s.eclTime } }).raise 0x0E 0xFFFF 1 0 0
    (le 1 n ++ le 4 s.eclTime)

/-- A staging in progress abandoned (14 R371): its slot stays as it is. -/
def Chip.abandonStaging (s : Chip) : Chip :=
  if s.cfg.owner.isNone then s
  else { s with cfg := { s.cfg with owner := none, busy := false, cmd := 0, result := 4 } }

/-- A message given up with no statement about it (02 R33, 13 R335). -/
def Chip.abandonMsg (s : Chip) (c first : Nat) : Chip :=
  match s.msg c first with
  | none => s
  | some m =>
    let s1 := ((s.dropMsgCells c m).dropWaits c first).removeMsg c first
    let keep (a : Nat × Nat × Nat × Bool) : Bool := !(a.2.1 == c && a.2.2.1 == first)
    m.pages.foldl Chip.afterAtomic { s1 with lcc := { s1.lcc with banks := s1.lcc.banks.map fun (e : Nat × Bank) =>
        (e.1, { e.2 with atomic := e.2.atomic.filter keep }) } }

/-- Several messages given up; what they held back is judged again. -/
def Chip.abandonAll (s : Chip) (l : List (Nat × Msg)) : Chip :=
  let s1 := l.foldl (fun t x => t.abandonMsg x.1 x.2.first) s
  (s1.connIds.foldl (fun t c => (t.openGuard c).guard c) s1).drainEdit

/-- A read that waits for a fetch, or for the drives. -/
def Chip.readWaits (s : Chip) (m : Msg) : Bool :=
  m.op == 0x02 && (List.range m.lines).any fun i =>
    !bit m.done i && !bit m.lost i && !(s.page (pageOfLine (m.line i))).resident

/-- An atomic that waits for a set that is not ready. -/
def Chip.atomicWaits (s : Chip) (m : Msg) : Bool :=
  m.atomic && !m.allDone && m.pages.any fun p => !(s.page p).resident && !s.setUp (s.setOf p)

/-- Reads and atomics that E2 still has to finish. -/
def Chip.unfinished (s : Chip) : List (Nat × Msg) :=
  s.allMsgs.filter fun x => (x.2.op == 0x02 || x.2.atomic) && !x.2.allDone

/-- Reads and atomics abandoned, and counted (13 R335). -/
def Chip.giveUp (s : Chip) (l : List (Nat × Msg)) : Chip :=
  let n := (l.filter (·.2.atomic)).length
  let s1 := s.abandonAll l
  { s1 with ecl := { s1.ecl with atomics := s1.ecl.atomics + n, reads := s1.ecl.reads + (l.length - n) } }

/-- FLUSHes abandoned, and counted. -/
def Chip.dropFlushes (s : Chip) (go : FlushWait → Bool) : Chip :=
  let n := (s.xpt.conns.map fun e => (e.2.flushes.filter go).length).sum
  { s with xpt := { s.xpt with conns := s.xpt.conns.map fun (e : Nat × Conn) =>
             (e.1, { e.2 with flushes := e.2.flushes.filter fun f => !go f }) },
           ecl := { s.ecl with flushes := s.ecl.flushes + n } }

/-- E2 begins (13 R335): WRITEs not accepted are released, reads that wait and atomics that cannot be served are abandoned,
and FLUSHes at FLASH; the drive reads that atomics need are raised to class 1. -/
def Chip.beginE2 (s : Chip) : Chip :=
  let s1 := s.eclStep 2
  let s2 := s1.abandonAll (s1.allMsgs.filter fun x => x.2.op == 0x01)
  let s3 := s2.giveUp (s2.allMsgs.filter fun x => s2.readWaits x.2 || s2.atomicWaits x.2)
  let s4 := ((s3.allMsgs.filter (·.2.atomic)).flatMap (·.2.pages)).foldl (fun t p => t.raiseCmds (.fetch p) 1) s3
  (s4.dropFlushes fun f => f.level == 3).issueFetches

/-- Eclipse begins at E1, of a kind (1 Eclipse, 2 switchover), and goes on to E2 (13 R334). -/
def Chip.beginEclipse (s : Chip) (kind : Nat) : Chip :=
  let ecl : Ecl := { s.ecl with
    kind, t0 := s.now, times := List.replicate 7 0, atomics := 0, flushes := 0, reads := 0, undrained := 0, dirty0 := 0,
    overrun := false, sealSent := false, sealed := false, lostRegion := false, waiting := false, standby := s.glb.state = .umbra }
  let s1 := ({ s with ecl := ecl, dmc := { s.dmc with freqStop := s.dmc.freqBusy },
                      syz := { s.syz with replaying := false } }).enter .eclipse
  let s2 := ((s1.eclStep 1).abortHelpers).abandonStaging
  let s3 := s2.xpt.conns.foldl (fun t e => if e.2.st == .established then t.notify e.1 3 0 0 t.evr.head else t) s2
  s3.beginE2

/-- ECL_E2_LIMIT has passed: what is unfinished is abandoned (13 R335). -/
def e2LimitEffect (s : Chip) : Chip :=
  if s.glb.state != .eclipse || s.ecl.step != 2 then s else s.giveUp s.unfinished

def execE2LimitExpiry (s : State) : Host.Outcome State Fault Refusal := .next (s.on e2LimitEffect)

/-! ### E3 -/

/-- Every connection ends with D20 (13 R335). -/
def Chip.dropHosts (s : Chip) : Chip :=
  let s1 := (s.connIds.foldl Chip.freeConn s).gate [20] true
  { s1 with hpx := { s1.hpx with up := 0, paused := [] } }

/-- SEAL_NOTE ECLIPSE sent to a twin that is there (13 R334). -/
def Chip.noteEclipse (s : Chip) : Chip :=
  if s.syz.links == 0 && s.syz.partner.isNone then s
  else ({ s with syz := { s.syz with eclSent := true } }).syzSmall 0x46 [2, 0, 0]

/-- SEAL_NOTE SEALED sent, with the last journal position and the seal's stripe sequence, by a unit that was in UMBRA too (log 95). -/
def Chip.noteSealed (s : Chip) : Chip :=
  if s.syz.links == 0 && s.syz.partner.isNone then s
  else s.syzSmall 0x46 [3, s.syz.lastPos, s.str.lastSealed]

/-- E2 ends once no accepted work is left (13 R335) and the write-through buffers are empty (07 R187): D0 to D15 are gated, and E3 begins. -/
def e2CompleteEffect (s : Chip) : Chip :=
  if s.glb.state != .eclipse || s.ecl.step != 2 then s
  else
    let s1 := s.giveUp (s.allMsgs.filter fun x => s.readWaits x.2)
    if !s1.unfinished.isEmpty || s1.lcc.banks.any (fun e => !e.2.wtb.isEmpty) then s1
    else
      let s2 := if s1.ecl.kind == 2 then s1 else s1.gate (List.range 16) true
      (s2.eclStep 3).noteEclipse

def execE2Complete (s : State) : Host.Outcome State Fault Refusal := .next (s.on e2CompleteEffect)

/-! ### E4 (13 R336) -/

/-- E4 begins: rebuild stops, every delta page is fetched in class 1, and the sets that cannot be written are named. -/
def Chip.beginE4 (s : Chip) : Chip :=
  let s1 := { (s.eclStep 4) with ecl := { (s.eclStep 4).ecl with e4At := s.now } }
  let sets := s1.str.sets.map fun (e : Nat × StripeSet) => (e.1, if e.2.rbState == 1 then { e.2 with rbState := 2 } else e.2)
  let s2 := { s1 with ecl := { s1.ecl with dirty0 := (s1.pgm.pages.filter fun (e : Nat × Page) => e.2.charged).length },
                      str := { s1.str with sets } }
  let merged := ((s2.pgm.deltas.map fun (e : Nat × Delta) => pageOfLine e.1).eraseDups).foldl (fun (t : Chip) p => t.queueFetch p 1) s2
  (merged.issueFetches).judgeDrain

/-- E3 ends: unanswered FLUSHes and held reads are abandoned and counted, D20 is gated, and the drain begins. -/
def Chip.endE3 (s : Chip) : Chip :=
  let s1 := (s.giveUp (s.allMsgs.filter fun x => x.2.op == 0x02)).dropFlushes fun _ => true
  let e := s1.ecl
  let s2 := if e.atomics + e.flushes + e.reads == 0 then s1
    else s1.raise 0x0E 0xFFFF 2 1 0 (le 4 e.atomics ++ le 4 e.flushes ++ le 4 e.reads)
  (if e.kind == 2 then s2 else s2.dropHosts).beginE4

/-- The end of step E3. -/
def e3CompleteEffect (s : Chip) : Chip := if s.glb.state != .eclipse || s.ecl.step != 3 then s else s.endE3

def execE3Complete (s : State) : Host.Outcome State Fault Refusal := .next (s.on e3CompleteEffect)

/-! ### E5 (13 R337) -/

/-- The block that holds EVR_HEAD written to both journal positions of the map set in class 1 (16 R394). -/
def Chip.copyHead (s : Chip) : Chip := match s.mapSet with
  | some m => if s.setUp m then s.copyBlock m (s.evr.head / 4096) 1 else s
  | none => s

/-- Charged pages that the drain still has to seal (13 R336). -/
def Chip.drainLeft (s : Chip) : List (Nat × Page) := s.pgm.pages.filter fun e => e.2.charged && !bit s.ecl.undrained (s.setOf e.1)

/-- The seal of Table 13-7 as this unit writes it (13 R337; 16 R402 clears flag 1 where a silicon region was fenced). The change
log is complete once no record of it is outstanding. -/
def Chip.deviceSeal (s : Chip) : Seal := {
  kind := s.ecl.kind
  flags := b2n s.ecl.overrun + 2 * b2n (s.ecl.undrained == 0 && !s.ecl.lostRegion) + 4 * b2n (!s.cfg.pend.any fun e => e.1 == 0)
  undrained := s.ecl.undrained
  writer := s.sec.writer
  epoch := s.glb.epoch
  boot := s.glb.boot
  seq := s.str.lastSealed
  pos := s.syz.lastPos
  records := (List.range 4).map fun i => (s.set i).jseq
  head := s.evr.head
  drain := s.ecl.times.getD 5 0
  rate := s.ecl.e4Rate
  dirty := s.ecl.dirty0 * 65536
  remap := s.dmc.chans.map fun e => (e.1, e.2.remap) }

/-- The seal written in class 1 to its slot on every present position of a ready set (13 R337). -/
def Chip.sealWrites (s : Chip) (x : Seal) (i : Nat) : Chip :=
  if s.setUp i then (s.set i).presentPos.foldl (fun t p => t.posCmd i p 1 (.write (256 + x.seq % 256) 1 (sealBytes x)) .deviceSeal) s else s

/-- The seal goes out once the records of the configuration store are complete (13 R337; log 100). A unit that was in UMBRA writes
none. -/
def Chip.writeSeal (s : Chip) : Chip :=
  if s.glb.state != .eclipse || s.ecl.step != 5 || s.ecl.standby || s.ecl.sealSent || !s.cfg.pend.isEmpty then s
  else
    let x := s.deviceSeal
    (List.range 4).foldl (fun t i => t.sealWrites x i)
      { s with ecl := { s.ecl with sealSent := true }, str := { s.str with seals := s.str.seals ++ [x] } }

/-- E5 begins (13 R336, R337, R340), with the drain's rate, the power record and the recorder's block; the seal is
written last (log 100). -/
def Chip.beginE5 (s : Chip) : Chip :=
  let t := s.eclTime
  let dur := (s.now - s.ecl.e4At) / 1000
  let rest := (s.pgm.pages.filter fun e => e.2.charged).length
  let rate := if s.ecl.standby then s.ecl.rate
    else if 10000 ≤ dur ∧ rest < s.ecl.dirty0 then (s.ecl.dirty0 - rest) * 65536 / dur
    else Nat.min s.ecl.start s.ecl.low
  let e4 := if 10000 ≤ dur ∧ rest < s.ecl.dirty0 then rate else 0
  let s1 := { s with ecl := { s.ecl with rate, e4Rate := e4, overrun := s.par 0xE00000 < t } }
  let s2 := (s1.eclStep 5)
  let s3 := ({ s2 with evr := { s2.evr with asked := s2.evr.head } }).askPower s2.evr.head
  if s3.ecl.standby then s3 else (s3.copyHead).writeSeal

/-- The drain ends once every charged page of the sets that are drained is sealed (13 R336). -/
def drainCompleteEffect (s : Chip) : Chip :=
  if s.glb.state != .eclipse || s.ecl.step != 4 || !s.drainLeft.isEmpty then s else s.beginE5

def execDrainComplete (s : State) : Host.Outcome State Fault Refusal := .next (s.on drainCompleteEffect)

/-! ### E6 (13 R338) -/

/-- A warm resume is allowed (13 R343; 16 R402): nothing undrained, no DRAM-class rail fault, no silicon region lost
(log 96). -/
def Chip.eligible (s : Chip) : Bool := s.ecl.undrained == 0 && !s.ecl.dramFault && !s.ecl.lostRegion

/-- The drives are shut down: the rest of the domains are gated, and the down sequence begins (13 R338 steps 5 and 6). -/
def Chip.powerDown (s : Chip) : Chip :=
  let drives := s.str.drives.map fun (e : Nat × Drive) => (e.1, e.2.held)
  let s1 := ({ s with str := { s.str with drives } }).gate (List.range 24) true
  (s1.emit (.startPulse true)).beginDown

/-- Drive ports whose shutdown E6 waits for (09 R229); a unit that was in UMBRA issues no command to its drives. -/
def Chip.shutting (s : Chip) : List Nat :=
  if s.ecl.standby then [] else (List.range s.nDrives).filter fun d => (s.drive d).ready && !(s.drive d).shut

/-- E6 begins (13 R338): the notes, the fence, self-refresh, and the shutdown of the drives. -/
def Chip.beginE6 (s : Chip) : Chip :=
  let s1 := s.eclStep 6
  let again := s1.syz.eclSent
  let t := s1.noteSealed
  let s2 := if again then t.noteEclipse else t
  let s3 := { s2 with syz := { s2.syz with fenceOut := true } }
  let s4 := s3.dmc.map.foldl Chip.stopChannel s3
  let s5 := s4.shutting.foldl (fun t d => t.nvme d 1 .flush) s4
  if s5.shutting.isEmpty then s5.powerDown else s5

/-- A drive's shutdown has completed, or its limit has passed (09 R229): its reset is driven low. -/
def driveShutdownEffect (d : Nat) (s : Chip) : Chip :=
  if s.glb.state != .eclipse || s.ecl.step != 6 || !s.shutting.contains d then s
  else
    let s1 := s.modDrive d fun k => { k.held with shut := true }
    if s1.shutting.isEmpty then s1.powerDown else s1

def execDriveShutdownComplete (d : Nat) (s : State) : Host.Outcome State Fault Refusal := .next (s.on (driveShutdownEffect d))

/-! ### The end of a switchover (12 R316) -/

/-- The result of a switchover, with its record. -/
def Chip.switchResult (s : Chip) (r : Nat) : Chip :=
  ({ s with syz := { s.syz with swResult := r } }).raise 0x0C 0xFFFF 5 0 0 (le 1 r)

/-- The unit hands over (12 R316 steps 2 and 4): SEAL_NOTE SEALED, ROLE SWITCH_GO, reservations released, connections ended,
UMBRA. What its frames held is sealed, so they are dropped; the drives learn of a new writer. -/
def Chip.switchDone (s : Chip) : Chip :=
  let s1 := (s.noteSealed).sendRole 5 0 s.syz.lastPos
  let s2 := s1.memberDrives.foldl (fun t d => (t.modDrive d fun k => { k with holder := false, registered := false }).admin d
    (.release s.sec.writer)) s1
  let s3 := s2.connIds.foldl Chip.freeConn s2
  let s4 := (s3.setPair .noTwin).dropFrames false
  let sets := s4.str.sets.map fun (e : Nat × StripeSet) => (e.1, { e.2 with
    st := SetState.waiting, scanned := false, slotScan := false, copying := none, visit := none, rbRead := none, scanAt := none, opened := none, segs := [], jcopy := none })
  let banks := s4.lcc.banks.map fun (e : Nat × Bank) => (e.1, { Bank.blank with errs := e.2.errs, rr := e.2.rr })
  let s5 := { s4 with
    pgm := { s4.pgm with
      pages := [], freed := [], nextFrame := 0, frames := [], deltas := [], poison := [], wrote := [], root := false, l2 := false, l2s := [], leaves := [], pendLeaf := [],
      tcache := [],
      l1s := [], lnodes := [], mapReads := [], queue := [], fetchWaits := [], reserved := [], wants := [], bgDone := false },
    lcc := { s4.lcc with banks }, str := { s4.str.forget with sets, seq := 1, locks := [], reuse := [] }, ecl := { s4.ecl with step := 0, kind := 0 },
    syz := { s4.syz with role := .umbra, last := .umbra, join := 2, caughtUp := false, entries := [], mirrorLeft := [], age := 0 } }
  let s6 := s5.switchResult 1
  ({ s6 with syz := { s6.syz with swSeq := s6.evr.head } }).enterUmbra

/-- A switchover that a trigger turns into Eclipse (13 R332): gating follows from the step reached, and times count from the trigger
(R334; log 98). -/
def Chip.switchToEclipse (s : Chip) : Chip :=
  let s1 := ({ s with ecl := { s.ecl with kind := 1, t0 := s.now, times := List.replicate 7 0 } }).switchResult 3
  let s2 := if 3 ≤ s1.ecl.step then s1.gate (List.range 16) true else s1
  if 4 ≤ s2.ecl.step then s2.dropHosts else s2

/-- SYZ_CTL.SWITCH written (12 R316): refused unless the unit is ACTIVE and PAIRED. -/
def switchoverEffect (s : Chip) : Chip :=
  if s.glb.state = .active ∧ s.syz.pair = .paired then
    s.beginEclipse 2
  else ({ s with syz := { s.syz with swResult := 2 } }).raise 0x0C 0xFFFF 5 0 0 [2]

def execSwitchover (ses : Session) (s : State) : Host.Outcome State Fault Refusal :=
  .next (s.on fun c => c.asRole ses 23 1 switchoverEffect)

/-! ### The end of E5, and input that returns (13 R343) -/

/-- VIN_SNS reads above its under-warning by more than 4 mV: input rises. -/
def Chip.inputRises (s : Chip) : Bool := (s.rail 16).cfg.uvWarn + 8 < (s.rail 16).code

/-- Every write of E5 has completed, the seal's among them (13 R337): a warm resume, the wait for input, or E6. -/
def sealWrittenEffect (s : Chip) : Chip :=
  if s.glb.state != .eclipse || s.ecl.step != 5 || s.ecl.waiting || !s.cfg.pend.isEmpty || s.inFlight .deviceSeal then s
  else
    let s1 := if s.ecl.standby then s else { s with ecl := { s.ecl with sealed := true } }
    if s1.ecl.kind == 2 then s1.switchDone
    else if s1.pws.returned && s1.eligible then s1.beginStart true
    else if s1.inputRises && s1.eligible then { s1 with ecl := { s1.ecl with waiting := true } }
    else s1.beginE6

def execSealWritten (s : State) : Host.Outcome State Fault Refusal := .next (s.on sealWrittenEffect)

/-- The wait at the end of E5 has run out (13 R343). -/
def returnWaitEffect (s : Chip) : Chip :=
  if s.glb.state == .eclipse && s.ecl.step == 5 && s.ecl.waiting then
    ({ s with ecl := { s.ecl with waiting := false } }).beginE6
  else s

def execReturnStableWaitExpiry (s : State) : Host.Outcome State Fault Refusal := .next (s.on returnWaitEffect)

/-- Input has been back for ECL_RETURN_STABLE (13 R343): recorded in E1 to E4, a warm resume at the end of E5 or in E6 before
any rail is off, and otherwise, once a down sequence has run, the wait for PWS_MIN_OFF in SEALED (log 94). -/
def inputReturnedEffect (s : Chip) : Chip :=
  if s.glb.state != .eclipse && s.glb.state != .sealed && s.pws.dir != 2 && !s.pws.ended then { s with pws := { s.pws with pfail := false } }
  else
    let s1 := { s with pws := { s.pws with pfail := false, returned := true, returnAt := s.now } }
    if s1.glb.state = .sealed then { s1 with pws := { s1.pws with minOff := true } }
    else if s1.glb.state == .eclipse && ((s1.ecl.step == 5 && s1.ecl.waiting) || (s1.ecl.step == 6 && !s1.pws.offDone)) && s1.ecl.kind == 1 && s1.eligible then
      s1.beginStart true
    else s1

def execInputReturned (s : State) : Host.Outcome State Fault Refusal := .next (s.on inputReturnedEffect)

end Sys2Proof.Machine
end

