-- ==== Sys2Proof/Machine/Power.lean ====
section
/-!
DEFINITION. Power supervision (13 R320 to R331): rail samples, the Eclipse triggers, start pulses, PWR_GOOD_IN, and the
always-on island's own reset and supply (18 R446, R447).
-/
namespace Sys2Proof.Machine

/-! ### Triggers (13 R330, R333) -/

/-- A start goes no further. -/
def Chip.stopStart (s : Chip) : Chip :=
  { s with cfg := { s.cfg with begun := false, phase := 0, dramDone := false, roleDone := false, gateOpen := false } }

/-- The down sequence with no drain (13 R333). An up sequence that runs cannot be reversed: the chip abandons it, and holds
the line until the sequence fault (R327). -/
def Chip.downNow (s : Chip) : Chip :=
  if s.pws.dir == 1 then ({ s with pws := { s.pws with abandon := true, holding := true } }).emit (.seqSync true)
  else if s.pws.dir == 0 then (s.emit (.startPulse true)).beginDown
  else s

/-- An Eclipse trigger (13 R333), by the state it finds (log 89). -/
def Chip.powerTrigger (s : Chip) : Chip :=
  match s.glb.state with
  | .active => s.beginEclipse 1
  | .takeover => s.beginEclipse 1
  | .umbra => s.beginEclipse 1
  | .eclipse => if s.ecl.kind == 2 then s.switchToEclipse else s
  | .start => s.stopStart.downNow
  | .maintenance => s.stopStart.downNow
  | .fault => s.downNow
  | .off => s
  | .sealed => s

/-- Input is no longer there: what its return had begun ends, the wait at the end of E5 among it. -/
def Chip.inputLost (s : Chip) : Chip :=
  let s1 := { s with pws := { s.pws with returned := false, minOff := false } }
  if s1.ecl.waiting && s1.glb.state == .eclipse then ({ s1 with ecl := { s1.ecl with waiting := false } }).beginE6 else s1

/-- PWR_FAIL_N has been low for 1 µs (13 R324). -/
def pwrFailEffect (s : Chip) : Chip :=
  if !s.glb.aonUp then s
  else (({ s with pws := { s.pws with pfail := true } }).inputLost).powerTrigger

def execPwrFail (s : State) : Host.Outcome State Fault Refusal := .next (s.on pwrFailEffect)

/-! ### Rail samples (13 R320, R321) -/

/-- The threshold of a flag: 0 UV_WARN, 1 UV_FAULT, 2 OV_WARN, 3 OV_FAULT (17, PWS_RAIL_STS). -/
def railLevel (c : RailCfg) (f : Nat) : Nat := [c.uvWarn, c.uvFault, c.ovWarn, c.ovFault].getD f 0

/-- The event item of a threshold: its place in R321's order, from under-fault up (log 87). -/
def thresholdCode (f : Nat) : Nat := [1, 0, 2, 3].getD f 0

/-- A reading beyond a threshold. -/
def Rail.beyondNow (r : Rail) (f : Nat) : Bool := if f < 2 then r.code < railLevel r.cfg f else railLevel r.cfg f < r.code

/-- A reading back inside a threshold by at least 4 mV, eight codes. -/
def Rail.insideNow (r : Rail) (f : Nat) : Bool :=
  if f < 2 then railLevel r.cfg f + 8 ≤ r.code else r.code + 8 ≤ railLevel r.cfg f

/-- A threshold applies (13 R321, R324, Table 13-4): over-thresholds always, an under-threshold of a rail once it is
confirmed on and while the unit is neither SEALED nor in FAULT. -/
def Chip.thresholdOn (s : Chip) (k f : Nat) : Bool :=
  (s.rail k).cfg.monEn &&
  (2 ≤ f || k == 16 || ((s.rail k).confirmed && s.glb.state != .sealed && s.glb.state != .fault))

/-- A fault crossing (13 Table 13-1, R342): its event, and the action of its direction. VIN_SNS takes none (R324). In E6 the records name
the rail and the state of the sequence. -/
def Chip.faultCrossing (s : Chip) (k f : Nat) : Chip :=
  let r := s.rail k
  let act := if k == 16 then 0 else if f == 1 then r.cfg.actUv else r.cfg.actOv
  let s1 := s.raise 0x0D k 2 3 0 (le 1 k ++ le 1 (thresholdCode f) ++ le 2 r.code ++ le 1 act)
  let s2 := if r.cfg.dram && k != 16 then { s1 with ecl := { s1.ecl with dramFault := true } } else s1
  if s2.glb.state = .eclipse ∧ s2.ecl.step = 6 ∧ r.enabled then (s2.raise 0x0D 0xFFFF 3 2 0 (le 4 (2 ^ 31 + s2.pws.state))).faultOff 1
  else if act == 1 then s2.powerTrigger
  else if act == 2 then s2.toFault 4
  else if act == 3 then s2.faultOff 0
  else s2

/-- A crossing recognised: flag, counter and event; the under-warning of VIN_SNS is an Eclipse trigger (13 R321, R324). -/
def Chip.crossing (s : Chip) (k f : Nat) : Chip :=
  let s1 := (s.modRail k fun r => { r with flags := setBit r.flags f true, active := setBit r.active f true }).count
    (0xD00400 + 0x10 * k + 4 * f)
  if f % 2 == 1 then s1.faultCrossing k f
  else
    let s2 := s1.raise 0x0D k 1 2 1 (le 1 k ++ le 1 (thresholdCode f) ++ le 2 (s.rail k).code)
    if k == 16 && f == 0 then (s2.inputLost).powerTrigger else s2

/-- One threshold of a rail judged on its new sample (13 R321). -/
def Chip.judgeThreshold (s : Chip) (k f : Nat) : Chip :=
  let r := s.rail k
  let set_ (b i : Nat) (s : Chip) : Chip :=
    s.modRail k fun r => { r with beyond := setAt r.beyond f b, inside := setAt r.inside f i }
  if !s.thresholdOn k f then (set_ 0 0 s).modRail k fun r => { r with active := setBit r.active f false }
  else if bit r.active f then
    let n := if r.insideNow f then r.inside.getD f 0 + 1 else 0
    if r.cfg.filt ≤ n then (set_ 0 0 s).modRail k fun r => { r with active := setBit r.active f false } else set_ 0 n s
  else
    let n := if r.beyondNow f then r.beyond.getD f 0 + 1 else 0
    if r.cfg.filt ≤ n then (set_ 0 0 s).crossing k f else set_ n 0 s

/-- One input sampled. -/
def Chip.sampleRail (s : Chip) (k code : Nat) : Chip :=
  (List.range 4).foldl (fun t f => t.judgeThreshold k f) (s.modRail k fun r => { r with code })

/-- The supervisor ADC samples every input (13 R320); the work of a sequence state is judged on what the rails now read. -/
def railSampleEffect (codes : List Nat) (s : Chip) : Chip :=
  if !s.glb.aonUp then s
  else (((codes.take 17).zipIdx).foldl (fun t e => t.sampleRail e.2 (e.1 % 4096)) s).seqWork

def execRailSample (codes : List Nat) (s : State) : Host.Outcome State Fault Refusal := .next (s.on (railSampleEffect codes))

/-! ### Start pulses and PWR_GOOD_IN (13 R325, R330) -/

/-- A low interval on the idle line, in µs (13 R325): UP is joined in START, DOWN where R330 lets it, and any other width
below 50 ms is recorded (log 93). -/
def startPulseEffect (us : Nat) (s : Chip) : Chip :=
  let note (t : Chip) : Chip := t.raise 0x0D 0xFFFF 3 2 0 (le 4 us)
  if !s.glb.aonUp || s.pws.dir != 0 || 50000 ≤ us then s
  else if 150 ≤ us && us ≤ 600 then (if s.glb.state == .start then s.beginUp else s)
  else if 800 ≤ us && us ≤ 2000 then
    match s.glb.state with
    | .active => (note s).powerTrigger
    | .takeover => (note s).powerTrigger
    | .umbra => (note s).powerTrigger
    | .eclipse => (note s).powerTrigger
    | .start => (s.stopStart).beginDown
    | .maintenance => (s.stopStart).beginDown
    | _ => s.beginDown
  else note s

def execStartPulse (us : Nat) (s : State) : Host.Outcome State Fault Refusal := .next (s.on (startPulseEffect us))

/-- A start on PWR_GOOD_IN: the master sends the UP start pulse, and the up sequence runs once the line has risen from it
(13 R325; log 195). What fault-off held is released. -/
def Chip.coldStart (s : Chip) : Chip :=
  let held := s.pws.dir == 3
  let s0 := { s with pws := { s.pws with dir := 0, holding := false, abandon := false } }
  let s1 := (if held then s0.emit (.seqSync false) else s0).beginStart false
  let s2 := { s1 with pws := { s1.pws with pgood := true, state := 0 } }
  if s2.pws.master then s2.emit (.startPulse false) else s2

/-- PWS_MIN_OFF has passed since SEALED or FAULT was entered (13 R328, Table 13-4; log 88). -/
def Chip.restedOff (s : Chip) : Bool := s.pws.offAt + s.par 0xD00008 * 1000000 ≤ s.now

/-- PWR_GOOD_IN rises (13 R325, R328, Table 13-4): a start in START, and after PWS_MIN_OFF in SEALED and FAULT, where no sequence
runs (R327); otherwise only recorded (log 88). -/
def pwrGoodInEffect (s : Chip) : Chip :=
  if !s.glb.aonUp then s
  else
    let rec_ := { s with pws := { s.pws with pgood := true } }
    let still := s.pws.dir == 0 || s.pws.dir == 3
    match s.glb.state with
    | .start => if s.cfg.begun || !still then rec_ else s.coldStart
    | .sealed => if s.restedOff && still then s.coldStart else rec_
    | .fault => if s.restedOff && still then s.coldStart else rec_
    | _ => rec_

def execPwrGoodIn (s : State) : Host.Outcome State Fault Refusal := .next (s.on pwrGoodInEffect)

/-- PWS_MIN_OFF has passed in SEALED with input back: the device starts normally (13 R343). -/
def minOffEffect (s : Chip) : Chip := if s.glb.state = .sealed ∧ s.pws.minOff then s.coldStart else s

def execMinOffExpiry (s : State) : Host.Outcome State Fault Refusal := .next (s.on minOffEffect)

/-- SEALED entered (13 Table 13-4): every drive reset low; where input is back, the start waits for PWS_MIN_OFF. -/
def Chip.toSealed (s : Chip) : Chip :=
  let drives := s.str.drives.map fun (e : Nat × Drive) => (e.1, e.2.held)
  let s1 := ({ s with str := { s.str with drives } }).enter .sealed
  { s1 with pws := { s1.pws with minOff := s1.pws.returned, offAt := s1.now } }

/-- The down sequence has ended with the always-on island powered (13 R338; 16 R402): SEALED, or FAULT where the unit was in
FAULT or lost a silicon region to a fence during the drain. -/
def downSequenceEndEffect (s : Chip) : Chip :=
  if !s.pws.ended then s
  else
    let s1 := ({ s with pws := { s.pws with ended := false } }).gate (List.range 24) true
    if s1.glb.state = .eclipse then
      if s1.ecl.lostRegion then s1.toFault 2
      else
        ({ s1 with ecl := { s1.ecl with step := 0 } }).toSealed
    else if s1.glb.state = .start ∨ s1.glb.state = .maintenance then
      ({ s1 with syz := { s1.syz with fenceOut := true } }).toSealed
    else s1

def execDownSequenceEnd (s : State) : Host.Outcome State Fault Refusal := .next (s.on downSequenceEndEffect)

/-! ### The always-on island (18 R446, R447) -/

/-- The registers take the provisioned power table (13 R323). -/
def Pws.take (p : Pws) (t : PowerTable) : Pws :=
  { p with
    rails := t.rails.map fun e => { Rail.blank with cfg := e.1 }, bounds := t.rails.map (·.2),
    outs := t.resets.map fun c => { RstOut.blank with cfg := if 40 < c.stretch then { c with holdSeq := false } else c },
    master := t.master }

/-- The always-on island leaves reset (18 R447): the straps are sampled, and the power table read. -/
def aonReleaseEffect (otp : Otp) (straps : Nat) (s : Chip) : Chip :=
  if s.glb.aonUp then s
  else
    let p := match otp.powerTable with
      | some t => Pws.reset.take t
      | none => Pws.reset
    { s with
      glb := { s.glb with aonUp := true, straps := straps % 4, state := .start }, pws := p,
      sec := { s.sec with writer := writerOf otp }, syz := { s.syz with fenceOut := false } }

def execAonResetRelease (straps : Nat) (s : State) : Host.Outcome State Fault Refusal :=
  .next (s.on (aonReleaseEffect s.otp straps))

def execAlwaysOnSupplyLoss (s : State) : Host.Outcome State Fault Refusal := .next (s.on Chip.powerLost)

end Sys2Proof.Machine
end

