-- ==== Sys2Proof/Machine/RegMap.lean ====
section
/-!
DEFINITION. The address map of the registers (17 R413, R419, R421, R435): the domain of an address, the counters that a
read clears, the registers whose layout the spec leaves open, and the words of those that more than one field shares.
-/
namespace Sys2Proof.Machine

/-! ### Domains (17 Table 17-2) -/

/-- Power domain of a register: 0 to 23, or 24 for the always-on island. -/
def regDomain (a : Nat) : Nat :=
  let b := a / 0x100000
  let o := a % 0x100000
  if b == 0 || b == 0x0D || b == 0x12 || a == 0x1000010 then 24
  else if b == 1 then 20
  else if b == 4 && o < 0x40000 then o / 0x400 / 16
  else if b == 6 && o < 0x20000 then 16 + o / 0x800 / 16
  else if b == 8 && o < 0x10000 then 22
  else if b == 0x0A && o < 0xC0000 then 16 + o / 0x10000 / 3
  else 23

/-- The registers of an address answer (17 R413): its domain is powered, or the always-on island is out of reset. -/
def Chip.regOn (s : Chip) (a : Nat) : Bool :=
  if regDomain a == 24 then s.glb.aonUp else s.domainOn (regDomain a)

/-! ### Counters (17 R416) -/

/-- A counter of 32 bits that a read may clear, at its own address, in an instance that the variant has. -/
def Chip.isCounter (s : Chip) (a : Nat) : Bool :=
  let o := a % 0x100000
  match a / 0x100000 with
  | 0x00 => inArray a 0x20 4 4
  | 0x03 => a == 0x300100 || inArray a 0x300110 5 4
  | 0x04 => o < 0x400 * s.comets && [0, 4, 0x10, 0x14, 0x18].contains (o % 0x400)
  | 0x05 => a == 0x500018 || inArray a 0x500030 4 4 || inArray a 0x500040 5 4
  | 0x06 => a == 0x6E0024 || (o < 0x800 * s.nBanks && inArray (o % 0x800) 0 12 4)
  | 0x07 => a == 0x700030 || a == 0x700038 || a == 0x70003C || inArray a 0x700100 5 4
  | 0x09 => inArray a 0x900360 5 4
  | 0x0A => o < 0x10000 * s.nChans && inArray (o % 0x10000) 0x10 4 4
  | 0x0B =>
    inArray a 0xB00080 s.nChans 4 || inArray a 0xB000C0 s.nChans 4 || inArray a 0xB00100 s.nChans 4 ||
    (inArray (a - 0xB00200) 0 (16 * s.nChans) 4 && 0xB00200 ≤ a && (o - 0x200) % 0x40 / 4 < 10) ||
    (inArray (a - 0xB00600) 0 (8 * s.nChans) 4 && 0xB00600 ≤ a && (o - 0x600) % 0x20 / 4 < 6)
  | 0x0C => a == 0xC00028
  | 0x0D => inArray a 0xD00400 68 4
  | 0x10 => a == 0x1000048
  | 0x11 => a == 0x1100080 || a == 0x1100084 || a == 0x1100088
  | 0x12 => a == 0x1200010
  | _ => false

/-! ### Registers whose words the spec leaves open (log 17) -/

/-- What STR_JRNL_STS of a set reports (09 R241, R247): journal positions, copies in service, ring fill, a scan in progress and
its elapsed ms. -/
def Chip.jrnlStatus (s : Chip) (i : Nat) : List Nat :=
  let t := s.set i
  t.jpos ++ t.jlive ++ [t.jpos.length, t.jlive.length, t.jseq - t.jckpt, b2n t.scanAt.isSome,
    match t.scanAt with
    | some k => (s.now - k) / 1000000
    | none => t.scanMs]

/-- What STR_MEMBER_STS of a position reports (09 R250): its drive port, state and errors. -/
def Chip.memberStatus (s : Chip) (i p : Nat) : List Nat := match (s.set i).pos[p]? with
  | some x => [match x.drive with
      | some d => d + 1
      | none => 0, b2n x.ready, b2n x.lost, x.errors.length]
  | none => [0, 0, 0, 0]

/-- The contents of a register whose layout no table gives (log 17). -/
def Chip.contents (s : Chip) (a : Nat) : Option (List Nat) :=
  let o := a % 0x10000
  if inArray a 0x900400 16 4 then some (s.jrnlStatus ((o - 0x400) / 16))
  else if inArray a 0x901000 512 4 then some (s.memberStatus ((o - 0x1000) / 0x200) (o % 0x200 / 16))
  else if 0xA00000 ≤ a && a < 0xA00000 + 0x10000 * s.nChans && (o == 0x84 || o == 0x88) then
    let k := s.chan ((a - 0xA00000) / 0x10000)
    some [b2n k.mgBusy, k.mgResult, k.mgWidth, k.mgHeight, k.mgErrors]
  else if 0xA00000 ≤ a && a < 0xA00000 + 0x10000 * s.nChans && inArray o 0x100 40 4 then
    some (match (s.chan ((a - 0xA00000) / 0x10000)).lanes[(o - 0x100) / 16]? with
      | some l => [l.rdDelay, l.wrDelay, l.rdEye, l.wrEye, l.rdVref, l.wrVref]
      | none => [])
  else none

/-- Such a word: 0 while its contents are those of reset (17 Table 17-20). -/
def contentsWord (a : Nat) (l : List Nat) : Nat := if l.all (· == 0) then 0 else (Config.statusWord a l).toNat

/-! ### 64-bit values that a low-word read latches (17 R418, 16 R392) -/

/-- Low-word addresses of the values held in two registers. -/
def latchAddrs : List Nat := [0x1100000, 0x1100008, 0x1100010, 0x1100100, 0xC00014, 0x1200040, 0x6E0010, 0x6E0018]

/-- The low-word address of the value whose high word an address is. -/
def latchOf (a : Nat) : Option Nat := if latchAddrs.contains (a - 4) && 4 ≤ a then some (a - 4) else none

/-- The current value at a low-word address. -/
def Chip.wide (s : Chip) (a : Nat) : Nat :=
  if a == 0x1100000 then s.evr.head
  else if a == 0x1100008 then s.evr.tail
  else if a == 0x1100010 then s.evr.cursor
  else if a == 0x1100100 then s.evr.arch
  else if a == 0xC00014 then s.syz.swSeq
  else if a == 0x1200040 then s.flt.alertSeq
  else s.par a + s.par (a + 4) * 2 ^ 32

/-! ### Words that fields share -/

/-- XPT_CONN_STS of a connection, word `k` (17 Table 17-7); a FREE connection reads 0 (R420). -/
def Chip.connWord (s : Chip) (c k : Nat) : Nat := match s.conn c with
  | none => 0
  | some x =>
    if k == 0 then
      let throttled := (List.range s.nChans).any fun n => (s.chan n).throttles.any (·.conn == c)
      x.st.code + b2n x.mgmt * 8 + x.group * 16 + b2n throttled * 1024 + b2n (x.mgmt && x.codes != 0) * 2048 + x.home * 65536
    else if k == 1 then x.guardFull
    else if k == 2 then x.cum
    else match x.adv with
      | (_, wp, wb) :: _ => wp + wb / 8192 * 65536
      | [] => 0

/-- RGN_EDIT_OWNER as a session reads it (17 Table 17-21). -/
def Chip.ownerWord (s : Chip) (q : Session) : Nat :=
  b2n (s.rgn.path != 0) * 4 + b2n (s.ownsEdit q) * 8 + s.rgn.path * 16 + s.rgn.conn * 65536

/-- RGN_EDIT_STS word 0 (17 Table 17-23). -/
def Chip.editWord (s : Chip) : Nat :=
  b2n s.rgn.busy + s.rgn.result * 16 + b2n s.rgn.overrun * 128 + b2n s.rgn.persisted * 256 + s.rgn.foreign * 65536

/-- LCC_STS (17 Table 17-9). -/
def Chip.lccWord (s : Chip) : Nat := b2n s.lcc.enAck + b2n s.lcc.staleRisk * 2 + b2n s.lcc.overrun * 4

/-- PGM_MAP_STS word 0 (17 Table 17-3). -/
def Chip.mapWord (s : Chip) : Nat :=
  b2n s.pgm.root + b2n s.pgm.l2 * 2 + b2n s.pgm.bgDone * 4 + s.pgm.l1s.length % 16384 * 16

/-- The STR_SET_CFG value that a read returns: the pending one, where a live write is held (14 R368). -/
def Chip.setCfgShown (s : Chip) (i : Nat) : SetCfg := (Tab.find s.str.pend i).getD (s.set i).cfg

/-- STR_REBUILD_STS of a set, word `k` (17 Table 17-12). -/
def StripeSet.rebuildWord (t : StripeSet) (k : Nat) : Nat :=
  if k == 0 then t.rbState + t.rbPos * 256 + t.rbDrive * 65536
  else if k == 1 then t.rbSlot else if k == 2 then t.rbRemain else t.rbLost

/-- DMC_TRAIN_STS (17 Table 17-13). -/
def Channel.trainWord (k : Channel) : Nat :=
  k.train + k.speed * 4 + k.rankPass % 256 * 256 + k.lane % 16 * 2 ^ 20 + k.dir % 2 * 2 ^ 24 + Nat.min 127 k.eye * 2 ^ 25

/-- DMC_REFRESH_DEBT (17 Table 17-14): the rank with the largest debt, the lowest of equals. -/
def Channel.debtWord (k : Channel) : Nat :=
  let top := maxOf (k.debt.map (·.2))
  let rank := match k.debt.find? fun (e : Nat × Nat) => e.2 == top with
    | some e => e.1
    | none => 0
  Nat.min 65535 top + b2n (bit k.doubled rank) * 65536 + rank % 16 * 2 ^ 20

/-- PWS_SEQ_STATE (17 Table 17-16). -/
def Chip.seqWord (s : Chip) : Nat :=
  s.pws.state % 16 + s.pws.dir * 16 + b2n s.pws.holding * 64 + b2n s.pws.master * 128

/-- PWS_RAIL_CFG of an input, word `w` (17 Table 17-15): input 16 has no sequence states. -/
def railWord (c : RailCfg) (vin : Bool) (w : Nat) : Nat :=
  if w == 0 then c.uvFault + c.uvWarn * 65536
  else if w == 1 then c.ovWarn + c.ovFault * 65536
  else if w == 2 then
    c.offLevel + c.filt % 16 * 2 ^ 16 + c.actUv * 2 ^ 20 + c.actOv * 2 ^ 22 + b2n c.dram * 2 ^ 24 + b2n c.monEn * 2 ^ 31
  else (if vin then 31 else c.upState) + (if vin then 31 else c.downState) * 256

/-- PWS_RST_CFG of an output, word 0 (17 Table 17-20). -/
def rstWord (c : RstCfg) : Nat := c.release + c.assert * 16 + b2n c.holdSeq * 256 + b2n c.onFault * 512

/-- ECL_STS, word `e` (17 Table 17-3). -/
def Chip.eclWord (s : Chip) (e : Nat) : Nat :=
  if e == 0 then s.ecl.step + b2n s.ecl.undersized * 8 else s.ecl.times.getD e 0

/-- First byte of a slot's header in the store (14 Table 14-1). -/
def slotBase (slot : Nat) : Nat := slot * 0x410000

/-- The first 32 bytes of a slot's header. -/
def Chip.slotHead (s : Chip) (slot : Nat) : List Byte := s.flashRead (slotBase slot) 32

/-- State code of a slot, from its header's first byte (14 Table 14-2): a value the table does not list is WITHDRAWN. -/
def Chip.slotState (s : Chip) (slot : Nat) : Nat :=
  let v := leField (s.slotHead slot) 0 1
  if v == 0xFF then 0 else if v == 0x7F then 1 else if v == 0x3F then 2 else 3

/-- A header field of a slot as CFG_SLOT_STS reports it: 0 where it is still erased (log 32). -/
def Chip.slotField (s : Chip) (slot off : Nat) : Nat :=
  let v := leField (s.slotHead slot) off 4
  if v == 0xFFFFFFFF then 0 else v

/-- CFG_SLOT_STS, word `k` (17 Table 17-17); a store that SFDP has not admitted reports nothing. -/
def Chip.slotWord (s : Chip) (k : Nat) : Nat :=
  let c := s.cfg
  let one (i : Nat) : Nat :=
    if !c.flashOk then 0
    else s.slotState i + b2n (bit c.crcOk i) * 8 + b2n (bit c.sigOk i) * 16 + b2n (c.active == some i) * 32
  if k == 0 then one 0 + one 1 * 65536 + b2n c.busy * 2 ^ 24 + c.result * 2 ^ 25
  else if k == 5 then c.nextOfs
  else if !c.flashOk then 0
  else s.slotField ((k - 1) % 2) (if k ≤ 2 then 4 else 8)

/-- FLT_SUMMARY (16 Table 16-4). -/
def Chip.summaryWord (s : Chip) : Nat :=
  b2n (!s.cmt.fenced.isEmpty) * 2 ^ 22 + b2n (s.cmt.fencedBlocks != 0) * 2 ^ 23 + b2n (s.cmt.fencedRegions != 0) * 2 ^ 24 +
  b2n s.flt.alert * 2 ^ 25 + s.flt.cause % 16 * 2 ^ 26 + b2n s.flt.wdt * 2 ^ 30 + b2n s.flt.faulted * 2 ^ 31

/-- A clamp log entry, word `k` (14 Table 14-10). -/
def ClampEntry.word (e : ClampEntry) (k : Nat) : Nat :=
  if k == 0 then e.field else if k == 1 then e.given else if k == 2 then e.used
  else e.src * 2 ^ 30 + b2n e.pending * 2 ^ 29 + b2n e.unrecorded * 2 ^ 28 + e.seq % 65536

/-- Fuse flags (15 Table 15-6, 17 SEC_FUSE_STS). -/
def Otp.flags (o : Otp) : Nat :=
  b2n o.provisioned + b2n o.factoryOff * 2 + b2n o.identity.isSome * 4 + b2n o.debugOff * 8

/-- SEC_ROLE_STS, word `k` (17 Table 17-18). -/
def Chip.roleWord (s : Chip) (k : Nat) : Nat :=
  let held (r : Nat) : Nat := (s.sec.mgmt.filter fun e => e.2.role == r).length
  if k == 0 then
    s.sec.i2c.role + held 1 * 4 + held 2 * 512 + held 3 * 65536 + Nat.min 127 s.sec.locked.length * 2 ^ 23
  else s.sec.i2c.serial

end Sys2Proof.Machine
end

