-- ==== Sys2Proof/Machine/RegRead.lean ====
section
/-!
DEFINITION. What a register reads (17 Tables 17-3 to 17-27), block by block, and the effects of a read: a 64-bit value
latched (R418), a counter cleared (R416).
-/
namespace Sys2Proof.Machine

/-! ### Plain reads, block by block -/

/-- GLB (17 Table 17-3). -/
def Chip.readGlb (s : Chip) (a : Nat) : Option Nat :=
  match a with
  | 0 => some (0xB0 * 2 ^ 24 + 0x4810 * 256 + b2n s.glb.degraded)
  | 4 => some ((if s.glb.sl4804 then 0x04 else 0x10) + b2n s.glb.gradeI * 256)
  | 8 => some s.glb.state.code
  | 0x14 => some s.glb.access
  | _ => none

/-- XPT: the commands read 0, and the state of each connection (17 R420, Table 17-7). -/
def Chip.readXpt (s : Chip) (a : Nat) : Option Nat :=
  if inArray a 0x220000 16384 4 then some 0
  else if inArray a 0x240000 65536 4 then some (s.connWord ((a - 0x240000) / 16) (a % 16 / 4))
  else none

/-- The region edit window (17 Tables 17-21 to 17-23). -/
def Chip.readRgn (s : Chip) (q : Session) (a : Nat) : Option Nat :=
  if a == 0x300000 then some (s.ownerWord q)
  else if a == 0x300004 then some s.rgn.cmd
  else if a == 0x300008 then some s.editWord
  else if a == 0x30000C then some s.rgn.key
  else if inArray a 0x300010 12 4 then some (s.rgn.data.getD ((a - 0x300010) / 4) 0).toNat
  else if a == 0x300104 then some s.cfg.logUsed
  else none

/-- BPM sizes in force and free cells. -/
def Chip.readBpm (s : Chip) (a : Nat) : Option Nat :=
  if inArray a 0x500000 4 4 then some (s.bpm.sizes.getD (a % 16 / 4) 0)
  else if inArray a 0x500020 4 4 then some (s.bpm.freeNow (a % 16 / 4))
  else none

/-- LCC status and maintenance words (17 Tables 17-9, 17-10). -/
def Chip.readLcc (s : Chip) (a : Nat) : Option Nat :=
  match a with
  | 0x6E0004 => some s.lccWord
  | 0x6E0008 => some s.lcc.word0
  | 0x6E000C => some (s.lcc.word1 + b2n s.lcc.busy * 2 ^ 27 + s.lcc.result * 2 ^ 28)
  | _ => none

/-- Page manager (17 Tables 17-3, 17-20). -/
def Chip.readPgm (s : Chip) (a : Nat) : Option Nat :=
  if inArray a 0x700200 4 4 then some (s.fetchEst (a % 16 / 4))
  else match a with
    | 0x700000 => some s.pgm.space
    | 0x700004 => some s.pgm.budget
    | 0x700008 => some s.dirtyNow
    | 0x70000C => some s.pgm.total
    | 0x700010 => some s.framesFree
    | 0x700020 => some s.pinNow
    | 0x700024 => some s.pgm.eager.length
    | 0x700034 => some s.deltaUsed
    | 0x700040 => some s.mapWord
    | 0x700044 => some s.pgm.lnodes.length
    | _ => none

/-- Stripe sets (17 Tables 17-11, 17-12). -/
def Chip.readStr (s : Chip) (a : Nat) : Option Nat :=
  let o := a - 0x900000
  if inArray a 0x900000 32 4 then some ((s.setCfgShown (o / 0x20)).words.getD (o % 0x20 / 4) 0).toNat
  else if inArray a 0x900100 4 0x10 then
    some ((s.set ((o - 0x100) / 0x10)).st.code + b2n (s.set ((o - 0x100) / 0x10)).full * 8)
  else if inArray a 0x900200 16 4 then some ((s.set ((o - 0x200) / 0x10)).rebuildWord (o % 0x10 / 4))
  else if inArray a 0x900350 4 4 then some (s.set ((o - 0x350) / 4)).orbit
  else none

/-- DMC_TEMP of a channel: the highest temperature of its DIMMs; how one below 0 °C is written is open (log 17). -/
def Channel.tempWord (k : Channel) (a : Nat) : Nat :=
  let ts := k.temps.map (·.2)
  if ts.isEmpty || ts.any fun t => 0 ≤ t then maxOf (ts.map Int.toNat)
  else (Config.statusWord a (ts.map Int.natAbs)).toNat

/-- DRAM channels (17 Tables 17-13, 17-14, 17-20). -/
def Chip.readDmc (s : Chip) (a : Nat) : Option Nat :=
  if a == 0xAE0020 then
    some (s.par a % 4 + b2n s.dmc.freqBusy * 32 + s.dmc.freqResult * 256)
  else if inArray a 0xAE0040 12 4 then some (s.dmc.map.getD ((a - 0xAE0040) / 4) 0)
  else if a < 0xA00000 + 0x10000 * s.nChans then
    let k := s.chan ((a - 0xA00000) / 0x10000)
    let o := a % 0x10000
    if o == 0 then some (k.tempWord a)
    else if o == 4 then some (b2n k.setB + k.speed * 2)
    else if o == 0x40 then some k.trainWord
    else if o == 0x44 then some k.debtWord
    else if inArray o 0x200 64 4 then some (k.mgMap.getD ((o - 0x200) / 4) 0).toNat
    else none
  else none

/-- DRAM integrity (17 Table 17-20, 11 Table 11-3). -/
def Chip.readMei (s : Chip) (a : Nat) : Option Nat :=
  let o := a - 0xB00000
  if a == 0xB00000 then some (maxOf ((List.range s.nChans).map fun n => (s.chan n).lap))
  else if inArray a 0xB00040 s.nChans 4 then some (s.chan ((o - 0x40) / 4)).lap
  else if a == 0xB00140 then some 0
  else if inArray a 0xB01000 (32 * s.nChans) 4 then
    let e := Tab.get (s.chan ((o - 0x1000) / 0x80)).remap (0, 0) (o % 0x80 / 8)
    some (if o % 8 == 0 then e.1 else e.2)
  else none

/-- The last step of Table 12-7 reached: step 6 once every configured set is ready, root and L2 loaded (12 R311). -/
def Chip.tkoStep (s : Chip) : Nat :=
  if s.syz.step == 5 && s.pgm.root && s.pgm.l2 && s.str.sets.all fun e => !e.2.cfg.on || s.setUp e.1 then 6 else s.syz.step

/-- The twin (17 Tables 17-3, 17-20). -/
def Chip.readSyz (s : Chip) (a : Nat) : Option Nat :=
  match a with
  | 0xC00000 => some s.roleShown.code
  | 0xC00004 => some s.syz.pair.code
  | 0xC00008 => some (s.syz.ringBytes / 1024)
  | 0xC0000C => some 0
  | 0xC00010 => some (s.syz.swResult + Nat.min 65535 s.syz.age * 65536)
  | 0xC00020 => some (s.tkoStep + b2n s.glb.sealFound * 16)
  | 0xC00024 => some s.syz.preempted
  | _ => none

/-- Power supervision (17 Tables 17-15, 17-16). -/
def Chip.readPws (s : Chip) (a : Nat) : Option Nat :=
  let o := a - 0xD00000
  if a == 0xD00000 then some s.seqWord
  else if a == 0xD00004 then some (b2n s.pws.master)
  else if inArray a 0xD00100 68 4 then
    some (railWord (s.rail ((o - 0x100) / 0x10)).cfg ((o - 0x100) / 0x10 == 16) (o % 0x10 / 4))
  else if inArray a 0xD00300 17 4 then
    let r := s.rail ((o - 0x300) / 4)
    some (r.code + r.flags * 4096)
  else if inArray a 0xD00600 16 4 then
    let c := (s.pws.outs.getD ((o - 0x600) / 8) RstOut.blank).cfg
    some (if o % 8 == 0 then rstWord c else c.stretch)
  else none

/-- Eclipse (17 Tables 17-3, 17-20). -/
def Chip.readEcl (s : Chip) (a : Nat) : Option Nat :=
  if a == 0xE00004 then some s.ecl.rate
  else if inArray a 0xE00040 7 4 then some (s.eclWord ((a - 0xE00040) / 4))
  else none

/-- Start, configuration and staging (17 Tables 17-3, 17-17, 17-20, 14 Table 14-10). -/
def Chip.readCfg (s : Chip) (a : Nat) : Option Nat :=
  let o := a - 0xF00000
  if a == 0xF00000 then some (s.cfg.phase + b2n s.cfg.warm * 8)
  else if a == 0xF00004 || a == 0xF00200 then some 0
  else if inArray a 0xF00010 6 4 then some (s.slotWord ((o - 0x10) / 4))
  else if a == 0xF00030 then some (s.cfg.log.length + b2n s.cfg.overflow * 2 ^ 31)
  else if inArray a 0xF00040 8 4 then some (s.cfg.times.getD ((o - 0x40) / 4) 0)
  else if a == 0xF00204 then some s.cfg.ofs
  else if inArray a 0xF00300 64 4 then some (s.cfg.window.getD ((o - 0x300) / 4) 0).toNat
  else if inArray a 0xF01000 1024 4 then
    some (match s.cfg.log[(o - 0x1000) / 0x10]? with
      | some e => e.word (o % 0x10 / 4)
      | none => 0)
  else none

/-- Security (17 Tables 17-18, 17-20, 17-25, 17-26). Key material reads 0 without the maker role (15 R373). -/
def Chip.readSec (s : Chip) (otp : Otp) (q : Session) (a : Nat) : Option Nat :=
  let o := a - 0x1000000
  if a == 0x1000000 || a == 0x1000004 then some (s.roleWord (o / 4))
  else if a == 0x1000010 then some (otp.flags + b2n s.sec.idFail * 16)
  else if a == 0x1000020 || a == 0x1000040 then some 0
  else if a == 0x1000030 then some (b2n s.sec.unlocked * 256)
  else if a == 0x1000034 || a == 0x1000038 then
    some (if (s.ses q).role < 3 then 0 else (Config.openWord a s.fresh).toNat)
  else if a == 0x1000044 then some (b2n s.sec.i2cBusy + b2n s.sec.i2cOver * 2 + s.sec.i2cSts * 256)
  else if a == 0x1000050 then some (s.sec.tktSlot + s.sec.tktResult * 32 + b2n s.sec.tktBusy * 128)
  else if a == 0x1000060 then some (b2n s.sec.attDone * 2)
  else if inArray a 0x1000100 256 4 then some (s.sec.prov.getD ((o - 0x100) / 4) 0).toNat
  else if inArray a 0x1000500 24 4 then
    some (match otp.identity with
      | some n => ((bytesWords 24 (be 96 (Config.identityPub n).toNat)).getD ((o - 0x500) / 4) 0).toNat
      | none => 0)
  else if inArray a 0x1000600 64 4 then some (s.sec.i2cData.getD ((o - 0x600) / 4) 0).toNat
  else if inArray a 0x1000700 24 4 then some (s.sec.tktData.getD ((o - 0x700) / 4) 0).toNat
  else if inArray a 0x1000780 8 4 then some (s.sec.nonce.getD ((o - 0x780) / 4) 0).toNat
  else if inArray a 0x1000800 68 4 then some (s.sec.report.getD ((o - 0x800) / 4) 0).toNat
  else none

/-- Word `k` of a ring slot; an unwritten slot reads all ones in its sequence and 0 beyond (16 R391). -/
def Evr.slotWord (e : Evr) (slot k : Nat) : Nat := match Tab.find e.ring (slot % 65536) with
  | some r => leField r (4 * k) 4
  | none => if k < 2 then 0xFFFFFFFF else 0

/-- Recorder (16 R392, R395, 17 Table 17-27). -/
def Chip.readEvr (s : Chip) (a : Nat) : Option Nat :=
  let o := a - 0x1100000
  if inArray a 0x1100040 16 4 then some (s.evr.slotWord s.evr.cursor ((o - 0x40) / 4))
  else if a == 0x1100108 then some s.evr.archHalf
  else if a == 0x110010C then some (b2n s.evr.archBusy + s.evr.archResult * 2)
  else if inArray a 0x1100140 16 4 then some (s.evr.archWin.getD ((o - 0x140) / 4) 0).toNat
  else none

/-- Fault collector (16 Tables 16-4, 16-6, R400). -/
def Chip.readFlt (s : Chip) (a : Nat) : Option Nat :=
  if a == 0x1200000 then some s.summaryWord
  else if a == 0x1200004 then some (s.cmt.fencedBlocks % 65536 + s.cmt.fencedRegions % 16 * 65536)
  else if inArray a 0x1200020 8 4 then
    let w := (a - 0x1200020) / 4
    some (s.cmt.fenced.foldl (fun m n => if n / 32 == w then setBit m (n % 32) true else m) 0)
  else none

/-- A parameter register in an instance that the variant has. -/
def Chip.paramThere (s : Chip) (a : Nat) : Bool :=
  (fieldsOf a).isSome &&
  !(0x800000 ≤ a && a < 0x8E0000 && s.nDrives / 2 ≤ (a - 0x800000) / 0x1000) &&
  !(0xA00000 ≤ a && a < 0xAC0000 && s.nChans ≤ (a - 0xA00000) / 0x10000)

/-- Registers whose block gives them a value of their own. -/
def Chip.readBlock (s : Chip) (otp : Otp) (q : Session) (a : Nat) : Option Nat :=
  match a / 0x100000 with
  | 0x00 => s.readGlb a
  | 0x02 => s.readXpt a
  | 0x03 => s.readRgn q a
  | 0x05 => s.readBpm a
  | 0x06 => s.readLcc a
  | 0x07 => s.readPgm a
  | 0x09 => s.readStr a
  | 0x0A => s.readDmc a
  | 0x0B => s.readMei a
  | 0x0C => s.readSyz a
  | 0x0D => s.readPws a
  | 0x0E => s.readEcl a
  | 0x0F => s.readCfg a
  | 0x10 => s.readSec otp q a
  | 0x11 => s.readEvr a
  | 0x12 => s.readFlt a
  | _ => none

/-- The high word of a 64-bit value as a session reads it (17 R418): latched, or current. -/
def Chip.highWord (s : Chip) (q : Session) (lo : Nat) : Nat :=
  (match Tab.find (s.ses q).latch lo with
    | some v => v
    | none => s.wide lo) / 2 ^ 32 % 2 ^ 32

/-- The value of a register as a session reads it, before any effect of the read; none where no register is mapped. -/
def Chip.regValue (s : Chip) (otp : Otp) (q : Session) (a : Nat) : Option Nat :=
  if a % 4 != 0 then none
  else if latchAddrs.contains a then some (s.wide a % 2 ^ 32)
  else match latchOf a with
    | some lo => some (s.highWord q lo)
    | none =>
      match s.readBlock otp q a with
      | some v => some v
      | none =>
        if s.isCounter a then some (s.cnt a)
        else if let some l := s.contents a then some (contentsWord a l)
        else if s.paramThere a then some (s.par a)
        else none

/-! ### The effects of a read -/

/-- The high word latched for the session by a read of the low word (17 R418). -/
def Chip.latch (s : Chip) (q : Session) (a : Nat) : Chip :=
  s.modSes q fun k => { k with latch := Tab.ins k.latch a (s.wide a) }

/-- A counter cleared by a read of a session that holds the operator role or higher (17 R416). -/
def Chip.clearCounter (s : Chip) (q : Session) (a : Nat) : Chip :=
  if (s.ses q).role == 0 then s
  else if s.isCounter a then { s with cnts := Tab.set s.cnts 0 a 0 }
  else if inArray a 0x240004 16384 0x10 then s.modConn ((a - 0x240004) / 16) fun k => { k with guardFull := 0 }
  else if a == 0x300008 then { s with rgn := { s.rgn with foreign := 0 } }
  else s

/-- What a read of a register that answers leaves behind. -/
def Chip.readEffect (s : Chip) (q : Session) (a : Nat) : Chip :=
  let s1 := if latchAddrs.contains a then s.latch q a else s.clearCounter q a
  if a == 0x1000034 || a == 0x1000038 then { s1 with fresh := s1.fresh + 1 } else s1

/-- One word read by a session (17 R409, R413): the value, or none where the access is gated or unmapped, which the I2C
path flags and reads as 0. -/
def Chip.readReg (s : Chip) (otp : Otp) (q : Session) (a : Nat) : Option Word × Chip :=
  if !s.regOn a then (none, s.gatedAccess q)
  else match s.regValue otp q a with
    | some v => (some (BitVec.ofNat 32 v), s.readEffect q a)
    | none => (none, s.gatedAccess q)

/-- A low word of a 64-bit register read by a session. -/
def latchingReadEffect (otp : Otp) (q : Session) (a : Nat) (s : Chip) : Chip :=
  if s.sesLive q && latchAddrs.contains a then (s.readReg otp q a).2 else s

def execLatchingRead (ses : Session) (addr : Nat) (s : State) : Host.Outcome State Fault Refusal :=
  .next (s.on (latchingReadEffect s.otp ses addr))

/-- A counter read by a session. -/
def clearingReadEffect (otp : Otp) (q : Session) (a : Nat) (s : Chip) : Chip :=
  if s.sesLive q && (s.isCounter a || inArray a 0x240004 16384 0x10 || a == 0x300008) then (s.readReg otp q a).2 else s

def execClearingRead (ses : Session) (addr : Nat) (s : State) : Host.Outcome State Fault Refusal :=
  .next (s.on (clearingReadEffect s.otp ses addr))

end Sys2Proof.Machine
end

