-- ==== Sys2Proof/Machine/Settings.lean ====
section
/-!
DEFINITION. The writable fields of the registers (17 Tables 17-3 to 17-27), the clamp of a field (14 R365), and the
SETTINGS section of an image applied to them (14 R359).
-/
namespace Sys2Proof.Machine

/-! ### Writable fields -/

/-- A field of a role with every value allowed. -/
def openFld (lsb width role : Nat) : Field := { lsb, width, dflt := 0, lo := 0, hi := 2 ^ width - 1, role }

/-- The fields of a word of RGN_EDIT_DATA (05 Table 5-1); word 5 is all reserved. -/
def entryFields (k : Nat) : List Field :=
  match k with
  | 0 => [openFld 0 31 2]
  | 2 => [openFld 0 20 2, openFld 24 6 2]
  | 3 => [openFld 0 1 2]
  | 5 => [openFld 0 0 2]
  | _ => [openFld 0 32 2]

/-- The RW fields of a register outside the parameter tables. -/
def wordFields (a : Nat) : List Field :=
  let o := a % 0x100000
  if a == 0x300004 then [openFld 0 4 2, openFld 16 16 2]
  else if inArray a 0x300010 12 4 then entryFields ((a - 0x300010) / 4)
  else if a == 0x6E0008 then [{ lsb := 0, width := 12, dflt := 0, lo := 0, hi := 3071 }, openFld 16 4 2, openFld 24 8 2]
  else if a == 0x6E000C then
    [{ lsb := 0, width := 3, dflt := 0, lo := 0, hi := 4, coded := true }, openFld 3 1 2, openFld 4 1 2, openFld 5 1 2]
  else if inArray a 0x900000 32 4 then
    match o % 0x20 / 4 with
    | 0 => [openFld 0 2 2, openFld 8 6 2, openFld 31 1 2]
    | 1 => [openFld 0 32 2]
    | 2 | 3 | 4 => [openFld 0 30 2]
    | 5 => [openFld 0 6 2]
    | _ => [openFld 0 0 2]
  else if inArray a 0xD00100 68 4 then
    match o % 0x10 / 4 with
    | 0 | 1 => [openFld 0 12 2, openFld 16 12 2]
    | 2 => [openFld 0 12 3, openFld 16 4 2, openFld 20 2 2, openFld 22 2 2, openFld 24 1 3, openFld 31 1 3]
    | _ => [openFld 0 5 3, openFld 8 5 3]
  else if a == 0xD00004 then [openFld 0 1 3]
  else if inArray a 0xD00600 16 4 then
    (if o % 8 == 0 then [openFld 0 4 3, openFld 4 4 3, openFld 8 1 3, openFld 9 1 3] else [openFld 0 32 3])
  else if a == 0xF00204 || inArray a 0xF00300 64 4 || inArray a 0x1000700 24 4 then [openFld 0 32 2]
  else if inArray a 0x1000100 256 4 then [openFld 0 32 3]
  else if inArray a 0x1000600 64 4 then [openFld 0 32 0]
  else if inArray a 0x1000780 8 4 then [openFld 0 32 1]
  else if a == 0x1000050 then [openFld 0 2 2]
  else if a == 0x1100108 then [openFld 0 1 1]
  else if a == 0x1100010 || a == 0x1100014 || a == 0x1100100 || a == 0x1100104 then [openFld 0 32 1]
  else []

/-- The RW fields of a register. -/
def rwFields (a : Nat) : List Field := (fieldsOf a).getD (wordFields a)

/-- Bits of a register that act when 1 is written to them (W1C where the flag is set, W1S, WO), with their role. -/
def Chip.actBits (s : Chip) (a : Nat) : List (Nat × Nat) :=
  if a == 0x14 then [(s.glb.access % 16, 1)]
  else if inArray a 0x220000 16384 4 then [(1, 2)]
  else if a == 0x300000 then [(3, 2)]
  else if a == 0x300004 then [(0xF, 2)]
  else if a == 0x300008 then [(b2n s.rgn.overrun * 128, 1)]
  else if a == 0x6E0004 then [(b2n s.lcc.overrun * 4, 1)]
  else if a == 0x6E000C then [(7, 2)]
  else if a == 0x900300 then [(0x10, 2)]
  else if a == 0x900328 then [(2 ^ 31, 2)]
  else if inArray (a - 0xA00080) 0 s.nChans 0x10000 && 0xA00080 ≤ a then [(2 ^ 16, 2)]
  else if a == 0xAE0020 then [(0x10, 2)]
  else if a == 0xB00140 then [(2 ^ s.nChans - 1, 3)]
  else if a == 0xC0000C then [(1, 1)]
  else if inArray a 0xD00300 17 4 then [((s.rail ((a - 0xD00300) / 4)).flags * 4096, 1)]
  else if a == 0xF00004 then [(1, 2), (2, 1)]
  else if a == 0xF00200 then [(7, 2)]
  else if a == 0x1000020 then [(15, 3)]
  else if a == 0x1000030 then [(3, 3)]
  else if a == 0x1000040 then [(0xFF, 0)]
  else if a == 0x1000044 then [(b2n s.sec.i2cOver * 2, 0)]
  else if a == 0x1000050 then [(0xC, 2)]
  else if a == 0x1000060 then [(1, 1)]
  else if a == 0x1100108 then [(2, 1)]
  else if a == 0x1200000 then [(b2n s.flt.alert * 2 ^ 25, 1)]
  else []

/-- Read-only bits that a map places beside RW fields. -/
def roBits (a : Nat) : Nat :=
  if a == 0x6E000C then 7 * 2 ^ 27 else if a == 0xAE0020 then 0x320 else if a == 0x1000050 then 0xE0 else 0

/-- The bits of a field. -/
def Field.mask (f : Field) : Nat := (2 ^ f.width - 1) * 2 ^ f.lsb

/-- The runs of reserved bits of a word whose other bits are known: first bit and width. -/
def reservedRuns (known : Nat) : List (Nat × Nat) :=
  (List.range 32).filterMap fun i =>
    if bit known i || (i != 0 && !bit known (i - 1)) then none
    else some (i, ((rangeFrom i (32 - i)).takeWhile fun j => !bit known j).length)

/-- The reserved runs of an RW register that a word does not leave 0 (log 33). -/
def Chip.reservedGiven (s : Chip) (a v : Nat) : List (Nat × Nat) :=
  let fs := rwFields a
  if fs.isEmpty then []
  else
    let known := (fs.map Field.mask ++ (s.actBits a).map (·.1)).foldl (fun m x => m ||| x) (roBits a)
    (reservedRuns known).filterMap fun r =>
      let g := bits v (r.1 + r.2 - 1) r.1
      if g == 0 then none else some (r.1, g)

/-- Reserved bits replaced by 0, each run one clamp (14 R365). -/
def Chip.clampReserved (s : Chip) (a v src : Nat) : Chip :=
  (s.reservedGiven a v).foldl (fun t r => t.clamped (regField a r.1) r.2 0 src) s

/-! ### Power fields (13 R323) -/

/-- A number held to bounds. -/
def within (b : Nat × Nat) (v : Nat) : Nat := Nat.max b.1 (Nat.min b.2 v)

/-- A rail field of role I clamped as the power table says: thresholds and FILT to the nearer bound, an action outside its
mask to the provisioned one. -/
def Chip.railClamp (s : Chip) (otp : Otp) (k w lsb v : Nat) : Nat :=
  let b := s.pws.bounds.getD k RailBounds.blank
  let prov := match otp.powerTable with
    | some t => (t.rails.getD k (RailCfg.blank, RailBounds.blank)).1
    | none => RailCfg.blank
  if w == 0 then (if lsb == 0 then within b.uvFault v else within b.uvWarn v)
  else if w == 1 then (if lsb == 0 then within b.ovWarn v else within b.ovFault v)
  else if lsb == 16 then within b.filt (if v == 0 then 16 else v) % 16
  else if lsb == 20 then (if bit b.maskUv v then v else prov.actUv)
  else if bit b.maskOv v then v else prov.actOv

/-- A rail field of role I set. -/
def railField (c : RailCfg) (w lsb v : Nat) : RailCfg :=
  if w == 0 then (if lsb == 0 then { c with uvFault := v } else { c with uvWarn := v })
  else if w == 1 then (if lsb == 0 then { c with ovWarn := v } else { c with ovFault := v })
  else if lsb == 16 then { c with filt := if v == 0 then 16 else v }
  else if lsb == 20 then { c with actUv := v }
  else { c with actOv := v }

/-! ### The value a field takes -/

/-- The value a field takes for a value given: its own clamp, or that of the rule which takes precedence (14 R365). -/
def Chip.taken (s : Chip) (otp : Otp) (bounds : Nat × Nat) (a : Nat) (f : Field) (v : Nat) : Nat :=
  if inArray a 0xD00100 68 4 then
    let k := (a - 0xD00100) / 0x10
    if k == 16 && (f.lsb == 20 || f.lsb == 22) then v else s.railClamp otp k (a % 0x10 / 4) f.lsb v
  else if a == 0x900304 then v - (v &&& s.masked)
  else f.clamp bounds v

/-! ### Where a word is held -/

/-- An RW word outside the parameter tables put where it is held; nothing it commands is started. -/
def Chip.storeWord (s : Chip) (a w : Nat) : Chip :=
  let v := BitVec.ofNat 32 w
  if a == 0x300004 then { s with rgn := { s.rgn with cmd := w } }
  else if inArray a 0x300010 12 4 then { s with rgn := { s.rgn with data := setAt s.rgn.data ((a - 0x300010) / 4) v } }
  else if a == 0x6E0008 then { s with lcc := { s.lcc with word0 := w } }
  else if a == 0x6E000C then { s with lcc := { s.lcc with word1 := w % 64 } }
  else if inArray a 0x900000 32 4 then
    let i := (a - 0x900000) / 0x20
    let g := SetCfg.ofWords (setAt (s.setCfgShown i).words (a % 0x20 / 4) v)
    { s with str := { s.str with pend := Tab.ins s.str.pend i g } }
  else if a == 0xF00204 then { s with cfg := { s.cfg with ofs := w } }
  else if inArray a 0xF00300 64 4 then { s with cfg := { s.cfg with window := setAt s.cfg.window ((a - 0xF00300) / 4) v } }
  else if inArray a 0x1000100 256 4 then { s with sec := { s.sec with prov := setAt s.sec.prov ((a - 0x1000100) / 4) v } }
  else if inArray a 0x1000600 64 4 then
    { s with sec := { s.sec with i2cData := setAt s.sec.i2cData ((a - 0x1000600) / 4) v } }
  else if inArray a 0x1000700 24 4 then
    { s with sec := { s.sec with tktData := setAt s.sec.tktData ((a - 0x1000700) / 4) v } }
  else if inArray a 0x1000780 8 4 then { s with sec := { s.sec with nonce := setAt s.sec.nonce ((a - 0x1000780) / 4) v } }
  else if a == 0x1000050 then { s with sec := { s.sec with tktSlot := w % 4 } }
  else if a == 0x1100108 then { s with evr := { s.evr with archHalf := w % 2 } }
  else if a == 0x1100010 then { s with evr := { s.evr with curLow := w } }
  else if a == 0x1100100 then { s with evr := { s.evr with archLow := w } }
  else if a == 0x1100014 then { s with evr := { s.evr with cursor := w * 2 ^ 32 + s.evr.curLow } }
  else if a == 0x1100104 then { s with evr := { s.evr with arch := w * 2 ^ 32 + s.evr.archLow } }
  else s

/-- A word of LCC_MAINT_BASE or LCC_MAINT_LEN written: the low word waits for the high word, which applies both (17 R418,
16 R392). -/
def Chip.putRange (s : Chip) (a v : Nat) : Chip :=
  if a == 0x6E0010 then { s with lcc := { s.lcc with baseLow := v } }
  else if a == 0x6E0014 then (s.setPar 0x6E0010 s.lcc.baseLow).setPar a v
  else if a == 0x6E0018 then { s with lcc := { s.lcc with lenLow := v } }
  else (s.setPar 0x6E0018 s.lcc.lenLow).setPar a v

/-- One field of a register put where the register is held. -/
def Chip.putField (s : Chip) (otp : Otp) (q : Session) (a : Nat) (f : Field) (v : Nat) : Chip :=
  if inArray a 0x6E0010 4 4 then s.putRange a v
  else if (fieldsOf a).isSome then s.setPar a (f.put (s.par a) v)
  else if inArray a 0xD00100 68 4 then
    s.modRail ((a - 0xD00100) / 0x10) fun r => { r with cfg := railField r.cfg (a % 0x10 / 4) f.lsb v }
  else s.storeWord a (f.put ((s.regValue otp q a).getD 0) v)

/-! ### SETTINGS (14 R359) -/

/-- A SETTINGS record that is ignored as a whole: no register there, every writable field M-tagged, or key material. -/
def Chip.recordIgnored (s : Chip) (otp : Otp) (a : Nat) : Bool :=
  let roles := (rwFields a).map (·.role) ++ (s.actBits a).map (·.2)
  (s.regValue otp .i2c a).isNone || a == 0x1000034 || a == 0x1000038 || (!roles.isEmpty && roles.all (· == 3))

/-- Bounds of a field at image load: those that Table 14-9 checks afterwards are not applied yet. -/
def Chip.imageBounds (s : Chip) (a : Nat) (f : Field) : Nat × Nat :=
  if [0x700004, 0x700014, 0x70001C, 0xC00118, 0xC00120, 0x900310, 0x900314, 0xAE000C, 0x500010].contains a ||
      inArray a 0x501000 128 4 then (f.lo, f.hi)
  else s.bounds a f

/-- One field of a record: set and clamped where its role is O or I, else reported if the record differs. -/
def Chip.settingField (s : Chip) (otp : Otp) (a v : Nat) (f : Field) : Chip :=
  let g := f.get v
  let cur := f.get ((s.regValue otp .i2c a).getD 0)
  if f.role == 3 then (if g == cur then s else s.clamped (regField a f.lsb) g cur 0)
  else
    let u := s.taken otp (s.imageBounds a f) a f g
    let s1 := if u == g then s else s.clamped (regField a f.lsb) g u 0
    s1.putField otp .i2c a f u

/-- The W1C, W1S, WO and RO fields of a register that a map or a Content column divides: first bit and width. -/
def otherFields (a : Nat) : List (Nat × Nat) :=
  let o := a % 0x100000
  if a == 0 then [(0, 1), (8, 16), (24, 8)]
  else if a == 4 then [(0, 8), (8, 1)]
  else if a == 0x14 then [(0, 1), (1, 1), (2, 1), (3, 1)]
  else if inArray a 0x240000 65536 4 then
    match a % 16 / 4 with
    | 0 => [(0, 3), (3, 1), (4, 6), (10, 1), (11, 1), (16, 8)]
    | 3 => [(0, 9), (16, 9)]
    | _ => [(0, 32)]
  else if a == 0x300000 then [(0, 1), (1, 1), (2, 1), (3, 1), (4, 2), (16, 14)]
  else if a == 0x300008 then [(0, 1), (4, 3), (7, 1), (8, 1), (16, 16)]
  else if a == 0x6E0004 then [(0, 1), (1, 1), (2, 1)]
  else if a == 0x6E000C then [(27, 1), (28, 2)]
  else if a == 0x700040 then [(0, 1), (1, 1), (2, 1), (4, 14)]
  else if inArray a 0x900100 4 0x10 then [(0, 3), (3, 1)]
  else if inArray a 0x900200 4 0x10 then [(0, 2), (8, 5), (16, 5)]
  else if a == 0x900300 then [(4, 1)]
  else if a == 0x900328 then [(31, 1)]
  else if a == 0xAE0020 then [(4, 1), (5, 1), (8, 2)]
  else if 0xA00000 ≤ a && a < 0xAC0000 && o % 0x10000 == 4 then [(0, 1), (1, 2)]
  else if 0xA00000 ≤ a && a < 0xAC0000 && o % 0x10000 == 0x40 then [(0, 2), (2, 2), (8, 8), (20, 4), (24, 1), (25, 7)]
  else if 0xA00000 ≤ a && a < 0xAC0000 && o % 0x10000 == 0x44 then [(0, 16), (16, 1), (20, 4)]
  else if 0xA00000 ≤ a && a < 0xAC0000 && o % 0x10000 == 0x80 then [(16, 1)]
  else if a == 0xC00010 then [(0, 2), (16, 16)]
  else if a == 0xC00020 then [(0, 4), (4, 1)]
  else if a == 0xD00000 then [(0, 4), (4, 2), (6, 1), (7, 1)]
  else if inArray a 0xD00300 17 4 then [(0, 12), (12, 1), (13, 1), (14, 1), (15, 1)]
  else if a == 0xE00040 then [(0, 3), (3, 1)]
  else if a == 0xF00000 then [(0, 3), (3, 1)]
  else if a == 0xF00004 then [(0, 1), (1, 1)]
  else if a == 0xF00010 then
    [(0, 3), (3, 1), (4, 1), (5, 1), (16, 3), (19, 1), (20, 1), (21, 1), (24, 1), (25, 3)]
  else if a == 0xF00030 then [(0, 9), (31, 1)]
  else if a == 0x1000000 then [(0, 2), (2, 7), (9, 7), (16, 7), (23, 7)]
  else if a == 0x1000010 then [(0, 1), (1, 1), (2, 1), (3, 1), (4, 1)]
  else if a == 0x1000044 then [(0, 1), (1, 1), (8, 8)]
  else if a == 0x1000050 then [(2, 2), (5, 2), (7, 1)]
  else if a == 0x1000060 then [(0, 1), (1, 1)]
  else if a == 0x1100108 then [(1, 1)]
  else if a == 0x110010C then [(0, 1), (1, 2)]
  else if a == 0x1200004 then [(0, 16), (16, 4)]
  else if (rwFields a).isEmpty then [(0, 32)]
  else []

/-- The fields of a record that are not RW, each reported when its bits differ from the value in force; reserved bits of a
register that has no RW field are such a field too (log 33). -/
def Chip.settingRest (s : Chip) (otp : Otp) (a v : Nat) : Chip :=
  let cur := (s.regValue otp .i2c a).getD 0
  let given := otherFields a
  let spare := if (rwFields a).isEmpty then
      reservedRuns ((given.map fun (r : Nat × Nat) => (2 ^ r.2 - 1) * 2 ^ r.1).foldl (fun m x => m ||| x) 0)
    else []
  (given ++ spare).foldl (fun t r =>
    let g := bits v (r.1 + r.2 - 1) r.1
    let c := bits cur (r.1 + r.2 - 1) r.1
    if g == c then t else t.clamped (regField a r.1) g c 0) s

/-- One SETTINGS record (14 R359); a record for the HPX window has its effect through the free values of log 20. -/
def Chip.setting (s : Chip) (otp : Otp) (idx a v : Nat) : Chip :=
  if a / 0x100000 == 1 then s
  else if s.recordIgnored otp a then s.clamped (itemField 1 idx) 0 0 0
  else
    let s1 := (rwFields a).foldl (fun t f => t.settingField otp a v f) (s.clampReserved a v 0)
    let s2 := s1.settingRest otp a v
    let s3 := if a == 0x700014 then { s2 with pgm := { s2.pgm with lowSet := true } }
      else if a == 0x70001C then { s2 with pgm := { s2.pgm with pinSet := true } }
      else if a == 0x6E001C then (s2.clampLen 0).2 else s2
    s3

/-- The records of a SETTINGS section, in list order. -/
def Chip.settings (s : Chip) (otp : Otp) (b : List Byte) : Chip :=
  (List.range (b.length / 8)).foldl (fun t i => t.setting otp i (leField b (8 * i) 4) (leField b (8 * i + 4) 4)) s

/-! ### The checks of Table 14-9 at S2 -/

/-- A register set to a value by a dependent check, and reported where it changes. -/
def Chip.depend (s : Chip) (a u : Nat) : Chip :=
  if s.par a == u then s else (s.setPar a u).clamped (regField a 0) (s.par a) u 2

/-- Order 1: pool sizes that do not sum to 131,072, or fall below a minimum, all take their defaults (06 R165). -/
def Chip.checkPools (s : Chip) : Chip :=
  let v := (List.range 4).map fun p => s.par (0x500000 + 4 * p)
  let ok := v.sum == 131072 && 8192 ≤ v.getD 0 0 && 8192 ≤ v.getD 1 0 && 4096 ≤ v.getD 2 0 && 8192 ≤ v.getD 3 0
  let s1 := if ok then s
    else ([40960, 32768, 16384, 40960].zipIdx).foldl (fun t e => t.depend (0x500000 + 4 * e.2) e.1) s
  let s2 := { s1 with bpm := { s1.bpm with sizes := (List.range 4).map fun p => s1.par (0x500000 + 4 * p) } }
  ((rangeFrom 0 64).foldl (fun t g => (t.recheck (0x501000 + 4 * g)).recheck (0x501100 + 4 * g)) s2).recheck 0x500010

/-- Order 2: the mirror size in NATIVE mode, SYZ_SOLO_WAIT and SYZ_ECL_TIMEOUT (12 R304, R308, Table 12-8). -/
def Chip.checkTwin (s : Chip) : Chip :=
  let s1 := if s.par 0xC00100 == 0 then s.depend 0xC00108 0 else s
  let s2 := (s1.recheck 0xC00118).recheck 0xC00120
  { s2 with syz := { s2.syz with ringGiB := s2.par 0xC00104, mirrorGiB := s2.par 0xC00108, compat := s2.par 0xC00100 == 1 } }

/-- Order 3: the stripe sets that the settings configure (09 R255), their positions empty (log 103). -/
def Chip.checkSets (s : Chip) : Chip :=
  let s1 := s.str.pend.foldl (fun (t : Chip) (e : Nat × SetCfg) =>
    let c := t.clampSet e.1 2 e.2
    c.2.modSet e.1 fun x => { x with cfg := c.1 }) s
  let blank : Position := { drive := none, ready := false, lost := false, errors := [] }
  let sets := s1.str.sets.map fun (e : Nat × StripeSet) =>
    (e.1, { e.2 with pos := if e.2.cfg.on then List.replicate e.2.cfg.n blank else [] })
  { s1 with str := { s1.str with sets := sets, pend := [] } }

/-- Order 4: PGM_SPACE within 1 and 2^31, then against the capacity of the sets (08 R189). -/
def Chip.checkExtent (s : Chip) : Chip :=
  let s1 := s.depend 0x700000 (within (1, 2 ^ 31) (s.par 0x700000))
  ({ s1 with pgm := { s1.pgm with space := s1.par 0x700000 } }).checkSpace

/-- Order 5: PGM_DIRTY_BUDGET against the ring size, then against the hold-up fit (13 R341). -/
def Chip.checkBudget (s : Chip) : Chip :=
  let s2 := (s.lowerBudget (Nat.min s.pgm.budget (s.syz.ringGiB * 1024))).fitBudget
  { s2 with pgm := { s2.pgm with budget0 := s2.pgm.budget } }

/-- The dirty budget that the settings give, as order 4 counts the reserve R with it (09 R245, R246). -/
def Chip.givenBudget (s : Chip) : Chip := { s with pgm := { s.pgm with budget := s.par 0x700004 } }

/-- Orders 1 to 5, and the ranges of 9 and 10 that depend on another field. -/
def Chip.checksAtS2 (s : Chip) : Chip :=
  let s1 := ((((s.checkPools).checkTwin).checkSets).givenBudget).checkExtent
  ((((s1.checkBudget).recheck 0x900314).recheck 0x900310).recheck 0xAE000C).checkSpares

end Sys2Proof.Machine
end

