-- ==== Sys2Proof/Machine/Image.lean ====
section
/-!
DEFINITION. The Ospol image in its slot (14 R357 to R363): the checks that choose a slot, its sections, and the records of
the configuration store read back at a start (R348 to R351).
-/
namespace Sys2Proof.Machine

/-! ### Slots (14 Tables 14-2, 14-5 to 14-7) -/

/-- First byte of a slot's image. -/
def imageBase (slot : Nat) : Nat := slotBase slot + 0x10000

/-- Bytes of a slot's image. -/
def Chip.imageBytes (s : Chip) (slot off n : Nat) : List Byte := s.flashRead (imageBase slot + off) n

/-- Image length that the image header names. -/
def Chip.imageLen (s : Chip) (slot : Nat) : Nat := leField (s.imageBytes slot 12 4) 0 4

/-- Image generation that the image header names. -/
def Chip.imageGen (s : Chip) (slot : Nat) : Nat := leField (s.imageBytes slot 8 4) 0 4

/-- The header CRC of a slot is good (14 Table 14-2). -/
def Chip.slotCrcOk (s : Chip) (slot : Nat) : Bool :=
  leField (s.slotHead slot) 12 4 == crc32c (slice (s.slotHead slot) 4 8)

/-- An entry of the section directory (14 Table 14-6): ID, offset, length and CRC. -/
structure Section where
  id : Nat
  off : Nat
  len : Nat
  crc : Nat
  deriving DecidableEq, Repr

/-- The used entries of the directory, with their index. -/
def Chip.sections (s : Chip) (slot : Nat) : List (Nat × Section) :=
  (List.range 64).filterMap fun i =>
    let e := s.imageBytes slot (64 + 16 * i) 16
    if e.all (· == 0) then none
    else some (i, { id := leField e 0 2, off := leField e 4 4, len := leField e 8 4, crc := leField e 12 4 })

/-- The bytes of the section with an ID, if the image has one. -/
def Chip.section_ (s : Chip) (slot id : Nat) : List Byte :=
  match (s.sections slot).find? fun e => e.2.id == id with
  | some e => s.imageBytes slot e.2.off e.2.len
  | none => []

/-- Magic, format, part and revision of an image suit the chip (14 R363, first line). -/
def Chip.imageSuits (s : Chip) (slot : Nat) : Bool :=
  let h := s.imageBytes slot 0 8
  let part := leField h 5 1
  leField h 0 4 == 0x4C50534F && leField h 4 1 == 1 && (part == 0xFF || part == (if s.glb.sl4804 then 0x04 else 0x10)) &&
    leField h 6 1 ≤ 0xB0

/-- Length and every CRC of an image are good, and no section ID stands twice (R358, R363 second line). -/
def Chip.imageWhole (s : Chip) (slot len : Nat) : Bool :=
  let h := s.imageBytes slot 0 1088
  let n := s.imageLen slot
  let b := s.imageBytes slot (n - 256) 256
  let ss := s.sections slot
  n == len && n % 256 == 0 && 1344 ≤ n && n ≤ 4194304 && leField h 16 2 == ss.length &&
    leField h 60 4 == crc32c (h.take 60 ++ h.drop 64) &&
    (ss.all fun e => e.2.off + e.2.len ≤ n - 256 && crc32c (s.imageBytes slot e.2.off e.2.len) == e.2.crc) &&
    (ss.map (·.2.id)).eraseDups.length == ss.length &&
    leField b 0 4 == 0x4E474953 && leField b 4 4 == n - 256 && leField b 252 4 == crc32c (b.take 252)

/-- The signed bytes of an image. -/
def Chip.signedBytes (s : Chip) (slot : Nat) : List Byte := s.imageBytes slot 0 (s.imageLen slot - 256)

/-- The maker's key and signature are good (R362, R363 third line): on a part that is not provisioned none is (15 R381). -/
def Chip.imageSigned (s : Chip) (otp : Otp) (slot : Nat) : Bool :=
  let b := s.imageBytes slot (s.imageLen slot - 256) 256
  let key := slice b 8 96
  otp.provisioned && otp.rootHash == some (Config.sha384 key) && Config.ecdsaVerify key (s.signedBytes slot) (slice b 104 96)

/-- The check of R363 that an image fails first, by its line there, if it fails one. -/
def Chip.imageFails (s : Chip) (otp : Otp) (slot len : Nat) : Option Nat :=
  if !s.imageSuits slot then some 0
  else if !s.imageWhole slot len then some 1
  else if !s.imageSigned otp slot then some 2
  else none

/-- Candidate slots in order (R363): COMPLETE with a good header CRC, highest generation first, the lower slot of equals. -/
def Chip.candidates (s : Chip) : List Nat :=
  let ok := [0, 1].filter fun i => s.slotState i == 2 && s.slotCrcOk i
  if ok == [0, 1] && s.slotField 0 4 < s.slotField 1 4 then [1, 0] else ok

/-- A CFG SLOT record (16 Table 16-5). -/
def Chip.slotEvent (s : Chip) (slot : Nat) (check : Byte) : Chip :=
  s.raise 0x0F 0xFFFF 1 2 0 [BitVec.ofNat 8 slot, BitVec.ofNat 8 (s.slotState slot), check]

/-! ### Records of the store (R348 to R351) -/

/-- Record sequence of a record. -/
def recSeqOf (r : List Byte) : Nat := leField r 8 8

/-- The record with the highest sequence. -/
def newest : List (Nat × List Byte) → Option (Nat × List Byte)
  | [] => none
  | e :: r => match newest r with
    | none => some e
    | some f => if recSeqOf f.2 < recSeqOf e.2 then some e else some f

/-- Records in ascending sequence. -/
def bySeq (l : List (Nat × List Byte)) : List (List Byte) :=
  l.foldl (fun acc e =>
    (acc.takeWhile fun r => recSeqOf r ≤ recSeqOf e.2) ++ [e.2] ++ (acc.dropWhile fun r => recSeqOf r ≤ recSeqOf e.2)) []

/-- The newest power record. -/
def Chip.powerRecord (s : Chip) : Option (List Byte) := (newest (s.goodRecords powerBase 1024)).map (·.2)

/-- The high-water mark H of a start (16 R389): 0 with no power record, or when the store cannot be read. -/
def Chip.startMark (s : Chip) : Nat :=
  if !s.cfg.flashOk then 0
  else match s.powerRecord with
    | some r => leField r 32 8
    | none => 0

/-- Base of an alternating area: 0 remap, 1 power. -/
def areaBase (i : Nat) : Nat := if i == 0 then remapBase else powerBase

/-- The other sector of an alternating area is erased. -/
def Chip.otherErased (s : Chip) (i : Nat) : Bool :=
  (Memory.sub s.cfg.flash (areaBase i + 0x10000 * (1 - s.cfg.sector.getD i 0)) 0x10000).isEmpty

/-- At three quarters full an area has its other sector erased in the background (14 R348). -/
def Chip.eraseOther (s : Chip) (i : Nat) : Chip :=
  if 384 ≤ s.cfg.fill.getD i 0 && !s.otherErased i then { s with cfg := { s.cfg with erase := setBit s.cfg.erase i true } } else s

/-- Where an alternating area stands: sector, records in it, and newest sequence. -/
def Chip.areaState (s : Chip) (base : Nat) : Nat × Nat × Nat :=
  match newest (s.goodRecords base 1024) with
  | none =>
    let u := s.usedRecords base 1024
    (0, (maxOf ((u.filter (· < 512)).map (· + 1))), 0)
  | some e =>
    let sec := e.1 / 512
    let u := (s.usedRecords base 1024).filter fun i => i / 512 == sec
    (sec, maxOf (u.map fun i => i % 512 + 1), recSeqOf e.2)

/-- The areas of the store found as they stand (R348), and the change log with them; an erase that a stop of the machine cut off
begins again. -/
def Chip.findAreas (s : Chip) : Chip :=
  let r := s.areaState remapBase
  let p := s.areaState powerBase
  let used := s.usedRecords logBase 4096
  let seqs := (s.goodRecords logBase 4096).map fun e => recSeqOf e.2
  (({ s with cfg := { s.cfg with
    sector := [r.1, p.1], fill := [r.2.1, p.2.1], recSeq := [r.2.2, p.2.2],
    logUsed := maxOf (used.map (· + 1)), logSeq := maxOf seqs } }).eraseOther 0).eraseOther 1

/-- The drain rate that the power record restores, or ECL_DRAIN_INIT (13 R340); with it the device epoch, the boot count
and the segment counts (14 Table 14-12). -/
def Chip.restorePower (s : Chip) : Chip :=
  match s.powerRecord with
  | none => s
  | some r => { s with
      ecl := { s.ecl with rate := leField r 16 4, start := leField r 16 4, low := leField r 16 4 },
      glb := { s.glb with boot := leField r 20 4, epoch := leField r 24 4 },
      cfg := { s.cfg with segCounts := (List.range 4).map fun i => leField r (40 + 4 * i) 4 } }

/-- The image hash that a power record carries. -/
def recordHash (r : List Byte) : BitVec 384 := BitVec.ofNat 384 (fieldBe r 56 48)

/-- The entries of the remap tables that the records of the area give (R351). -/
def Chip.restoreRemaps (s : Chip) : Chip :=
  (bySeq (s.goodRecords remapBase 1024)).foldl (fun t r =>
    let ch := leField r 5 1
    let k := leField r 6 1
    if k == 0xFF then t.modChan ch fun c => { c with remap := [] }
    else t.modChan ch fun c => { c with remap := Tab.ins c.remap k (leField r 16 4, leField r 20 4) }) s

end Sys2Proof.Machine
end

