-- ==== Sys2Proof/Machine/Start.lean ====
section
/-!
DEFINITION. The phases of a start (14 R352 to R364): SFDP, the choice of a slot, the configuration at S2, SRAM, training,
the host-port gate, MAINTENANCE, and the records that the configuration store completes.
-/
namespace Sys2Proof.Machine

/-! ### The recorder at S2 (16 R389, R390) -/

/-- How the unit came back: 0 its own seal, 1 a warm resume, 2 neither (16 Table 16-5, 03 Table 3-20). -/
def Chip.stopDetail (s : Chip) : Nat := if s.cfg.warm then 1 else if s.syz.sealedSelf then 0 else 2

/-- The sequence is set: the START record comes first, whatever waits after it, and a mark is persisted where the store
can take it. -/
def Chip.setSequence (s : Chip) : Chip :=
  let h := s.startMark
  let d := s.stopDetail
  let e : Event := { src := 0, inst := 0xFFFF, code := 1, sev := 0, flags := 2, clamp := none,
                     payload := le 4 s.glb.boot ++ le 4 s.glb.epoch ++ le 8 h ++ le 1 d }
  let s1 := { s with
    glb := { s.glb with detail := d },
    evr := { s.evr with next := h + 65536, first := h + 65536, isSet := true, mark := h, asked := h + 65536,
                        limit := s.cfg.flashOk, queue := e :: s.evr.queue } }
  (if s.cfg.flashOk then s1.askPower (h + 65536) else s1).flushEvents

/-! ### MAINTENANCE (14 R364, Table 14-8) -/

/-- The addresses of logical port 0 in MAINTENANCE (14 Table 14-8): fe80::/64 with the modified EUI-64 of the MAC address,
and 169.254.(1 + (byte 4 mod 254)).(byte 5; log 151). -/
def maintenanceAddr (mac : BitVec 48) : PortAddr :=
  let b := be 6 mac.toNat
  let n (i : Nat) : Nat := fieldBe b i 1
  let eui := [BitVec.ofNat 8 (Nat.xor (n 0) 2)] ++ slice b 1 2 ++ [0xFF, 0xFE] ++ slice b 3 3
  { PortAddr.blank with
    v6 := BitVec.ofNat 128 (0xFE80 * 2 ^ 112 + unbe eui),
    v4 := BitVec.ofNat 32 (169 * 2 ^ 24 + 254 * 2 ^ 16 + (1 + n 4 % 254) * 256 + n 5) }

/-- Training begins on every channel of the regions that work (10 R265, R266): TRAIN_STS reads RUNNING. -/
def Chip.startTraining (s : Chip) : Chip :=
  ((List.range s.nChans).filter fun n => !bit s.cmt.fencedRegions (n / 3)).foldl (fun t n => t.modChan n fun k => { k with train := 1 }) s

/-- MAINTENANCE: safe defaults, service on logical port 0 alone, the blocks gated and the Syzygy lanes idle. -/
def Chip.toMaintenance (s : Chip) : Chip :=
  let s1 := { s with
    hpx := { Hpx.reset with service := true, mac := s.hpx.mac, addr := [(0, maintenanceAddr s.hpx.mac)], c2c := 1,
                            training := 1, advert := [(0, 2)] },
    syz := { s.syz with links := 0 },
    cfg := { s.cfg with warm := false, active := none, hash := 0, gen := 0 } }
  ((s1.enter .maintenance).setSequence).startTraining

/-! ### S0 and S1 (14 R346, R363) -/

/-- Slots that are no candidate recorded, and the candidates listed (14 R363). -/
def Chip.beginS1 (s : Chip) : Chip :=
  let s1 := (s.restorePower).enterPhase 1
  let s2 := { s1 with glb := { s1.glb with boot := (s1.glb.boot + 1) % 2 ^ 32 } }
  let crc := (List.range 2).foldl (fun m i => setBit m i (s2.slotState i == 2 && s2.slotCrcOk i)) 0
  let s3 := { s2 with cfg := { s2.cfg with cands := s2.candidates, crcOk := crc, sigOk := 0, last := s.powerRecord } }
  let s4 := ([0, 1].filter fun i => !s3.cfg.cands.contains i).foldl (fun t i =>
    t.slotEvent i (Config.openCode 2 (s3.slotState i))) s3
  if s4.cfg.cands.isEmpty then s4.toMaintenance else s4

/-- The identity opened, the writer ID and the base MAC address taken (15 R380, R382, 14 Table 14-3 S0): an identity that does not open is an event. -/
def Chip.identify (s : Chip) (otp : Otp) : Chip :=
  let idFail := otp.identity.isSome && !Config.wrapOpens s.glb.boot
  let s0 := { s with sec := { s.sec with idFail, writer := writerOf otp }, hpx := { s.hpx with mac := otp.mac.getD 0 } }
  if idFail then s0.raise 0x10 0xFFFF 4 3 0 [] else s0

/-- The flash has every property of 14 R346: its areas are found, and S1 begins. -/
def Chip.foundFlash (s : Chip) : Chip := ({ s with cfg := { s.cfg with flashOk := true } }).findAreas.beginS1

/-- The flash lacks a property: a store with no valid image (14 R346). -/
def Chip.noFlash (s : Chip) : Chip :=
  let s1 := s.enterPhase 1
  ({ s1 with glb := { s1.glb with boot := (s1.glb.boot + 1) % 2 ^ 32 } }).toMaintenance

/-- The SFDP table has been read (14 R346). -/
def sfdpEffect (otp : Otp) (ok : Bool) (s : Chip) : Chip :=
  if s.glb.state != .start || !s.cfg.begun || s.cfg.phase != 0 then s
  else if ok then (s.identify otp).foundFlash
  else (s.identify otp).noFlash

def execSfdpReadComplete (ok : Bool) (s : State) : Host.Outcome State Fault Refusal :=
  .next (s.on (sfdpEffect s.otp ok))

/-- The warm form is refused (14 R356): the start goes on in its full form, and what the DRAM holds is discarded. -/
def Chip.refuseWarm (s : Chip) (cause : Nat) : Chip :=
  let s1 := { s with
    cfg := { s.cfg with warm := false, roleDone := s.cfg.roleDone && !s.syz.tkoDue },
    pgm := { s.pgm.cold with space := s.pgm.space, budget := s.pgm.budget, budget0 := s.pgm.budget0,
                             pinSet := s.pgm.pinSet, lowSet := s.pgm.lowSet },
    str := { s.str.forget with sets := s.str.sets.map fun (e : Nat × StripeSet) => (e.1, { e.2 with segs := [] }) },
    dmc := { s.dmc with chans := s.dmc.chans.map fun (e : Nat × Channel) => (e.1, { e.2 with bad := [] }) },
    syz := { s.syz with ringKept := false, tkoDue := false, ring := [], ringAt := 0, pos := Nat.max s.syz.pos s.syz.accepted, accepted := 0, release := 0, mirror := [], mclean := [], mpages := [] } }
  s1.raise 0x0F 0xFFFF 3 1 0 [BitVec.ofNat 8 cause]

/-! ### S2 (14 Table 14-3) -/

/-- What the image gives the host ports and the Syzygy link's addresses (03 R53, R56; 12 R296): the spec gives them no register,
so these are free (log 20). -/
def Chip.imagePorts (s : Chip) : Chip :=
  let d := s.fresh
  let w (a : Nat) : Nat := (Config.openWord a d).toNat
  let blocks := if s.glb.sl4804 then 1 else 4
  let modes := (List.range 4).map fun r => w (0x100000 + 0x10000 * r) % 3
  let ports := (List.range (4 * blocks)).filter fun p => p % ([4, 2, 1].getD (modes.getD (p / 4) 2) 1) == 0
  let tab (f : Nat → Nat) : Tab Nat := ports.map fun p => (p, f p)
  let wide (a p : Nat) : Nat := (w (a + 16 * p) * 2 ^ 32 + w (a + 16 * p + 4)) * 2 ^ 64 + w (a + 16 * p + 8) * 2 ^ 32 + w (a + 16 * p + 12)
  let addr (p : Nat) : PortAddr :=
    { v6 := BitVec.ofNat 128 (wide 0x1E1000 p), plen := w (0x1E0300 + 4 * p) % 129, router := BitVec.ofNat 128 (wide 0x1E2000 p),
      v4 := BitVec.ofNat 32 (w (0x1E0400 + 4 * p)), pcp := w (0x1E0500 + 4 * p) % 8, hop := w (0x1E0600 + 4 * p) % 256,
      dscp := (List.range 4).map fun k => w (0x1E0700 + 16 * p + 4 * k) % 64 }
  let c2c := w 0x1E0008 % 2 ^ 20
  { s with
    fresh := d + 1,
    syz := { s.syz with src := w 0x1E0010 % 65536 * 2 ^ 32 + w 0x1E0014, dst := w 0x1E0018 % 65536 * 2 ^ 32 + w 0x1E001C },
    hpx := { s.hpx with
      modes := modes, enabled := (ports.filter fun p => bit (w 0x1E0000) p).foldl (fun m p => setBit m p true) 0,
      vlan := tab fun p => w (0x1E0100 + 4 * p) % 4096, frame := tab fun p => 1518 + w (0x1E0200 + 4 * p) % 7699,
      pauseEn := w 0x1E0004 % 65536, addr := ports.map fun p => (p, addr p), c2c := c2c, training := c2c,
      advert := tab fun p => modes.getD (p / 4) 2 } }

/-- One REGIONS record (14 R360): ignored when its index is out of order or too large, else clamped on the table so far. -/
def Chip.regionRecord (s : Chip) (n : Nat) (prev : Option Nat) (r : List Byte) : Chip × Option Nat :=
  let idx := leField r 0 4
  let late := match prev with
    | some p => idx ≤ p
    | none => false
  if late || 65535 < idx then (s.clamped (itemField 2 n) 0 0 0, prev)
  else
    let b := slice r 4 48
    let e := Region.ofBytes b
    let c := s.clampEntry s.rgn.table idx { e with offTko := false, offRbld := false }
    ((s.entryClamps idx 0 (reservedClamps b ++ c.2)).setRegion idx c.1, some idx)

/-- The REGIONS section applied. -/
def Chip.regionsOf (s : Chip) (b : List Byte) : Chip :=
  ((List.range (b.length / 52)).foldl (fun (acc : Chip × Option Nat) n =>
    acc.1.regionRecord n acc.2 (slice b (52 * n) 52)) (s, none)).1

/-- A key put in a ticket-key slot, or the slot emptied. -/
def Chip.setKey (s : Chip) (slot : Nat) (key : Option (List Byte)) : Chip :=
  { s with sec := { s.sec with keys := match key with
    | some k => Tab.ins s.sec.keys slot k
    | none => Tab.del s.sec.keys slot } }

/-- The TICKET_KEYS section applied (14 R361): a key that is no point of the curve leaves its slot empty, and is reported. -/
def Chip.keysOf (s : Chip) (b : List Byte) : Chip :=
  (List.range (Nat.min 4 (b.length / 100))).foldl (fun t n =>
    let r := slice b (100 * n) 100
    let slot := leField r 0 1
    let key := slice r 4 96
    if 3 < slot then t.clamped (itemField 3 n) 0 0 0
    else if leField r 1 1 % 2 == 0 then t
    else if Config.onCurve key then t.setKey slot (some key)
    else (t.setKey slot none).clamped (itemField 3 n) 0 0 0) s

/-- The records of the change log that apply, in record-sequence order (14 R350): none, unless the log extends the image
in force (05 R136). -/
def Chip.logRecords (s : Chip) : List (List Byte) :=
  if fieldBe (s.flashRead logHead 48) 0 48 == s.cfg.hash.toNat then bySeq (s.goodRecords logBase 4096) else []

/-- The sets that FORM records name, held until order 3 judges them (09 R234). -/
def Chip.formsOf (s : Chip) (rs : List (List Byte)) : Chip :=
  (rs.filter fun r => leField r 5 1 == 3).foldl (fun t r =>
    let i := leField r 16 1 % 4
    let g := SetCfg.ofWords (bytesWords 8 (slice r 20 32))
    let t1 := { t with str := { t.str with pend := Tab.ins t.str.pend i g } }
    t1.modSet i fun x => { x with ident := BitVec.ofNat 64 (leField r 52 8) }) s

/-- The REGION records applied to the table, clamped, in order (05 R136). -/
def Chip.logRegions (s : Chip) (rs : List (List Byte)) : Chip :=
  (rs.filter fun r => leField r 5 1 == 1).foldl (fun t r =>
    let idx := leField r 16 4 % 65536
    let e := Region.ofBytes (slice r 24 48)
    let c := t.clampEntry t.rgn.table idx { e with offTko := false, offRbld := false }
    (t.entryClamps idx 3 c.2).setRegion idx c.1) s

/-- The TICKET_KEY records applied after TICKET_KEYS (15 R383). -/
def Chip.logKeys (s : Chip) (rs : List (List Byte)) : Chip :=
  (rs.filter fun r => leField r 5 1 == 2).foldl (fun t r =>
    t.setKey (leField r 16 1 % 4) (if leField r 17 1 == 1 then some (slice r 20 96) else none)) s

/-- A change log that extends another image is not applied: it is cleared, and an event names the image it extends (05 R136).
A log whose head is erased extends none, and is only given its head (log 35; log 105). -/
def Chip.clearLog (s : Chip) : Chip :=
  let head := s.flashRead logHead 48
  if fieldBe head 0 48 == s.cfg.hash.toNat then s
  else
    let s1 := (s.flashErase logHead 0x90000).flashWrite logHead (be 48 s.cfg.hash.toNat)
    let s2 := { s1 with cfg := { s1.cfg with logUsed := 0 } }
    if head.all (· == 0xFF) then s2 else s2.raise 0x03 0xFFFF 3 2 0 (head.take 16)

/-- The sections whose ID is reserved, skipped and reported (14 Table 14-6). -/
def Chip.skipSections (s : Chip) (slot : Nat) : Chip :=
  ((s.sections slot).filter fun e => !(1 ≤ e.2.id && e.2.id ≤ 3)).foldl (fun t e => t.clamped (itemField 4 e.1) 0 0 0) s

/-- The counter of starts since a switchover last succeeded is above SYZ_SWITCH_WARN (12 R317). -/
def Chip.warnSwitch (s : Chip) : Chip :=
  if s.par 0xC00138 < s.syz.age then s.raise 0x0C 0xFFFF 5 2 0 [Config.openCode 4 0] else s

/-- ECL_DRAIN_INIT, where no power record gives a rate (13 R340). -/
def Chip.initRate (s : Chip) : Chip :=
  if s.powerRecord.isSome then s
  else
    let r := s.par 0xE00010
    { s with ecl := { s.ecl with rate := r, start := r, low := r } }

/-- S2 has applied BIFUR (09 R221); NVH_PERST_DLY, with its image value, may have passed already (R223): then DRV_PERST_N is
released at S2. -/
def Chip.perstMoment (s : Chip) : Chip :=
  let due := s.cfg.t0 + s.par 0x8E0000 * 1000000
  (if due ≤ s.now then { s with str := { s.str with delay := true } } else s).judgePorts.releasePerst

/-- The settings of an image, the sets that FORM records name, and the checks of Table 14-9 up to order 5. -/
def Chip.applySettings (s : Chip) (otp : Otp) (slot : Nat) : Chip :=
  let s1 := ((s.skipSections slot).enterPhase 2).settings otp (s.section_ slot 1)
  (((s1.formsOf s1.logRecords).initRate)).checksAtS2

/-- The regions and keys of an image, with the change log over them (order 8). -/
def Chip.applyTables (s : Chip) (slot : Nat) : Chip :=
  let rs := s.logRecords
  let s1 := ((s.regionsOf (s.section_ slot 2)).logRegions rs).keysOf (s.section_ slot 3)
  let s2 := { s1 with cfg := { s1.cfg with logApplied := !rs.isEmpty } }
  (s2.logKeys rs).clearLog

/-- S2 (14 Table 14-3): settings and tables, remap entries, host ports and the recorder; then S3. -/
def Chip.configure (s : Chip) (otp : Otp) (slot : Nat) : Chip :=
  let s1 := ((s.applySettings otp slot).applyTables slot).restoreRemaps
  (((((s1.imagePorts).setSequence).warnSwitch).perstMoment).enterPhase 3).powerUp (rangeFrom 0 16)

/-- A slot chosen (14 R356, R363): its image in force, the warm form refused where the power record names another, then S2. -/
def Chip.chooseSlot (s : Chip) (otp : Otp) (slot : Nat) : Chip :=
  let hash := Config.sha384 (s.signedBytes slot)
  let s1 := { s with cfg := { s.cfg with
    active := some slot, hash := hash, gen := s.imageGen slot, cands := [], sigOk := setBit s.cfg.sigOk slot true } }
  let same := match s.cfg.last with
    | some r => recordHash r == hash
    | none => false
  (if s1.cfg.warm && !same then s1.refuseWarm 0 else s1).configure otp slot

/-- A candidate's image has been read (14 R363): it is chosen, or the next is tried. -/
def imageReadEffect (otp : Otp) (slot : Nat) (s : Chip) : Chip :=
  if s.glb.state != .start || s.cfg.phase != 1 || s.cfg.cands.head? != some slot then s
  else match s.imageFails otp slot (s.slotField slot 8) with
    | some k =>
      let s1 := { s with cfg := { s.cfg with cands := s.cfg.cands.drop 1, crcOk := setBit s.cfg.crcOk slot (k == 2) } }
      let s2 := s1.slotEvent slot (BitVec.ofNat 8 k)
      if s2.cfg.cands.isEmpty then s2.toMaintenance else s2
    | none => s.chooseSlot otp slot

def execImageReadComplete (slot : Nat) (s : State) : Host.Outcome State Fault Refusal :=
  .next (s.on (imageReadEffect s.otp slot))

/-! ### S3 (14 R353, 16 R405) -/

/-- A silicon region fenced at S3 (16 R405): its domains gated, the unit degraded, the fence recorded with its cause. -/
def Chip.fenceAtStart (s : Chip) (r cause : Nat) : Chip :=
  (({ s with cmt := { s.cmt with fencedRegions := setBit s.cmt.fencedRegions r true },
             glb := { s.glb with degraded := true } }).gate ([16 + r] ++ rangeFrom (4 * r) 4) true).raise 0x12 r 1 3 0
    ([2] ++ le 2 r ++ le 1 cause)

/-- SRAM initialisation and self-test have ended: failing units are fenced, a region with its last block, or the unit is in
FAULT (14 Table 14-4; 16 R400, R405). -/
def sramInitEffect (fails : List SramFail) (s : Chip) : Chip :=
  if s.glb.state != .start || s.cfg.phase != 3 then s
  else
    let rs := (List.range s.nRegions).filter fun r => fails.contains (.region r)
    let bs := (List.range s.nBlocks).filter fun b => fails.contains (.block b) && !rs.contains (b / 4)
    let s1 := rs.foldl (fun t r => t.fenceAtStart r 5) s
    let s2 := bs.foldl (fun (t : Chip) (b : Nat) =>
      (({ t with cmt := { t.cmt with fencedBlocks := setBit t.cmt.fencedBlocks b true } }).gate [b] true).raise 0x12 b 1 3 0
        ([1] ++ le 2 b ++ [4])) s1
    let four := (List.range s.nRegions).filter fun r => (rangeFrom (4 * r) 4).all bs.contains
    let s3 := four.foldl (fun t r => t.fenceAtStart r 4) s2
    if fails.contains .chip then s3.toFault 6
    else if rs.length + four.length == s.nRegions then s3.toFault 2
    else (s3.enterPhase 4).startTraining

def execSramInitComplete (fails : List SramFail) (s : State) : Host.Outcome State Fault Refusal :=
  .next (s.on (sramInitEffect fails))

/-! ### S4 (10 R256 to R266, 08 R190, R218, R220) -/

/-- Why a DIMM does not meet Table 10-1, by row of the table; a third slot of a channel is row 5 (log 31). -/
def dimmFault (d : Dimm) : Option Nat :=
  if !d.registered || !(d.stack == 1 || d.stack == 2 || d.stack == 4) then some 0
  else if d.checkBits != 8 then some 1
  else if !(d.width == 4 || d.width == 8) || !(d.gbit == 16 || d.gbit == 24 || d.gbit == 32) then some 2
  else if !(d.ranks == 1 || d.ranks == 2) then some 3
  else if 2 ≤ d.slot then some 4
  else if 256 < d.capGiB || d.capGiB == 0 then some 5
  else if d.speed.isNone then some 6
  else none

/-- The DIMMs of a channel that meet Table 10-1. -/
def dimmsOf (t : ChanTrain) : List Dimm := t.dimms.filter fun d => (dimmFault d).isNone

/-- Density code of 14 Table 14-12. -/
def densityCode (gbit : Nat) : Nat := if gbit == 16 then 0 else if gbit == 24 then 1 else 2

/-- The population of a channel (10 R257): none where its DIMMs differ from each other (log 137). -/
def popOf (t : ChanTrain) : Option Population := match dimmsOf t with
  | [] => none
  | d :: r =>
    if r.all fun e => e.ranks == d.ranks && e.stack == d.stack && e.width == d.width && e.gbit == d.gbit && e.capGiB == d.capGiB then
      some { dimms := r.length + 1, ranks := d.ranks, stack := d.stack, width := d.width, density := densityCode d.gbit, capGiB := d.capGiB }
    else none

/-- The population that most channels share, that of the lowest channel among equals (10 R257). -/
def reference (ts : List ChanTrain) : Option Population :=
  let ps := (ts.mergeSort fun a b => a.ch ≤ b.ch).filterMap popOf
  let votes (p : Population) : Nat := (ps.filter (· == p)).length
  let most := maxOf (ps.map votes)
  ps.find? fun p => votes p == most

/-- The package ranks whose every lane passed (10 R266). -/
def Chip.ranksPass (s : Chip) (t : ChanTrain) : Nat :=
  t.ranks.zipIdx.foldl (fun m e => setBit m e.2 (!e.1.isEmpty && e.1.all s.lanePasses)) 0

/-- Every rank of a channel has passed (10 R266). -/
def Chip.rankAll (s : Chip) (t : ChanTrain) : Bool := match popOf t with
  | some p => s.ranksPass t % 2 ^ (p.dimms * p.ranks) == 2 ^ (p.dimms * p.ranks) - 1
  | none => false

/-- Every eye of a channel: package rank, byte lane, direction (0 read, 1 write) and width. -/
def eyesOf (t : ChanTrain) : List (Nat × Nat × Nat × Nat) :=
  t.ranks.zipIdx.flatMap fun r => r.1.zipIdx.flatMap fun l => [(r.2, l.2, 0, l.1.rdEye), (r.2, l.2, 1, l.1.wrEye)]

/-- The narrowest eye of a channel (10 R266), the first of several. -/
def worstEye (t : ChanTrain) : Nat × Nat × Nat × Nat :=
  let es := eyesOf t
  let low := minOf (2 ^ 32) (es.map (·.2.2.2))
  (es.find? fun e => e.2.2.2 == low).getD (0, 0, 0, 0)

/-- A channel's training result taken (17 Table 17-13). -/
def Chip.trained (s : Chip) (t : ChanTrain) (used : Bool) (speed : Nat) : Chip :=
  let w := worstEye t
  let ds := dimmsOf t
  let serials := (List.range 2).map fun k => ((ds.find? (·.slot == k)).map (·.serial)).getD 0
  s.modChan t.ch fun k => { k with
    used := used, excluded := !used, train := if ds.isEmpty then 0 else if s.rankAll t then 2 else 3, speed := speed,
    setB := false, setA := { speed := speed, ranks := t.ranks }, slots := (List.range 2).filter fun k => ds.any (·.slot == k),
    ueOnce := if k.serials == serials then k.ueOnce else [], serials := serials, pattern := none,
    rankPass := s.ranksPass t, lane := w.2.1, dir := w.2.2.1, eye := w.2.2.2, lanes := t.ranks.getD w.1 [], rows := t.rows,
    rfm := t.rfm, raa := [], spd := minOf 2 (ds.filterMap (·.speed)), selfRef := false, stopped := false, debt := [], scrubAt := 0, lapAt := s.now }

/-- Bytes of DRAM in the channels in use. -/
def Chip.tierBytes (s : Chip) : Nat := match s.dmc.pop with
  | some p => s.dmc.map.length * p.dimms * p.capGiB * 2 ^ 30
  | none => 0

/-- Frames of the DRAM tier (08 Table 8-1): what the map area, descriptors, delta store, twin areas and the spare frame of
each channel leave, and no more than R260 can place (log 36). -/
def Chip.layFrames (s : Chip) : Nat :=
  let sp := s.pgm.space
  let nodes := ceilDiv sp 262144 + ceilDiv sp 134217728 + 1
  let fixed := ceilDiv sp 512 * 6144 + nodes * 4096 + s.pgm.budget * 65536 + (s.syz.ringGiB + s.syz.mirrorGiB) * 2 ^ 30 +
    s.dmc.map.length * 65536
  let rows := (s.chan (s.dmc.map.headD 0)).rows
  let place := s.dmc.map.length * (2 ^ (s.rowBits + s.logRanks) * (rows - 1)) - s.dmc.map.length
  Nat.min place ((s.tierBytes - fixed) / 65552)

/-- SYZ_MIRROR_SIZE against half the tier (12 Table 12-8); entries are clamped again when it falls. -/
def Chip.mirrorLimit (s : Chip) : Chip :=
  let half := s.tierBytes / 2 ^ 31
  if s.syz.mirrorGiB ≤ half then s
  else
    let t := s.depend 0xC00108 half
    ({ t with syz := { t.syz with mirrorGiB := half } }).reclampAll 2

/-- The frames and the delta store laid out, as they stay until the next start (08 R190). -/
def Chip.layTier (s : Chip) : Chip := { s with pgm := { s.pgm with total := s.layFrames, store := s.pgm.budget * 512 } }

/-- The limits that need the number of frames (08 R220): defaults for the fields the image left, then their checks, and the
region entries against the pinning limit, which has effect from here on (14 Table 14-9 orders 6 and 8). -/
def Chip.frameLimits (s : Chip) : Chip :=
  let s0 := { s with cfg := { s.cfg with dramDone := true } }
  let s1 := (if s.pgm.lowSet then s0 else s0.setPar 0x700014 (s.pgm.total / 100)).recheck 0x700014
  let s2 := if s1.pgm.pinSet then s1 else s1.setPar 0x70001C s1.pinBound
  (s2.recheck 0x70001C).reclampAll 2

/-- The warm form cannot go on (14 R356): the channels or the population differ from those of the power record. -/
def Chip.warmDiffers (s : Chip) : Bool :=
  match s.cfg.last with
  | none => true
  | some r =>
    let mask := s.dmc.map.foldl (fun m n => setBit m n true) 0
    match s.dmc.pop with
    | none => true
    | some p => leField r 104 2 != mask || leField r 106 1 != p.dimms || leField r 107 1 != p.ranks ||
        leField r 108 1 != p.stack || leField r 109 1 != p.width % 16 + 16 * p.density || leField r 110 2 != p.capGiB

/-- DMC_SPEED against SPD and population (10 R258, order 7): the speed code that the channels run at (log 158). -/
def Chip.checkSpeed (s : Chip) : Chip :=
  let top := s.speedLimit
  if top < s.par 0xAE0000 then s.depend 0xAE0000 top else s

/-- A channel with DIMMs that is not taken, recorded (10 R257, R266): the first rank and lane that failed, or another
population. -/
def Chip.excluded (s : Chip) (same : Bool) (t : ChanTrain) : Chip :=
  let rank := ((List.range 8).find? fun r => !bit (s.ranksPass t) r).getD 0
  let lane := ((t.ranks.getD rank []).findIdx? fun l => !s.lanePasses l).getD 0
  s.raise 0x0A t.ch 2 3 0 (if same then le 1 rank ++ le 1 lane ++ [Config.openCode 5 1] else [0, 0, Config.openCode 5 0])

/-- The channels taken (10 R256 to R266): DIMMs that do not meet Table 10-1 are not used, the reference population is found,
and the other channels, and those with a rank that failed, are excluded. -/
def Chip.takeChannels (s : Chip) (ts : List ChanTrain) : Chip :=
  let s0 := ts.foldl (fun t c => c.dimms.foldl (fun u d => match dimmFault d with
    | some k => u.raise 0x0A c.ch 1 2 0 (le 1 d.slot ++ [Config.openCode 8 k])
    | none => u) t) s
  let pop := reference ts
  let same (t : ChanTrain) : Bool := (popOf t).isSome && popOf t == pop
  let used := ts.filter fun t => same t && s.rankAll t
  let s1 := { s0 with dmc := { s0.dmc with pop := pop, map := (List.range s.nChans).filter fun n => used.any (·.ch == n) } }
  let s2 := ts.foldl (fun t c => t.trained c (used.any (·.ch == c.ch)) 0) s1
  (ts.filter fun t => !(dimmsOf t).isEmpty && !(same t && s.rankAll t)).foldl (fun t c => t.excluded (same c) c) s2

/-- Every channel that trained at a speed (10 R258, R266). -/
def Chip.runAt (s : Chip) (code : Nat) : Chip :=
  ((List.range s.nChans).filter fun n => !(s.chan n).slots.isEmpty).foldl (fun t n => t.modChan n fun k => { k with speed := code, setA := { k.setA with speed := code } }) s

/-- What training found taken at a start (10 R256 to R266): the channels, the speed, the frames, then S5, and S6 once
the role is decided (log 139). No channel at all is FAULT (log 159). -/
def Chip.takeTraining (s : Chip) (ts : List ChanTrain) : Chip :=
  let s1 := (s.takeChannels ts).checkSpeed
  let s5 := s1.runAt (s1.par 0xAE0000)
  if s5.dmc.map.isEmpty then s5.toFault 7
  else
    let s6 := if s5.cfg.warm && s5.warmDiffers then s5.refuseWarm 1 else s5
    let s7 := if s6.cfg.warm then s6.mirrorLimit else (s6.mirrorLimit).layTier
    (((s7.checkRemaps).frameLimits).enterPhase 5).trySix

/-- What training found taken in MAINTENANCE (10 R258, 14 Table 14-8): every channel runs at DDR5-4800, and no frame is laid
out. -/
def Chip.takeIdle (s : Chip) (ts : List ChanTrain) : Chip :=
  let s1 := (s.takeChannels ts).runAt 0
  if s1.dmc.map.isEmpty then s1.toFault 7 else s1.checkRemaps

/-- Training has ended (10 R265): channels without the reference population, or with a rank that failed, are excluded. -/
def trainingEffect (rs : List ChanTrain) (s : Chip) : Chip :=
  let ts := rs.filter fun t => t.ch < s.nChans && !bit s.cmt.fencedRegions (t.ch / 3)
  if s.glb.state == .maintenance && s.dmc.map.isEmpty then s.takeIdle ts
  else if s.glb.state != .start || s.cfg.phase != 4 || s.cfg.dramDone then s
  else s.takeTraining ts

def execTrainingComplete (rs : List ChanTrain) (s : State) : Host.Outcome State Fault Refusal :=
  .next (s.on (trainingEffect rs))

/-! ### The host ports (03 R53, 14 R354, R364) -/

/-- A logical port that the configuration in force may bring up: an enabled one of a region that is not fenced (16 R405), from
S2 on, or port 0 in MAINTENANCE. -/
def Chip.portThere (s : Chip) (p : Nat) : Bool :=
  s.hostOn && bit s.hpx.enabled p && !bit s.cmt.fencedRegions (p / 4) && (s.glb.state == .maintenance || 2 ≤ s.cfg.phase)

/-- A logical port comes up or goes down (03 R53): its training (R55), its record, its report and advertisements, and the
gate of R354. -/
def hostLinkEffect (p : Nat) (up : Bool) (s : Chip) : Chip :=
  if !s.portThere p || s.portUp p == up then s
  else
    let s1 := { s with hpx := { s.hpx with up := setBit s.hpx.up p up } }
    let s2 := (s1.train p !up).raise 1 p 1 0 0 [BitVec.ofNat 8 p, BitVec.ofNat 8 (b2n up), BitVec.ofNat 8 (s.hpx.modes.getD (p / 4) 0)]
    if up then ((s2.reportPort p).announcePort p).tryActive else s2

def execHostLinkChange (port : Nat) (up : Bool) (s : State) : Host.Outcome State Fault Refusal :=
  .next (s.on (hostLinkEffect port up))

/-- CFG_PORT_WAIT has passed since PWR_GOOD_IN (14 R354). -/
def portWaitEffect (s : Chip) : Chip :=
  if s.glb.state == .start && s.cfg.begun then ({ s with cfg := { s.cfg with gateOpen := true } }).tryActive else s

def execPortWaitExpiry (s : State) : Host.Outcome State Fault Refusal := .next (s.on portWaitEffect)

/-- 2 s without a link on port 0 in MAINTENANCE: C2C, with auto-negotiation and training, and C2M, without, alternate
(14 Table 14-8). -/
def alternateEffect (s : Chip) : Chip :=
  if s.glb.state == .maintenance && !s.portUp 0 then
    ({ s with hpx := { s.hpx with c2m := !s.hpx.c2m, c2c := setBit s.hpx.c2c 0 s.hpx.c2m } }).train 0 s.hpx.c2m
  else s

def execMaintenanceModeAlternate (s : State) : Host.Outcome State Fault Refusal := .next (s.on alternateEffect)

/-! ### CFG_CTL (14 R364, R367) -/

/-- RESTART (log 37): a new start from START, MAINTENANCE, UMBRA or ACTIVE; elsewhere, and in a down sequence or one that the chip
abandons (13 R327), it has no effect. -/
def restartEffect (s : Chip) : Chip := if s.pws.dir == 2 || s.pws.abandon then s else match s.glb.state with
  | .start => s.beginStart false
  | .maintenance => s.beginStart false
  | .umbra => s.beginStart false
  | .active => s.beginStart false
  | _ => s

def execRestart (ses : Session) (s : State) : Host.Outcome State Fault Refusal :=
  .next (s.on fun c => c.asRole ses 23 2 restartEffect)

/-- CLAMP_CLR empties the clamp log (14 R367). -/
def clampClrEffect (s : Chip) : Chip :=
  { s with cfg := { s.cfg with log := [], overflow := false },
           evr := { s.evr with queue := s.evr.queue.map fun (e : Event) => { e with clamp := none } } }

def execClampClr (ses : Session) (s : State) : Host.Outcome State Fault Refusal :=
  .next (s.on fun c => c.asRole ses 23 1 clampClrEffect)

/-! ### Records written (14 R348, R349) -/

/-- The records that an area takes along when it moves (14 R349): its newest, or one for every valid remap entry. -/
def Chip.moveRecords (s : Chip) (i : Nat) : List (List Byte) :=
  let base := areaBase i + 0x10000 * s.cfg.sector.getD i 0
  if i == 1 then ((newest (s.goodRecords base 512)).map (·.2)).toList
  else
    let rs := s.goodRecords base 512
    (List.range s.nChans).flatMap fun ch => (List.range 16).filterMap fun k =>
      if (Tab.find (s.chan ch).remap k).isNone then none
      else (newest (rs.filter fun e => leField e.2 5 1 == ch && leField e.2 6 1 == k)).map (·.2)

/-- A full area moves to its other sector, once that is erased. -/
def Chip.moveArea (s : Chip) (i : Nat) : Chip :=
  let other := 1 - s.cfg.sector.getD i 0
  let base := areaBase i + 0x10000 * other
  let rs := s.moveRecords i
  let s1 := (rs.zipIdx).foldl (fun t e => t.flashWrite (base + 128 * e.2) e.1) s
  { s1 with cfg := { s1.cfg with sector := setAt s1.cfg.sector i other, fill := setAt s1.cfg.fill i rs.length } }

/-- A record programmed in an alternating area; at three quarters the other sector's erase begins (14 R348). -/
def Chip.putRecord (s : Chip) (i : Nat) (body : List Byte) : Chip :=
  let s0 := if 512 ≤ s.cfg.fill.getD i 0 then s.moveArea i else s
  let n := s0.cfg.fill.getD i 0
  let s1 := s0.flashWrite (areaBase i + 0x10000 * s0.cfg.sector.getD i 0 + 128 * n) (sealRecord body)
  let s2 := { s1 with cfg := { s1.cfg with fill := setAt s1.cfg.fill i (n + 1) } }
  s2.eraseOther i

/-- A change-log record complete: the edit it carries is persisted, and its journal entry no longer holds J (05 R135,
12 R302). -/
def Chip.logWritten (s : Chip) (seq : Nat) : Chip :=
  let s1 := if s.rgn.logAt == seq then ({ s with rgn := { s.rgn with logDone := true } }).judgePersisted else s
  let keys := s1.cfg.pend.any fun e => e.1 == 0 && leField e.2 5 1 == 2
  let s2 := { s1 with sec := { s1.sec with tktBusy := s1.sec.tktBusy && keys } }
  ({ s2 with syz := { s2.syz with rgnWait := s2.syz.rgnWait.filter (·.2 != seq) } }).advanceRelease

/-- The oldest record write, of the change log, completes at its place (14 R349). -/
def Chip.putLog (s : Chip) (body : List Byte) (rest : List (Nat × List Byte)) : Chip :=
  let n := s.cfg.logUsed - ((s.cfg.pend.filter (·.1 == 0)).length)
  let s1 := { s with cfg := { s.cfg with pend := rest } }
  (s1.flashWrite (logBase + 128 * n) (sealRecord body)).logWritten (leField body 8 8)

/-- The oldest record write that is outstanding completes (14 R349). A full area whose other sector is not erased yet
keeps it waiting (log 38). -/
def recordWrittenEffect (s : Chip) : Chip :=
  match s.cfg.pend with
  | [] => s
  | (area, body) :: rest =>
    if !s.cfg.flashOk then s
    else if area == 0 then s.putLog body rest
    else if 512 ≤ s.cfg.fill.getD (area - 1) 0 && !s.otherErased (area - 1) then s
    else
      let s1 := ({ s with cfg := { s.cfg with pend := rest } }).putRecord (area - 1) body
      if area == 2 then ({ s1 with evr := { s1.evr with mark := Nat.max s1.evr.mark (leField body 32 8) } }).flushEvents else s1

/-- A record write completes; in E5 the last of them lets the seal go out (13 R337). -/
def recordDoneEffect (s : Chip) : Chip := (recordWrittenEffect s).writeSeal

def execFlashRecordWritten (s : State) : Host.Outcome State Fault Refusal := .next (s.on recordDoneEffect)

/-- The background erase of an area's other sector completes (14 R348). -/
def backgroundEraseEffect (a : StoreArea) (s : Chip) : Chip :=
  let i := match a with
    | .remap => 0
    | .power => 1
  if bit s.cfg.erase i then
    let s1 := s.flashErase (areaBase i + 0x10000 * (1 - s.cfg.sector.getD i 0)) 0x10000
    { s1 with cfg := { s1.cfg with erase := setBit s1.cfg.erase i false } }
  else s

def execBackgroundEraseComplete (a : StoreArea) (s : State) : Host.Outcome State Fault Refusal :=
  .next (s.on (backgroundEraseEffect a))

end Sys2Proof.Machine
end

