-- ==== Sys2Proof/Machine/Stage.lean ====
section
/-!
DEFINITION. Staging a new image (14 R369 to R371): the commands of CFG_STAGE_CTL into the inactive slot, and the end of a
staging whose owner is quiet.
-/
namespace Sys2Proof.Machine

/-- The inactive slot: the other one of the active slot; where none is active the spec names no slot (log 39). -/
def Chip.inactive (s : Chip) : Nat := match s.cfg.active with
  | some i => 1 - i
  | none => (Config.openCode 6 0).toNat % 2

/-- Staging is permitted to a session (14 R369): the state allows it, and no other session owns a staging. -/
def Chip.mayStage (s : Chip) (q : Session) : Bool :=
  (s.glb.state == .active || s.glb.state == .umbra || s.glb.state == .maintenance) && s.cfg.flashOk &&
  (s.cfg.owner.isNone || s.cfg.owner == some q)

/-- A staging command refused. -/
def Chip.stageRefuse (s : Chip) : Chip := { s with cfg := { s.cfg with result := 2 } }

/-- A staging command: ignored while one runs, refused where staging is not permitted. -/
def Chip.stageCommand (s : Chip) (q : Session) (f : Chip → Chip) : Chip :=
  if s.cfg.busy then s else if !s.mayStage q then s.stageRefuse else f s

/-- BEGIN (14 R370): the inactive slot is erased, and state WRITING and the generation are programmed. -/
def stageBeginEffect (q : Session) (s : Chip) : Chip :=
  s.stageCommand q fun t =>
    let b := slotBase t.inactive
    let t1 := ((t.flashErase b 0x410000).flashWrite b [0x7F]).flashWrite (b + 4) (le 4 t.cfg.ofs)
    { t1 with cfg := { t1.cfg with owner := some q, cmd := 1, busy := true, result := 0, nextOfs := 0,
                                   crcOk := setBit t1.cfg.crcOk t.inactive false, sigOk := setBit t1.cfg.sigOk t.inactive false } }

/-- WRITE (14 R370): the window programmed at the image offset, which follows the previous WRITE. -/
def stageWriteEffect (q : Session) (s : Chip) : Chip :=
  s.stageCommand q fun t =>
    if t.cfg.owner != some q || t.slotState t.inactive != 1 || t.cfg.ofs % 256 != 0 || t.cfg.ofs != t.cfg.nextOfs ||
        4194304 ≤ t.cfg.ofs then t.stageRefuse
    else
      let t1 := t.flashWrite (imageBase t.inactive + t.cfg.ofs) (wordsBytes t.cfg.window)
      { t1 with cfg := { t1.cfg with cmd := 2, busy := true, result := 0, nextOfs := t.cfg.ofs + 256 } }

/-- Generation of the active slot, 0 where none is active. -/
def Chip.activeGen (s : Chip) : Nat := if s.cfg.active.isSome then s.cfg.gen else 0

/-- COMMIT (14 R370): the checks of R363 on the slot, then length, header CRC and state COMPLETE. A check that fails
leaves the slot WRITING; a generation not above the active slot's is refused (log 40). -/
def stageCommitEffect (otp : Otp) (q : Session) (s : Chip) : Chip :=
  s.stageCommand q fun t =>
    let i := t.inactive
    if t.cfg.owner != some q || t.slotState i != 1 then t.stageRefuse
    else
      let n := t.imageLen i
      match t.imageFails otp i t.cfg.nextOfs with
      | some k => { t with cfg := { t.cfg with result := 3, crcOk := setBit t.cfg.crcOk i (k == 2) } }
      | none =>
        let t1 := { t with cfg := { t.cfg with crcOk := setBit t.cfg.crcOk i true, sigOk := setBit t.cfg.sigOk i true } }
        if t.slotField i 4 ≤ t.activeGen then t1.stageRefuse
        else
          let b := slotBase i
          let gen := le 4 (t.slotField i 4)
          let t2 := ((t1.flashWrite (b + 8) (le 4 n)).flashWrite (b + 12) (le 4 (crc32c (gen ++ le 4 n)))).flashWrite b [0x3F]
          { t2 with cfg := { t2.cfg with cmd := 3, busy := true, result := 0 } }

/-- ABORT (14 R370): state WITHDRAWN. -/
def stageAbortEffect (q : Session) (s : Chip) : Chip :=
  s.stageCommand q fun t =>
    let t1 := t.flashWrite (slotBase t.inactive) [0x1F]
    { t1 with cfg := { t1.cfg with cmd := 4, busy := true, result := 0 } }

def execStageBegin (ses : Session) (s : State) : Host.Outcome State Fault Refusal :=
  .next (s.on fun c => c.asRole ses 23 2 (stageBeginEffect ses))

def execStageWrite (ses : Session) (s : State) : Host.Outcome State Fault Refusal :=
  .next (s.on fun c => c.asRole ses 23 2 (stageWriteEffect ses))

def execStageCommit (ses : Session) (s : State) : Host.Outcome State Fault Refusal :=
  .next (s.on fun c => c.asRole ses 23 2 (stageCommitEffect s.otp ses))

def execStageAbort (ses : Session) (s : State) : Host.Outcome State Fault Refusal :=
  .next (s.on fun c => c.asRole ses 23 2 (stageAbortEffect ses))

/-- The erase or program of a staging command completes: STAGE_BUSY clears, the result is DONE, and a staging that has
committed or been withdrawn has no owner any more. -/
def stageCompleteEffect (s : Chip) : Chip :=
  if s.cfg.busy then
    { s with cfg := { s.cfg with
      busy := false, result := 1, cmd := 0, owner := if s.cfg.cmd == 3 || s.cfg.cmd == 4 then none else s.cfg.owner } }
  else s

def execStageOperationComplete (s : State) : Host.Outcome State Fault Refusal := .next (s.on stageCompleteEffect)

/-- 60 s with the owner quiet: the staging is abandoned, its slot stays WRITING (14 R371). -/
def stageTimeoutEffect (s : Chip) : Chip := if s.cfg.owner.isSome then s.abandonStaging else s

def execStageTimeout (s : State) : Host.Outcome State Fault Refusal := .next (s.on stageTimeoutEffect)

end Sys2Proof.Machine
end

