-- ==== Sys2Proof/Machine/Sec.lean ====
section
/-!
DEFINITION. Roles, credentials and attestation (15): the session exchange, provisioning, ticket keys, the attestation
report, debug and the TAP.
-/
namespace Sys2Proof.Machine

/-! ### Roles (15 R375, R379) -/

/-- Path code, connection and source address of a session (15 Table 15-3, R378): the I2C target has no address. -/
def Chip.origin (s : Chip) : Session → Nat × Nat × Option (BitVec 128)
  | .i2c => (0, 0, none)
  | .mgmt c => (1, c, (s.conn c).map (·.host))

/-- An exchange or a role's end recorded (15 R378, R379). -/
def Chip.recordSession (s : Chip) (q : Session) (serial role : Nat) (outcome : Byte) : Chip :=
  let o := s.origin q
  s.sessionEvent o.1 o.2.1 serial role outcome

/-- A session's role ends (15 R379) and is recorded; the outcome's code for an end is not listed (log 31). -/
def Chip.endRole (s : Chip) (q : Session) (why : Nat) : Chip :=
  let k := s.ses q
  if k.role == 0 then s
  else (s.modSes q fun k => { k with role := 0, serial := 0 }).recordSession q k.serial k.role (Config.openCode 3 why)

/-- Sessions that hold a role. -/
def Chip.roleCount (s : Chip) : Nat := s.heldRoles.length

/-- 64 sessions hold a role, and this one holds none (15 R375). -/
def Chip.rolesFull (s : Chip) (q : Session) : Bool := (s.ses q).role == 0 && 64 ≤ s.roleCount

/-- A session gains a role, which replaces the one it held (15 R376, R379). -/
def Chip.grant (s : Chip) (q : Session) (role serial : Nat) : Chip :=
  ((s.endRole q 3).modSes q fun k => { k with role := role, serial := serial, challenge := none, cred := [] }).recordSession q
    serial role 0

/-! ### Credentials (15 Table 15-2) -/

/-- Magic, format, role and reserved fields are good; format 0 only before LOCK (15 R381). -/
def credWell (otp : Otp) (b : List Byte) : Bool :=
  let f := leField b 2 1
  leField b 0 2 == 0x4356 && (f == 1 || (f == 0 && !otp.provisioned)) && 1 ≤ leField b 3 1 && leField b 3 1 ≤ 3 &&
  leField b 24 8 == 0

/-- The credential is valid under the image in force (15 R374): in MAINTENANCE, or with no active slot, only a maker's with
minimum generation 0. -/
def Chip.credCurrent (s : Chip) (b : List Byte) : Bool :=
  if s.glb.state == .maintenance || s.cfg.active.isNone then leField b 3 1 == 3 && leField b 8 4 == 0
  else leField b 8 4 ≤ s.cfg.gen && s.cfg.gen ≤ leField b 12 4

/-- The first check of R376 that a credential fails, 0 when none does; format 0 counts in MAINTENANCE only (15 R381). -/
def Chip.credStatus (s : Chip) (otp : Otp) (b : List Byte) : Nat :=
  let scope := leField b 16 8
  if !credWell otp b then 0x10
  else if leField b 2 1 == 0 then (if s.glb.state == .maintenance then 0 else 0x10)
  else if !(match otp.rootHash with
    | some h => Config.rootVerify h (b.take 128) (slice b 128 96)
    | none => false) then 0x11
  else if !s.credCurrent b then 0x12
  else if scope != 0 && scope != s.sec.writer.toNat then 0x13
  else 0

/-! ### The exchange (15 R376 to R378) -/

/-- A HELLO or PROVE that failed: recorded, its role ended, its challenge gone. -/
def Chip.failExchange (s : Chip) (q : Session) (serial role st : Nat) : Chip :=
  ((s.recordSession q serial role (BitVec.ofNat 8 st)).endRole q 4).modSes q fun k => { k with challenge := none, cred := [] }

/-- Failures of a source within the last 60 s. -/
def Chip.failsOf (s : Chip) (src : Option (BitVec 128)) : Nat :=
  (s.sec.fails.filter fun e => e.1 == src && s.now < e.2 + 60000000000).length

/-- A failure counted against its source: the eighth within 60 s locks it out, and is recorded (15 R378). -/
def Chip.countFail (s : Chip) (src : Option (BitVec 128)) : Chip :=
  let s1 := { s with sec := { s.sec with fails := (src, s.now) :: s.sec.fails } }
  if 8 ≤ s1.failsOf src then
    let s2 := { s1 with sec := { s1.sec with
      fails := s1.sec.fails.filter (fun e => e.1 != src), locked := src :: s1.sec.locked } }
    s2.raise 0x10 0xFFFF 2 2 0 (be 16 (match src with
      | some a => a.toNat
      | none => 2 ^ 128 - 1))
  else s1

/-- A failed exchange answered: any failure counts against its source but one that its lockout turns away (log 42). -/
def Chip.failed (s : Chip) (q : Session) (serial role st : Nat) : Nat × List Byte × Chip :=
  let s1 := s.failExchange q serial role st
  (st, [], if st == 0x16 then s1 else s1.countFail (s.origin q).2.2)

/-- The response data of HELLO (15 Table 15-4). -/
def helloBytes (draw serial : Nat) : List Byte := be 32 (Config.trng draw % 2 ^ 256) ++ le 4 serial ++ List.replicate 12 0

/-- HELLO (15 R376): the credential judged, and a challenge drawn; under R381 the maker role at once. -/
def Chip.hello (s : Chip) (otp : Otp) (q : Session) (b : List Byte) : Nat × List Byte × Chip :=
  let serial := leField b 4 4
  let role := leField b 3 1
  let t := s.modSes q fun k => { k with challenge := none, cred := [] }
  if s.sec.locked.contains (s.origin q).2.2 then t.failed q serial role 0x16
  else match t.credStatus otp b with
    | 0 =>
      let d := t.draw
      if leField b 2 1 == 0 then
        if t.rolesFull q then t.failed q serial role 0x17 else (0, helloBytes d.1 serial, d.2.grant q 3 serial)
      else
        (0, helloBytes d.1 serial,
          (d.2.modSes q fun k => { k with challenge := some d.1, cred := b }).recordSession q serial role 0)
    | st => t.failed q serial role st

/-- The proof message (15 Table 15-3). -/
def Chip.proofMessage (s : Chip) (q : Session) (draw role : Nat) : List Byte :=
  let o := s.origin q
  be 32 (Config.trng draw % 2 ^ 256) ++ le 8 s.sec.writer.toNat ++ le 1 o.1 ++ be 3 o.2.1 ++ le 1 role ++ List.replicate 3 0

/-- PROVE (15 R376): the signature over the proof message judged, and the role of the credential held. -/
def Chip.prove (s : Chip) (q : Session) (sig : List Byte) : Nat × List Byte × Chip :=
  let k := s.ses q
  let serial := leField k.cred 4 4
  let role := leField k.cred 3 1
  if s.sec.locked.contains (s.origin q).2.2 then s.failed q 0 0 0x16
  else match k.challenge with
    | none => s.failed q 0 0 0x14
    | some d =>
      if !Config.ecdsaVerify (slice k.cred 32 96) (s.proofMessage q d role) sig then s.failed q serial role 0x15
      else if s.rolesFull q then s.failed q serial role 0x17
      else (0, le 1 role ++ [0, 0, 0], s.grant q role serial)

/-- DROP (15 Table 15-4): the session holds no role. -/
def Chip.dropRole (s : Chip) (q : Session) : Nat × List Byte × Chip := (0, [0, 0, 0, 0], s.endRole q 2)

/-- Request data words of a session operation. -/
def sesWords (op : Nat) : Nat := if op == 0x10 then 56 else if op == 0x11 then 24 else 1

/-- A session operation (15 Table 15-4): its status, response data and effect. -/
def Chip.exchange (s : Chip) (otp : Otp) (q : Session) (op : Nat) (data : List Byte) : Nat × List Byte × Chip :=
  if op == 0x10 then s.hello otp q data
  else if op == 0x11 then s.prove q data
  else s.dropRole q

/-- A write of SEC_I2C_CTL.OP (15 R377): ignored with OVERRUN while one runs; else run, its status and response data put
where the master reads them. BUSY reads 1 until the block next idles (log 1; log 109). -/
def i2cOpEffect (otp : Otp) (op : Nat) (s : Chip) : Chip :=
  if s.sec.i2cBusy then ({ s with sec := { s.sec with i2cOver := true } }).count 0x1000048
  else if op < 0x10 || 0x12 < op then s
  else
    let r := s.exchange otp .i2c op ((wordsBytes s.sec.i2cData).take (4 * sesWords op))
    let words := bytesWords (r.2.1.length / 4) r.2.1
    { r.2.2 with sec := { r.2.2.sec with
      i2cBusy := true, i2cSts := r.1, i2cData := words ++ r.2.2.sec.i2cData.drop words.length } }

/-- A session operation started over I2C: it needs no role, and SEC's registers must answer (17 R436, R413). -/
def i2cExchangeEffect (otp : Otp) (op : Nat) (s : Chip) : Chip :=
  if !s.sesLive .i2c then s
  else if !s.regOn 0x1000040 then s.gatedAccess .i2c
  else i2cOpEffect otp op s

/-! ### Ends in time -/

/-- 10 s after it was issued a challenge is discarded (15 R376). -/
def challengeExpiryEffect (q : Session) (s : Chip) : Chip :=
  if (s.ses q).challenge.isSome then s.modSes q fun k => { k with challenge := none, cred := [] } else s

def execChallengeExpiry (ses : Session) (s : State) : Host.Outcome State Fault Refusal :=
  .next (s.on (challengeExpiryEffect ses))

/-- 60 s of lockout have passed (15 R378). -/
def lockoutExpiryEffect (src : Option (BitVec 128)) (s : Chip) : Chip :=
  { s with sec := { s.sec with locked := s.sec.locked.filter (· != src) } }

def execLockoutExpiry (src : Option (BitVec 128)) (s : State) : Host.Outcome State Fault Refusal :=
  .next (s.on (lockoutExpiryEffect src))

def execI2cRoleTimeout (s : State) : Host.Outcome State Fault Refusal := .next (s.on fun t => t.endRole .i2c 5)

/-- An idle cycle of the 100 MHz always-on clock (log 1): a verification started over I2C has ended by then. -/
def Chip.idle (s : Chip) : Chip := ({ s with now := s.now + 10, sec := { s.sec with i2cBusy := false } }).unpause

/-! ### Provisioning (15 R380 to R382) -/

/-- A register command of a session that may write the fuses, judged as `Chip.asRole` judges one. -/
def State.asRole (s : State) (q : Session) (domain need : Nat) (f : State → State) : State :=
  if s.chip.sesLive q && s.chip.domainOn domain && need ≤ (s.chip.ses q).role then f s
  else s.on fun t => t.asRole q domain need id

/-- The threshold ranges of a rail lie in ascending order and apart, OFF_LEVEL below them, every value in its own range or
mask, and no mask is empty (13 R323). -/
def railTableOk (e : RailCfg × RailBounds) : Bool :=
  let c := e.1
  let b := e.2
  let inside (r : Nat × Nat) (v : Nat) : Bool := r.1 ≤ v && v ≤ r.2
  b.uvFault.2 < b.uvWarn.1 && b.uvWarn.2 < b.ovWarn.1 && b.ovWarn.2 < b.ovFault.1 && c.offLevel < b.uvFault.1 &&
  inside b.uvFault c.uvFault && inside b.uvWarn c.uvWarn && inside b.ovWarn c.ovWarn && inside b.ovFault c.ovFault &&
  inside b.filt c.filt && bit b.maskUv c.actUv && bit b.maskOv c.actOv && b.maskUv % 16 != 0 && b.maskOv % 16 != 0

end Sys2Proof.Machine

namespace Sys2Proof
open Sys2Proof.Machine

/-- A rail's values brought to the widths of their fields (17 Table 17-15). -/
def RailCfg.trim (c : RailCfg) : RailCfg :=
  { c with uvFault := c.uvFault % 4096, uvWarn := c.uvWarn % 4096, ovWarn := c.ovWarn % 4096, ovFault := c.ovFault % 4096,
           offLevel := c.offLevel % 4096, filt := within (1, 16) c.filt, actUv := c.actUv % 4, actOv := c.actOv % 4,
           upState := if 15 < c.upState then 31 else c.upState, downState := if 15 < c.downState then 31 else c.downState }

/-- A reset output's values brought to their fields, STRETCH to 1 ms to 1 s (13 R329, log 186). -/
def RstCfg.trim (c : RstCfg) : RstCfg :=
  { c with release := c.release % 16, assert := c.assert % 16, stretch := within (1, 1000) c.stretch }

/-- A power table as its fields hold it: no field carries more bits than its register has (13 R323, log 186). -/
def PowerTable.trim (t : PowerTable) : PowerTable :=
  { t with rails := t.rails.map fun e => (e.1.trim, e.2), resets := t.resets.map RstCfg.trim }

end Sys2Proof

namespace Sys2Proof.Machine

/-- POWER_TABLE programs the table (13 R323): one for each rail and for VIN_SNS, and for each reset output. -/
def tableOk (t : PowerTable) : Bool := t.rails.length == 17 && t.resets.length == 8 && t.rails.all railTableOk

/-- POWER_TABLE: once, before LOCK; a table that R323 bars is not programmed, and an event is
recorded, whose code 16 Table 16-5 does not list (log 31). -/
def powerTableEffect (t : Option PowerTable) (s : State) : State :=
  if s.otp.provisioned || s.otp.powerTable.isSome then s
  else match t with
    | some p => if tableOk p.trim then { s with otp := { s.otp with powerTable := some p.trim } } else s.on reject
    | none => s.on reject
where
  reject (c : Chip) : Chip := c.raise 0x0D 0xFFFF (Config.openCode 7 0).toNat 1 0 []

/-- MAC: once, before LOCK. -/
def macEffect (m : BitVec 48) (s : State) : State :=
  if s.otp.provisioned || s.otp.mac.isSome then s else { s with otp := { s.otp with mac := some m } }

/-- ROOT_HASH: once, before LOCK. -/
def rootHashEffect (h : BitVec 384) (s : State) : State :=
  if s.otp.provisioned || s.otp.rootHash.isSome then s else { s with otp := { s.otp with rootHash := some h } }

/-- LOCK (15 R380, R382): refused until the other three are done; an identity key pair is drawn, and gives the writer ID. -/
def lockEffect (s : State) : State :=
  if s.otp.provisioned || s.otp.powerTable.isNone || s.otp.mac.isNone || s.otp.rootHash.isNone then s
  else
    let d := s.chip.draw
    let otp := { s.otp with identity := some d.1, provisioned := true }
    { s with otp := otp, chip := { d.2 with sec := { d.2.sec with writer := writerOf otp } } }

def execPowerTable (ses : Session) (t : PowerTable) (s : State) : Host.Outcome State Fault Refusal :=
  .next (s.asRole ses 23 3 (powerTableEffect (some t)))

def execMac (ses : Session) (m : BitVec 48) (s : State) : Host.Outcome State Fault Refusal :=
  .next (s.asRole ses 23 3 (macEffect m))

def execRootHash (ses : Session) (h : BitVec 384) (s : State) : Host.Outcome State Fault Refusal :=
  .next (s.asRole ses 23 3 (rootHashEffect h))

def execLock (ses : Session) (s : State) : Host.Outcome State Fault Refusal := .next (s.asRole ses 23 3 lockEffect)

/-! ### Debug (15 R386) -/

/-- UNLOCK: in MAINTENANCE and FAULT only, never after DISABLE_FOREVER; recorded with the session's serial. -/
def unlockEffect (debugOff : Bool) (q : Session) (s : Chip) : Chip :=
  if debugOff || !(s.glb.state == .maintenance || s.glb.state == .fault) then s
  else
    ({ s with sec := { s.sec with unlocked := true, everUnlocked := true } }).raise 0x10 0xFFFF 3 2 0 (le 4 (s.ses q).serial)

def execUnlock (ses : Session) (s : State) : Host.Outcome State Fault Refusal :=
  .next (s.on fun c => c.asRole ses 23 3 (unlockEffect s.otp.debugOff ses))

/-- DISABLE_FOREVER blows its fuse. -/
def disableForeverEffect (s : State) : State := { s with otp := { s.otp with debugOff := true } }

def execDisableForever (ses : Session) (s : State) : Host.Outcome State Fault Refusal :=
  .next (s.asRole ses 23 3 disableForeverEffect)

/-- A TAP instruction: the IEEE 1149.1 and 1149.6 ones always; any other reads as BYPASS until UNLOCK. What one does after
UNLOCK the spec does not say. -/
def execTapInstruction (t : TapInstr) (s : State) : Host.Outcome State Fault Refusal :=
  let load (u : TapInstr) (c : Chip) : Chip := ({ c with sec := { c.sec with tap := u } }).emit (.tap u)
  match t with
  | .debug _ => if s.chip.sec.unlocked then .refused .debugTap else .next (s.on (load .bypass))
  | u => .next (s.on (load u))

/-! ### Connect-ticket keys (15 R383) -/

/-- A ticket-key command's result; BUSY where its record is still to be written. -/
def Chip.tktEnd (s : Chip) (slot result : Nat) (busy : Bool) : Chip :=
  { s with sec := { s.sec with tktSlot := slot, tktResult := result, tktBusy := s.sec.tktBusy || busy } }

/-- A change of a slot: the key, and its change-log record (14 Table 14-13; log 113). -/
def Chip.changeKey (s : Chip) (slot : Nat) (key : Option (List Byte)) : Chip :=
  if !s.logRoom then s.tktEnd slot 2 false
  else
    let act : Byte := if key.isSome then 1 else 2
    let body := [BitVec.ofNat 8 slot, act, 0, 0] ++ key.getD (List.replicate 96 0)
    ((s.setKey slot key).askLog 2 body).tktEnd slot 0 true

/-- LOAD: the key in SEC_TKT_KEY_DATA replaces the slot's, unless it is no point of the curve or the log is full. -/
def keyLoadEffect (slot : Nat) (s : Chip) : Chip :=
  let key := wordsBytes s.sec.tktData
  if !Config.onCurve key then s.tktEnd slot 1 false else s.changeKey slot (some key)

def execTicketKeyLoad (ses : Session) (slot : Nat) (s : State) : Host.Outcome State Fault Refusal :=
  .next (s.on fun c => c.asRole ses 23 2 (keyLoadEffect (slot % 4)))

def execTicketKeyClear (ses : Session) (slot : Nat) (s : State) : Host.Outcome State Fault Refusal :=
  .next (s.on fun c => c.asRole ses 23 2 fun t => t.changeKey (slot % 4) none)

/-! ### Attestation (15 R385) -/

/-- GO: ignored while a report is being built, and on a part that cannot attest (15 R382). -/
def attestationGoEffect (otp : Otp) (s : Chip) : Chip :=
  if s.sec.attBusy || otp.identity.isNone || s.sec.idFail then s
  else { s with sec := { s.sec with attBusy := true, attDone := false } }

def execAttestationGo (ses : Session) (s : State) : Host.Outcome State Fault Refusal :=
  .next (s.on fun c => c.asRole ses 23 1 (attestationGoEffect s.otp))

/-- Bytes 0 to 175 of the report (15 Table 15-6). -/
def Chip.reportBody (s : Chip) (otp : Otp) : List Byte :=
  let maint := s.glb.state == .maintenance
  let none_ := maint || s.cfg.active.isNone
  let root := match otp.rootHash with
    | some h => h.toNat
    | none => 0
  le 4 0x54414E56 ++ [1] ++ le 1 (if s.glb.sl4804 then 0x04 else 0x10) ++ [0xB0] ++ le 1 s.glb.state.code ++
  wordsBytes s.sec.nonce ++ le 8 s.sec.writer.toNat ++ le 4 s.glb.boot ++ le 4 s.glb.epoch ++
  le 4 (if none_ then 0 else s.cfg.gen) ++ le 1 (if none_ then 0xFF else s.cfg.active.getD 0xFF) ++
  le 1 (b2n s.sec.everUnlocked + 2 * b2n maint + 4 * b2n s.cfg.logApplied) ++ [0, 0] ++
  be 48 (if none_ then 0 else s.cfg.hash.toNat) ++ be 48 root ++ le 4 otp.flags ++ le 4 0 ++ le 8 s.evr.head

/-- The report is built and signed. -/
def attestationDoneEffect (otp : Otp) (s : Chip) : Chip :=
  match otp.identity with
  | some n =>
    if !s.sec.attBusy then s
    else
      let body := s.reportBody otp
      let report := bytesWords 68 (body ++ be 96 (Config.ecdsaSign n body).toNat)
      { s with sec := { s.sec with attBusy := false, attDone := true, report := report } }
  | none => s

def execAttestationDone (s : State) : Host.Outcome State Fault Refusal := .next (s.on (attestationDoneEffect s.otp))

end Sys2Proof.Machine
end

