-- ==== Sys2Proof/Machine/Recorder.lean ====
section
/-!
DEFINITION. The recorder's copies on the drives, its archive reads, its cursor and its flood window (16 R392 to R396), and
the clear of ALERT (16 R397).
-/
namespace Sys2Proof.Machine

/-- The unit is ACTIVE and its map set serves (16 R394, R395; log 111). -/
def Chip.archiveSet (s : Chip) : Option Nat :=
  if s.glb.state == .active then s.mapSet.filter s.setUp else none

/-- The oldest block due is written to both journal positions of the map set (16 R394); records of it that the ring has
overwritten are counted now, and reported once the copy is written (log 112). -/
def blockCopyEffect (s : Chip) : Chip :=
  match s.archiveSet, s.evr.due with
  | some m, b :: rest =>
    let gone := Nat.min 4096 (s.evr.next - 65536 - 4096 * b)
    let s1 := { s with evr := { s.evr with due := rest, missed := Tab.set s.evr.missed 0 b gone } }
    ((if gone == 0 then s1 else s1.count 0x1100084 gone).copyBlock m b 8).reportMissed
  | _, _ => s

def execRecorderBlockCopy (s : State) : Host.Outcome State Fault Refusal := .next (s.on blockCopyEffect)

/-- EVR_ARCH_CTL.GO (16 R395): refused unless the unit is ACTIVE with its map set ready; else the slot is read in class 7
from the first journal position that answers. -/
def archiveReadEffect (half : Nat) (s : Chip) : Chip :=
  if s.evr.archBusy then s
  else
    let s1 := { s with evr := { s.evr with archHalf := half } }
    match s.archiveSet with
    | none => { s1 with evr := { s1.evr with archResult := 1 } }
    | some m =>
      ({ s1 with evr := { s1.evr with archBusy := true } }).archiveFrom m (s.set m).jlive

def execArchiveRead (ses : Session) (partner : Bool) (s : State) : Host.Outcome State Fault Refusal :=
  .next (s.on fun c => c.asRole ses 23 1 (archiveReadEffect (b2n partner)))

/-- The read of the slot ends: its words, or no journal position answered (17 Table 17-27). -/
def archiveDoneEffect (words : Option (List Word)) (s : Chip) : Chip :=
  if !s.evr.archBusy then s
  else match words with
    | some ws => { s with evr := { s.evr with
        archBusy := false, archResult := 0, archWin := ws.take 16 ++ List.replicate (16 - ws.length) 0 } }
    | none => { s with evr := { s.evr with archBusy := false, archResult := 2 } }

def execArchiveReadDone (words : Option (List Word)) (s : State) : Host.Outcome State Fault Refusal :=
  .next (s.on (archiveDoneEffect words))

/-- A 10 ms window of R396 ends; the windows begin when the recorder sequence is set. -/
def floodWindowEffect (s : Chip) : Chip := if s.evr.isSet then s.floodEnd else s

def execFloodWindowEnd (s : State) : Host.Outcome State Fault Refusal := .next (s.on floodWindowEffect)

/-- FLT_SUMMARY.ALERT cleared (16 R397). -/
def alertClearEffect (s : Chip) : Chip := { s with flt := { s.flt with alert := false } }

def execAlertClear (ses : Session) (s : State) : Host.Outcome State Fault Refusal :=
  .next (s.on fun c => c.asRole ses 24 1 alertClearEffect)

/-- The high word of EVR_CURSOR written: both words apply (16 R392). -/
def cursorEffect (v : Word) (s : Chip) : Chip :=
  { s with evr := { s.evr with cursor := v.toNat * 2 ^ 32 + s.evr.curLow } }

def execEvrCursorWrite (ses : Session) (v : Word) (s : State) : Host.Outcome State Fault Refusal :=
  .next (s.on fun c => c.asRole ses 23 1 (cursorEffect v))

end Sys2Proof.Machine
end

