-- ==== Sys2Proof/Machine/Regs.lean ====
section
/-!
DEFINITION. A write of one register word (17 R409, R413, R414; 14 R365, R368): who may write it, the clamps of its fields,
and what the write commands.
-/
namespace Sys2Proof.Machine

/-! ### Who may write (17 R414, R436) -/

/-- Registers of the session exchange over I2C: no role over I2C, refused over MGMT (17 R436). -/
def i2cOnly (a : Nat) : Bool := a == 0x1000040 || a == 0x1000044 || inArray a 0x1000600 64 4

/-- The highest tag among the fields whose value a word would change, and the bits it would act on. -/
def Chip.needRole (s : Chip) (a v cur : Nat) : Nat :=
  maxOf (((rwFields a).map fun f => if f.get v == f.get cur then 0 else f.role) ++
    ((s.actBits a).map fun b => if v &&& b.1 == 0 then 0 else b.2))

/-- A write is refused with ROLE. -/
def Chip.roleStops (s : Chip) (q : Session) (a v cur : Nat) : Bool :=
  (i2cOnly a && q != .i2c) || (s.ses q).role < s.needRole a v cur

/-! ### Fields -/

/-- A field that a live write leaves as it is (14 R368, 13 R323): it applies at the next start, or at provisioning. -/
def heldField (a : Nat) (f : Field) : Bool := f.next || (0xD00000 ≤ a && a < 0xE00000 && f.role == 3)

/-- One field of a live write: its value taken, and whether it was clamped (14 R365, R368). -/
def Chip.writeField (s : Chip) (otp : Otp) (q : Session) (a v : Nat) (f : Field) : Bool × Chip :=
  let g := f.get v
  let cur := f.get ((s.regValue otp q a).getD 0)
  if heldField a f then (if g == cur then (false, s) else (true, s.clamped (regField a f.lsb) g cur 1))
  else
    let u := s.taken otp (s.bounds a f) a f g
    let s1 := if u == g then s else s.clamped (regField a f.lsb) g u 1
    (u != g, s1.putField otp q a f u)

/-- Every field of a live write, its reserved bits first. -/
def Chip.writeFields (s : Chip) (otp : Otp) (q : Session) (a v : Nat) : Bool × Chip :=
  (rwFields a).foldl (fun (r : Bool × Chip) f =>
    let t := r.2.writeField otp q a v f
    (r.1 || t.1, t.2)) (!(s.reservedGiven a v).isEmpty, s.clampReserved a v 1)

/-! ### What a write commands -/

/-- RGN_EDIT_CMD written (05 R131, 17 Table 17-22): a nonzero code starts its command. -/
def editCode (q : Session) (idx code : Nat) (s : Chip) : Chip :=
  match code with
  | 0 => s.editWrite q fun t => t.storeWord 0x300004 (idx * 65536)
  | 1 => editCommand q idx 1 (fun _ => true) false (rgnReadEffect idx) s
  | 2 => editCommand q idx 2 (fun e => !e.live) true (rgnCreateEffect idx) s
  | 3 => editCommand q idx 3 (fun e => e.live) true (rgnModifyEffect idx) s
  | 4 => editCommand q idx 4 (fun e => e.live) true (rgnRotateEffect idx) s
  | 5 => editCommand q idx 5 (fun e => e.live) true (rgnRemoveEffect idx) s
  | _ => refusedCommandEffect q idx code s

/-- Registers whose write goes by a rule of its own: ticket generations, the edit window, LCC_CTL, LCC_MAINT_LEN, and
LCC_MAINT while an operation runs (07 R178). -/
def Chip.direct (s : Chip) (a : Nat) : Bool :=
  inArray a 0x201000 64 4 || a == 0x300004 || inArray a 0x300010 12 4 || a == 0x6E0000 || a == 0x6E001C ||
    ((a == 0x6E0008 || a == 0x6E000C) && s.lcc.busy)

/-- The write of such a register, and whether it was clamped. -/
def Chip.directWrite (s : Chip) (q : Session) (a v : Nat) : Bool × Chip :=
  if inArray a 0x201000 64 4 then (false, tktMingenEffect ((a - 0x201000) / 4) (BitVec.ofNat 32 v) s)
  else if a == 0x300004 then
    let b := s.ownsEdit q && !(s.reservedGiven a v).isEmpty
    (b, editCode q (v / 65536) (v % 16) (if b then s.clampReserved a v 1 else s))
  else if inArray a 0x300010 12 4 then
    let b := s.ownsEdit q && !(s.reservedGiven a v).isEmpty
    (b, (if b then s.clampReserved a v 1 else s).editWrite q fun t =>
      t.storeWord a ((rwFields a).foldl (fun w f => f.put w (f.get v)) 0))
  else if a == 0x6E0000 then
    (!(s.reservedGiven a v).isEmpty || 8 < bits v 11 8,
      lockWaysEffect (bits v 11 8) (cacheEnableEffect (bit v 0) (s.clampReserved a v 1)))
  else if a == 0x6E001C then (s.putRange a v).clampLen 1
  else (false, maintEffect (v % 8) MaintReq.zero s)

/-- The maintenance operation that LCC_MAINT, LCC_MAINT_BASE and LCC_MAINT_LEN describe (17 Table 17-10). -/
def Chip.maintReq (s : Chip) : MaintReq :=
  { setWay := bit s.lcc.word1 3, force := bit s.lcc.word1 4, all := bit s.lcc.word1 5, bank := bits s.lcc.word0 31 24,
    set := bits s.lcc.word0 11 0, way := bits s.lcc.word0 19 16, base := s.wide 0x6E0010, len := s.wide 0x6E0018 }

/-- Effects in GLB, XPT and RGN. -/
def Chip.actA (s : Chip) (q : Session) (a v : Nat) : Chip :=
  if a == 0x14 then { s with glb := { s.glb with access := s.glb.access - (s.glb.access &&& v) } }
  else if a == 0x200008 || a == 0x20000C then s.shrinkAll
  else if inArray a 0x220000 16384 4 then (if bit v 0 then connEndEffect ((a - 0x220000) / 4) s else s)
  else if a == 0x300000 then
    let s1 := if bit v 0 then editClaimEffect q s else s
    if bit v 1 then editReleaseEffect q s1 else s1
  else if a == 0x300008 && bit v 7 then { s with rgn := { s.rgn with overrun := false } }
  else s

/-- Effects in LCC, PGM, NVH and STR. -/
def Chip.actB (s : Chip) (a v : Nat) : Chip :=
  if a == 0x6E0004 then (if bit v 2 then { s with lcc := { s.lcc with overrun := false } } else s)
  else if a == 0x6E000C then (if s.lcc.word1 % 8 == 0 then s else maintEffect (s.lcc.word1 % 8) s.maintReq s)
  else if a == 0x700004 then
    let s1 := { s with pgm := { s.pgm with budget := s.par 0x700004 } }
    if s1.budgetFit / 1048576 < s1.pgm.budget then s1.fitBudget else s1
  else if a == 0x700014 then ({ s with pgm := { s.pgm with lowSet := true } }).evict
  else if a == 0x70001C then { s with pgm := { s.pgm with pinSet := true } }
  else if inArray a 0x800004 16 0x1000 then
    let p := (a - 0x800004) / 0x1000
    (s.submitAll (2 * p)).submitAll (2 * p + 1)
  else if a == 0x900300 then (if bit v 4 then formEffect (v % 4) s else s)
  else if a == 0x900328 && bit v 31 then rebuildEffect (bit v 30) (v % 4) (bits v 12 8) (bits v 20 16) s
  else s

/-- Effects in DMC, MEI, SYZ, PWS and CFG. -/
def Chip.actC (s : Chip) (otp : Otp) (q : Session) (a v : Nat) : Chip :=
  if inArray (a - 0xA00080) 0 12 0x10000 && 0xA00080 ≤ a then
    (if bit v 16 then
      marginEffect (v % 16) (s.ses q).role { ch := (a - 0xA00080) / 0x10000, lane := bits v 7 4, rank := bits v 11 8 } s
    else s)
  else if a == 0xAE0020 then (if bit v 4 then frequencyEffect (v % 4) s else s)
  else if a == 0xB00140 then remapClearEffect v s
  else if a == 0xC0000C then (if bit v 0 then switchoverEffect s else s)
  else if inArray a 0xD00300 17 4 then
    s.modRail ((a - 0xD00300) / 4) fun r => { r with flags := r.flags - (r.flags &&& bits v 15 12) }
  else if a == 0xF00004 then
    let s1 := if bit v 1 then clampClrEffect s else s
    if bit v 0 then restartEffect s1 else s1
  else if a == 0xF00200 then
    match v % 8 with
    | 1 => stageBeginEffect q s
    | 2 => stageWriteEffect q s
    | 3 => stageCommitEffect otp q s
    | 4 => stageAbortEffect q s
    | _ => s
  else s

/-- Effects in SEC, EVR and FLT. -/
def Chip.actD (s : Chip) (otp : Otp) (q : Session) (a v : Nat) : Chip :=
  if a == 0x1000030 then (if bit v 0 then unlockEffect otp.debugOff q s else s)
  else if a == 0x1000040 then i2cOpEffect otp (v % 256) s
  else if a == 0x1000044 then (if bit v 1 then { s with sec := { s.sec with i2cOver := false } } else s)
  else if a == 0x1000050 then
    (if bits v 3 2 == 1 then keyLoadEffect (v % 4) s else if bits v 3 2 == 2 then s.changeKey (v % 4) none else s)
  else if a == 0x1000060 then (if bit v 0 then attestationGoEffect otp s else s)
  else if a == 0x1100108 then (if bit v 1 then archiveReadEffect (v % 2) s else s)
  else if a == 0x1200000 && bit v 25 then alertClearEffect s
  else s

/-- What a write commands once its fields hold their values, block by block; then the dependent checks that a parameter
which has changed moves (14 R366; log 172). -/
def Chip.act (s : Chip) (otp : Otp) (q : Session) (a v : Nat) (changed : Bool) : Chip :=
  let b := a / 0x100000
  let s1 := if b ≤ 3 then s.actA q a v
    else if b ≤ 9 then s.actB a v
    else if b ≤ 15 then s.actC otp q a v
    else s.actD otp q a v
  if changed then s1.dependents a else s1

/-- Effects of a write on the fuses: the commands of SEC_PROV_CTL in the order of their bits, and DISABLE_FOREVER. -/
def fuseWrite (a v : Nat) (s : State) : State :=
  if a == 0x1000020 then
    let d := s.chip.sec.prov
    let s1 := if bit v 0 then powerTableEffect (Config.provTable d) s else s
    let s2 := if bit v 1 then macEffect (Config.provMac d) s1 else s1
    let s3 := if bit v 2 then rootHashEffect (Config.provHash d) s2 else s2
    if bit v 3 then lockEffect s3 else s3
  else if a == 0x1000030 && bit v 1 then disableForeverEffect s
  else s

/-! ### The write -/

/-- GO of DMC_FREQ_CTL takes its target with a clamp (10 R274). -/
def Chip.speedClamped (s : Chip) (a v : Nat) : Bool :=
  a == 0xAE0020 && bit v 4 && !s.dmc.freqBusy && s.speedLimit < v % 4

/-- A write that its session may make: status OK or CLAMPED (03 Table 3-21), and its effect. -/
def acceptWrite (q : Session) (a v : Nat) (s : State) : Nat × State :=
  let c := s.chip
  if c.direct a then
    let r := c.directWrite q a v
    (if r.1 then 5 else 0, { s with chip := r.2 })
  else
    let r := c.writeFields s.otp q a v
    let t := r.2.act s.otp q a v (r.2.par a != c.par a)
    (if r.1 || c.speedClamped a v then 5 else 0, fuseWrite a v { s with chip := t })

/-- One word written by a session (17 R409): status OK, ROLE, ADDRESS or CLAMPED, and the state after it. A refused word
changes no register; over I2C it sets its flag of GLB_ACCESS_STS. -/
def writeReg (q : Session) (a v : Nat) (s : State) : Nat × State :=
  if !s.chip.regOn a then (2, s.on fun c => c.gatedAccess q)
  else match s.chip.regValue s.otp q a with
    | none => (2, s.on fun c => c.gatedAccess q)
    | some cur =>
      if s.chip.roleStops q a v cur then (1, s.on fun c => c.roleRefused q) else acceptWrite q a v s

def execRegisterWrite (ses : Session) (addr : Nat) (v : Word) (s : State) : Host.Outcome State Fault Refusal :=
  .next (if s.chip.sesLive ses then (writeReg ses addr v.toNat s).2 else s)

end Sys2Proof.Machine
end

