-- ==== Sys2Proof/Machine/I2c.lean ====
section
/-!
DEFINITION. The I2C target (17 R410 to R412): write and read transactions, PEC, and the flags of GLB_ACCESS_STS.
-/
namespace Sys2Proof.Machine

/-- The target's address byte: 0x5A and the straps, with the read bit (17 R410). -/
def Chip.i2cByte (s : Chip) (read : Bool) : Byte := BitVec.ofNat 8 ((0x5A + s.glb.straps % 4) * 2 + b2n read)

/-- GLB_I2C_CFG.PEC. -/
def Chip.pecOn (s : Chip) : Bool := s.par 0x10 % 2 == 1

/-- Words written at consecutive addresses: each is attempted (log 44). -/
def i2cWords : List Word → Nat → State → State
  | [], _, s => s
  | w :: rest, a, s => i2cWords rest (a + 4) (writeReg .i2c a w.toNat s).2

/-- The complete words of a write's data executed; an incomplete last word is discarded with SHORT (17 R410). -/
def i2cData (a : Nat) (data : List Byte) (s : State) : State :=
  let s1 := i2cWords (bytesWords (data.length / 4) data) a s
  if data.length % 4 == 0 then s1 else s1.on fun c => c.accessFlag 1

/-- A write transaction: the bytes after the target address, without the PEC byte, and that byte where one was sent. -/
def i2cWriteEffect (bytes : List Byte) (pec : Option Byte) (s : State) : State :=
  let c := s.chip
  if !c.glb.aonUp then s
  else
    let all := if c.pecOn then bytes else bytes ++ pec.toList
    if all.length < 4 then s
    else if c.pecOn && pec != some (BitVec.ofNat 8 (crc8 (c.i2cByte false :: bytes))) then s.on fun c => c.accessFlag 0
    else i2cData (fieldBe all 0 4) (all.drop 4) s

def execI2cWrite (bytes : List Byte) (pec : Option Byte) (s : State) : Host.Outcome State Fault Refusal :=
  .next (i2cWriteEffect bytes pec s)

/-- Words read at consecutive addresses: one that does not answer reads 0 (17 R413). -/
def i2cRead : Nat → Nat → List Byte → State → List Byte × State
  | 0, _, acc, s => (acc, s)
  | n + 1, a, acc, s =>
    let r := s.chip.readReg s.otp .i2c a
    i2cRead n (a + 4) (acc ++ wordBytes (r.1.getD 0)) { s with chip := r.2 }

/-- A read transaction of some words: with PEC one word and its PEC byte, and all ones beyond (17 R411). -/
def i2cReadEffect (addr : List Byte) (words : Nat) (s : State) : State :=
  let c := s.chip
  if !c.glb.aonUp || addr.length != 4 then s
  else
    let n := Nat.max 1 words
    let r := i2cRead (if c.pecOn then 1 else n) (fieldBe addr 0 4) [] s
    let sent := if c.pecOn then
        r.1 ++ [BitVec.ofNat 8 (crc8 (c.i2cByte false :: addr ++ c.i2cByte true :: r.1))] ++ List.replicate (4 * (n - 1)) 0xFF
      else r.1
    r.2.on fun t => t.emit (.i2c sent)

def execI2cRead (addrBytes : List Byte) (words : Nat) (s : State) : Host.Outcome State Fault Refusal :=
  .next (i2cReadEffect addrBytes words s)

/-- SCL has been low for 30 ms (17 R412): the transaction is abandoned. The words it completed stand: each is a
transaction of its own here. -/
def i2cTimeoutEffect (s : State) : State := s

def execI2cTimeout (s : State) : Host.Outcome State Fault Refusal := .next (i2cTimeoutEffect s)

end Sys2Proof.Machine
end

