-- ==== Sys2Proof/Machine/Mgmt.lean ====
section
/-!
DEFINITION. The management agent over MGMT connections (03 R89, R90; 06 R145; 15 R377): MGMT_REQ messages executed one at
a time in PSN order, each answered with a MGMT_RESP.
-/
namespace Sys2Proof.Machine

/-- What the execution of a request gives: status, count and data of its response, and the state after it. -/
structure Answer where
  status : Nat
  count : Nat
  data : List Byte
  st : State
  deriving DecidableEq, Repr

/-- A READ (03 R89): words at consecutive addresses, up to the first that does not answer (log 43). -/
def mgmtReadWords (q : Session) : Nat → Nat → List Byte → State → Answer
  | 0, _, acc, s => { status := 0, count := acc.length / 4, data := acc, st := s }
  | n + 1, a, acc, s =>
    let r := s.chip.readReg s.otp q a
    let t := { s with chip := r.2 }
    match r.1 with
    | some w => mgmtReadWords q n (a + 4) (acc ++ wordBytes w) t
    | none => { status := 2, count := acc.length / 4, data := acc, st := t }

/-- A WRITE (03 R90): words in address order, up to the first refused with ROLE or ADDRESS; a clamped word does not
stop it. -/
def mgmtWriteWords (q : Session) : List Word → Nat → Nat → Nat → State → Answer
  | [], _, done, clamped, s => { status := clamped, count := done, data := [], st := s }
  | w :: rest, a, done, clamped, s =>
    let r := writeReg q a w.toNat s
    if r.1 == 1 || r.1 == 2 then { status := r.1, count := done, data := [], st := r.2 }
    else mgmtWriteWords q rest (a + 4) (done + 1) (if r.1 == 5 then 5 else clamped) r.2

/-- Data bytes that a request of an operation carries for its count (03 Table 3-18, 15 Table 15-4). -/
def mgmtLen (op n : Nat) : Nat := if op == 0x02 || op == 0x04 || 0x10 ≤ op then 4 * n else 0

/-- The count that an operation admits (03 Table 3-21). -/
def mgmtCountOk (op n : Nat) : Bool :=
  1 ≤ n && n ≤ 256 && (op != 0x04 || n == 1) && (!(0x10 ≤ op && op ≤ 0x12) || n == sesWords op)

/-- An answer with no data. -/
def Answer.plain (status count : Nat) (s : State) : Answer := { status, count, data := [], st := s }

/-- A request executed (03 R89): its count, then its alignment, then its operation (log 145). -/
def mgmtExecute (c : Nat) (b : List Byte) (s : State) : Answer :=
  let op := fieldBe b 0 1
  let n := fieldBe b 2 2
  let a := fieldBe b 4 4
  let data := b.drop 8
  if !mgmtCountOk op n || data.length != mgmtLen op n then .plain 4 0 s
  else if a % 4 != 0 then .plain 3 0 s
  else if op == 0x01 then mgmtReadWords (.mgmt c) n a [] s
  else if op == 0x02 then mgmtWriteWords (.mgmt c) (bytesWords n data) a 0 0 s
  else if a != 0 then .plain 2 0 s
  else if op == 0x04 then
    .plain 0 n (s.on fun t => t.modConn c fun k => { k with codes := leField data 0 1, sev := leField data 1 1 % 16 })
  else if op == 0x05 then .plain 0 n (s.on fun t => t.modConn c fun k => { k with codes := 0, sev := 0 })
  else if 0x10 ≤ op && op ≤ 0x12 then
    let r := s.chip.exchange s.otp (.mgmt c) op data
    { status := r.1, count := r.2.1.length / 4, data := r.2.1, st := { s with chip := r.2.2 } }
  else .plain 2 0 s

/-- The request of a message executed, answered and gone (03 R89, 06 R145). -/
def mgmtOne (c : Nat) (m : Msg) (s : State) : State :=
  let b := m.bytes
  let s1 := s.on fun t => ((t.dropMsgCells c m).removeMsg c m.first).settle c m.first 1
  let r := mgmtExecute c b s1
  let resp := b.take 1 ++ le 1 r.status ++ be 2 r.count ++ slice b 4 4 ++ r.data
  r.st.on fun t => (((t.queueTx c (DevPkt.make c 0x21 m.id m.key m.start m.first resp)).pumpOwed).guard c).closeIfDone c

/-- The requests that stand at a connection's frontier executed, one at a time in PSN order. -/
def mgmtRun : Nat → Nat → State → State
  | 0, _, s => s
  | n + 1, c, s =>
    match s.chip.conn c with
    | none => s
    | some k =>
      match k.msg k.frontier with
      | some m => if m.op == 0x20 && k.st != .aborting then mgmtRun n c (mgmtOne c m s) else s
      | none => s

/-- A packet with the operation byte of its payload given. -/
def withOp (op : Nat) (p : Packet) : Packet :=
  { p with payload := match p.payload with
      | [] => []
      | _ :: r => BitVec.ofNat 8 op :: r }

/-- A MGMT_REQ of an operation arrives; it runs at once where no earlier PSN is missing. -/
def mgmtArrive (op : Nat) (p : Packet) (s : State) : State :=
  let s1 := s.on (Chip.messagePacket 0x20 (withOp op p))
  mgmtRun 256 p.connId s1

def execMgmtRead (p : Packet) (s : State) : Host.Outcome State Fault Refusal := .next (mgmtArrive 0x01 p s)
def execMgmtWrite (p : Packet) (s : State) : Host.Outcome State Fault Refusal := .next (mgmtArrive 0x02 p s)
def execSubscribe (p : Packet) (s : State) : Host.Outcome State Fault Refusal := .next (mgmtArrive 0x04 p s)
def execUnsubscribe (p : Packet) (s : State) : Host.Outcome State Fault Refusal := .next (mgmtArrive 0x05 p s)

/-- A session operation over either path (15 R377). -/
def sessionCommand (op : Nat) (q : SesReq) (s : State) : State := match q with
  | .i2c => s.on (i2cExchangeEffect s.otp op)
  | .mgmt p => mgmtArrive op p s

def execHello (q : SesReq) (s : State) : Host.Outcome State Fault Refusal := .next (sessionCommand 0x10 q s)
def execProve (q : SesReq) (s : State) : Host.Outcome State Fault Refusal := .next (sessionCommand 0x11 q s)
def execDrop (q : SesReq) (s : State) : Host.Outcome State Fault Refusal := .next (sessionCommand 0x12 q s)

end Sys2Proof.Machine
end

