-- ==== Sys2Proof/Machine/NetPort.lean ====
section
/-!
DEFINITION. What a host port does beside VRMT (03 R54, R56, Table 3-2): neighbour discovery, ARP, echo, MLD, PAUSE, and
the frames it discards and counts.
-/
namespace Sys2Proof.Machine

/-- A frame that a port answers for the unit: discarded and counted where nothing above the PCS runs, or no service address is held
(12 R313). -/
def Chip.answering (s : Chip) (port : Nat) (f : Chip → Chip) : Chip := if s.hostTakes port then f s else s.discard port 0

/-- A Neighbor Solicitation for a service address answered; one for another address is not (03 Table 3-2). -/
def neighborEffect (port : Nat) (target : BitVec 128) (s : Chip) : Chip :=
  s.answering port fun t => if t.ownV6 target then t.send port (.neighborAdv port (t.ipTag port 3) target true) else t

def execNeighborSolicitation (port : Nat) (target : BitVec 128) (s : State) : Host.Outcome State Fault Refusal :=
  .next (s.on (neighborEffect port target))

/-- An ARP request for a service address answered; one for another address is not (03 Table 3-2). -/
def arpEffect (port : Nat) (target : BitVec 32) (s : Chip) : Chip :=
  s.answering port fun t => if t.ownV4 target then t.send port (.arpReply port (t.ipTag port 3) target false) else t

def execArpRequest (port : Nat) (target : BitVec 32) (s : State) : Host.Outcome State Fault Refusal :=
  .next (s.on (arpEffect port target))

/-- An echo request is answered, up to 1,000 in a second per port, with data up to 1,024 bytes (03 Table 3-2): identifier,
sequence number and data go back to its source. -/
def echoEffect (port : Nat) (src : BitVec 128) (head : BitVec 32) (data : List Byte) (s : Chip) : Chip :=
  s.answering port fun s =>
    let sec := s.now / 1000000000
    let tab := if s.hpx.echoSec == sec then s.hpx.echoes else []
    let n := Tab.get tab 0 port
    if data.length ≤ 1024 && n < 1000 then
      ({ s with hpx := { s.hpx with echoes := Tab.set tab 0 port (n + 1), echoSec := sec } }).send port (.echoReply port (s.ipTag port 3) src head data)
    else s

def execIcmpEcho (port : Nat) (src : BitVec 128) (head : BitVec 32) (data : List Byte) (s : State) :
    Host.Outcome State Fault Refusal := .next (s.on (echoEffect port src head data))

def execMldQuery (port : Nat) (s : State) : Host.Outcome State Fault Refusal :=
  .next (s.on fun c => c.answering port fun t => t.send port (.mldReport port (t.ipTag port 3) (t.portAddr port).v6))

/-- A pause of some quanta of 512 bit times in ns, by the mode of the port's HPX (IEEE 802.3 Annex 31B). -/
def pauseTime (mode quanta : Nat) : Nat := quanta * 512 / ([400, 200, 100].getD mode 100)

/-- PAUSE honoured where it is enabled (03 Table 3-2): the port sends nothing until it ends (log 107); a unit in UMBRA
discards it (12 R313). -/
def pauseEffect (port quanta : Nat) (s : Chip) : Chip :=
  if s.glb.state == .umbra then s.discard port 0
  else if s.hostOn && s.portUp port && bit s.hpx.pauseEn port then
    let till := s.now + pauseTime (s.hpx.modes.getD (port / 4) 0) quanta
    ({ s with hpx := { s.hpx with paused := Tab.set s.hpx.paused 0 port till } }).unpause
  else s

def execPause (port : Nat) (quanta : Nat) (s : State) : Host.Outcome State Fault Refusal := .next (s.on (pauseEffect port quanta))

/-- The packet that 36 or more bytes spell (03 Table 3-3). -/
def framePacket (f : Frame) : Packet :=
  let b := f.bytes
  let n := fieldBe b 26 2
  { port := f.port, src := f.src, sport := f.sport, cls := fieldBe b 0 1 % 16, flags := BitVec.ofNat 16 (fieldBe b 2 2),
    conn := BitVec.ofNat 24 (fieldBe b 4 3), hint := fieldBe b 7 1, psn := BitVec.ofNat 32 (fieldBe b 8 4),
    msgId := fieldBe b 12 2, index := fieldBe b 14 1, count := fieldBe b 15 1, key := BitVec.ofNat 32 (fieldBe b 16 4),
    offset := fieldBe b 20 6, opField := BitVec.ofNat 32 (fieldBe b 28 4), payload := slice b 32 n }

/-- The CRC-32C trailer of a packet matches (03 R59). -/
def trailerOk (b : List Byte) : Bool := fieldBe b (b.length - 4) 4 == crc32c (b.take (b.length - 4))

/-- Why a host port or XPT discards a frame, in the order of 03 Table 3-19 (log 24); none when it does not. -/
def Chip.hostDiscard (s : Chip) (f : Frame) : Option Nat :=
  let b := f.bytes
  let vid := Tab.get s.hpx.vlan 0 f.port
  if !f.fecOk then some 1
  else if !f.fcsOk then some 2
  else if (match f.vlan with
    | some v => vid != v + 1
    | none => vid != 0) then some 3
  else if Tab.get s.hpx.frame 1518 f.port < f.length then some 4
  else if f.pfc then some 7
  else if !f.dstOk || (f.etherType != 0x86DD && f.etherType != 0x0800) then some 8
  else if f.extended || f.fragment then some 9
  else if f.udp && f.dport != s.par 0x200000 then some 10
  else if f.udp && (!f.cksumOk || (f.v6 && f.cksumZero)) then some 11
  else if f.udp && (b.length < 36 || b.length != 36 + fieldBe b 26 2) then some 12
  else if f.udp && (!trailerOk b || fieldBe b 0 1 / 16 != 1) then some 13
  else none

/-- Opcodes that only a device sends (03 Table 3-6). -/
def deviceOp (op : Nat) : Bool := [0x03, 0x06, 0x08, 0x0A, 0x11, 0x14, 0x21].contains op

/-- Opcodes of Table 3-6 that have commands of their own. -/
def hostOp (op : Nat) : Bool := [0x01, 0x02, 0x04, 0x05, 0x07, 0x09, 0x0B, 0x10, 0x12, 0x13, 0x20].contains op

/-- A frame discarded and counted. Past the port's checks, a packet in the wrong direction is discarded (03 R63), and one
with an undefined opcode is MALFORMED (R60). -/
def discardedFrameEffect (f : Frame) (s : Chip) : Chip :=
  if f.host then
    if !s.hostOn || !s.portUp f.port then s
    else match s.hostDiscard f with
      | some c => s.discard f.port c
      | none =>
        let op := fieldBe f.bytes 1 1
        if !f.udp || hostOp op then s
        else if deviceOp op then s.discard f.port 14
        else s.receive op (framePacket f) fun _ t => t
  else
    let b := f.bytes
    let bad := !f.fecOk || !f.fcsOk || f.vlan.isSome || f.etherType != s.par 0xC0010C || !f.dstOk || b.length < 36 ||
      !trailerOk b || fieldBe b 0 1 != 0x13 || fieldBe b 1 1 < 0x40 || 0x47 < fieldBe b 1 1 ||
      (match s.syz.partner with
       | some w => fieldBe b 4 4 != w.toNat % 2 ^ 32
       | none => false)
    if bad then s.discard (16 + f.port) 15 else s

def execDiscardedFrame (f : Frame) (s : State) : Host.Outcome State Fault Refusal := .next (s.on (discardedFrameEffect f))

end Sys2Proof.Machine
end

