-- ==== Sys2Proof/Machine/Dispatch.lean ====
section
/-!
DEFINITION. One arm for each command: the meaning it calls.
-/
namespace Sys2Proof.Machine

/-- The effect of a command on everything but the queue. -/
def exec (i : Instr) (s : State) : Host.Outcome State Fault Refusal :=
  match i with
  | .write p => Sys2Proof.Machine.execWrite p s
  | .readReq p => Sys2Proof.Machine.execReadReq p s
  | .atomicAdd p => Sys2Proof.Machine.execAtomicAdd p s
  | .atomicCas p => Sys2Proof.Machine.execAtomicCas p s
  | .flush p => Sys2Proof.Machine.execFlush p s
  | .ack p => Sys2Proof.Machine.execAck p s
  | .window p => Sys2Proof.Machine.execWindow p s
  | .connect p => Sys2Proof.Machine.execConnect p s
  | .disconnect p => Sys2Proof.Machine.execDisconnect p s
  | .keepalive p => Sys2Proof.Machine.execKeepalive p s
  | .mgmtRead p => Sys2Proof.Machine.execMgmtRead p s
  | .mgmtWrite p => Sys2Proof.Machine.execMgmtWrite p s
  | .subscribe p => Sys2Proof.Machine.execSubscribe p s
  | .unsubscribe p => Sys2Proof.Machine.execUnsubscribe p s
  | .hello q => Sys2Proof.Machine.execHello q s
  | .prove q => Sys2Proof.Machine.execProve q s
  | .drop q => Sys2Proof.Machine.execDrop q s
  | .neighborSolicitation port target => Sys2Proof.Machine.execNeighborSolicitation port target s
  | .arpRequest port target => Sys2Proof.Machine.execArpRequest port target s
  | .icmpEcho port src head data => Sys2Proof.Machine.execIcmpEcho port src head data s
  | .mldQuery port => Sys2Proof.Machine.execMldQuery port s
  | .pause port quanta => Sys2Proof.Machine.execPause port quanta s
  | .discardedFrame f => Sys2Proof.Machine.execDiscardedFrame f s
  | .ackTimerExpiry c => Sys2Proof.Machine.execAckTimerExpiry c s
  | .retransmitTimeout c => Sys2Proof.Machine.execRetransmitTimeout c s
  | .keepaliveInterval c => Sys2Proof.Machine.execKeepaliveInterval c s
  | .keepaliveTimeout c => Sys2Proof.Machine.execKeepaliveTimeout c s
  | .openingTimeout c => Sys2Proof.Machine.execOpeningTimeout c s
  | .closingTimeout c => Sys2Proof.Machine.execClosingTimeout c s
  | .connEnd ses c => Sys2Proof.Machine.execConnEnd ses c s
  | .tktMingenWrite ses g v => Sys2Proof.Machine.execTktMingenWrite ses g v s
  | .messageStart comet => Sys2Proof.Machine.execMessageStart comet s
  | .egressReservationRetry => Sys2Proof.Machine.execEgressReservationRetry s
  | .lineOperationAccepted bank reqs => Sys2Proof.Machine.execLineOperationAccepted bank reqs s
  | .atomicUnitResult bank line errs => Sys2Proof.Machine.execAtomicUnitResult bank line errs s
  | .stealRequest comet => Sys2Proof.Machine.execStealRequest comet s
  | .stealRetry comet => Sys2Proof.Machine.execStealRetry comet s
  | .stealGrant level arbiter => Sys2Proof.Machine.execStealGrant level arbiter s
  | .urgencyAgeExpiry c psn => Sys2Proof.Machine.execUrgencyAgeExpiry c psn s
  | .urgentTake comet => Sys2Proof.Machine.execUrgentTake comet s
  | .cometFence comet cause => Sys2Proof.Machine.execCometFence comet cause s
  | .cometContextStall comet => Sys2Proof.Machine.execCometContextStall comet s
  | .rehome u => Sys2Proof.Machine.execRehome u s
  | .blockHeartbeatLoss b => Sys2Proof.Machine.execBlockHeartbeatLoss b s
  | .blockFence b cause => Sys2Proof.Machine.execBlockFence b cause s
  | .regionHeartbeatLoss r => Sys2Proof.Machine.execRegionHeartbeatLoss r s
  | .regionFence r cause => Sys2Proof.Machine.execRegionFence r cause s
  | .chipAgentFault agent => Sys2Proof.Machine.execChipAgentFault agent s
  | .watchdogExpiry cause => Sys2Proof.Machine.execWatchdogExpiry cause s
  | .allocate ag pool group n => Sys2Proof.Machine.execAllocate ag pool group n s
  | .append ag h n => Sys2Proof.Machine.execAppend ag h n s
  | .hand ag h heir => Sys2Proof.Machine.execHand ag h heir s
  | .share ag h sharers last => Sys2Proof.Machine.execShare ag h sharers last s
  | .release ag h => Sys2Proof.Machine.execRelease ag h s
  | .free ag h => Sys2Proof.Machine.execFree ag h s
  | .editClaim ses => Sys2Proof.Machine.execEditClaim ses s
  | .editRelease ses => Sys2Proof.Machine.execEditRelease ses s
  | .editClaimTimeout => Sys2Proof.Machine.execEditClaimTimeout s
  | .rgnRead ses idx => Sys2Proof.Machine.execRgnRead ses idx s
  | .rgnCreate ses idx => Sys2Proof.Machine.execRgnCreate ses idx s
  | .rgnModify ses idx => Sys2Proof.Machine.execRgnModify ses idx s
  | .rgnRotate ses idx => Sys2Proof.Machine.execRgnRotate ses idx s
  | .rgnRemove ses idx => Sys2Proof.Machine.execRgnRemove ses idx s
  | .refusedCommand ses idx code => Sys2Proof.Machine.execRefusedCommand ses idx code s
  | .checkEventIntervalEnd => Sys2Proof.Machine.execCheckEventIntervalEnd s
  | .clean ses m => Sys2Proof.Machine.execClean ses m s
  | .invalidate ses m => Sys2Proof.Machine.execInvalidate ses m s
  | .cleanInvalidate ses m => Sys2Proof.Machine.execCleanInvalidate ses m s
  | .preload ses m => Sys2Proof.Machine.execPreload ses m s
  | .maintenanceComplete arr errs => Sys2Proof.Machine.execMaintenanceComplete arr errs s
  | .cacheEnableWrite ses en => Sys2Proof.Machine.execCacheEnableWrite ses en s
  | .lockWaysWrite ses n => Sys2Proof.Machine.execLockWaysWrite ses n s
  | .cacheFillReturn bank errs => Sys2Proof.Machine.execCacheFillReturn bank errs s
  | .writeThroughDrain bank => Sys2Proof.Machine.execWriteThroughDrain bank s
  | .fetchComplete page bad fixed time errs => Sys2Proof.Machine.execFetchComplete page bad fixed time errs s
  | .destageChoose set errs => Sys2Proof.Machine.execDestageChoose set errs s
  | .stripeWaitExpiry set => Sys2Proof.Machine.execStripeWaitExpiry set s
  | .stripeSealed set => Sys2Proof.Machine.execStripeSealed set s
  | .stripeWriteAbandoned set => Sys2Proof.Machine.execStripeWriteAbandoned set s
  | .evictionConfirmed page => Sys2Proof.Machine.execEvictionConfirmed page s
  | .coldHoldExpiry page => Sys2Proof.Machine.execColdHoldExpiry page s
  | .mapNodeLoaded level idx tries => Sys2Proof.Machine.execMapNodeLoaded level idx tries s
  | .drivePresenceChange d present => Sys2Proof.Machine.execDrivePresenceChange d present s
  | .perstDelayExpiry => Sys2Proof.Machine.execPerstDelayExpiry s
  | .driveLinkChange d up width rate flit => Sys2Proof.Machine.execDriveLinkChange d up width rate flit s
  | .pcieAerError d k => Sys2Proof.Machine.execPcieAerError d k s
  | .linkRetrainTimeout d => Sys2Proof.Machine.execLinkRetrainTimeout d s
  | .nvmeCommandComplete d cid st => Sys2Proof.Machine.execNvmeCommandComplete d cid st s
  | .nvmeCommandTimeout d cid => Sys2Proof.Machine.execNvmeCommandTimeout d cid s
  | .controllerReadyTimeout d => Sys2Proof.Machine.execControllerReadyTimeout d s
  | .nvmeAsyncEvent d warning => Sys2Proof.Machine.execNvmeAsyncEvent d warning s
  | .smartPoll warnings => Sys2Proof.Machine.execSmartPoll warnings s
  | .driveReady d info => Sys2Proof.Machine.execDriveReady d info s
  | .setScanComplete set info => Sys2Proof.Machine.execSetScanComplete set info s
  | .readyWaitExpiry set => Sys2Proof.Machine.execReadyWaitExpiry set s
  | .journalPositionReplace set => Sys2Proof.Machine.execJournalPositionReplace set s
  | .rebuildDelayExpiry set => Sys2Proof.Machine.execRebuildDelayExpiry set s
  | .rebuild ses set pos d => Sys2Proof.Machine.execRebuild ses set pos d s
  | .rebuildForce ses set pos d => Sys2Proof.Machine.execRebuildForce ses set pos d s
  | .rebuildComplete set => Sys2Proof.Machine.execRebuildComplete set s
  | .form ses set => Sys2Proof.Machine.execForm ses set s
  | .checkpointWritten => Sys2Proof.Machine.execCheckpointWritten s
  | .patrolVisit set slot finding lapEnd => Sys2Proof.Machine.execPatrolVisit set slot finding lapEnd s
  | .dimmTempPoll readings => Sys2Proof.Machine.execDimmTempPoll readings s
  | .mr4Poll doubled => Sys2Proof.Machine.execMr4Poll doubled s
  | .refreshDue ch rank elapsed => Sys2Proof.Machine.execRefreshDue ch rank elapsed s
  | .refreshForced ch rank => Sys2Proof.Machine.execRefreshForced ch rank s
  | .writeQueueAgeExpiry ch => Sys2Proof.Machine.execWriteQueueAgeExpiry ch s
  | .rdWindowEnd => Sys2Proof.Machine.execRdWindowEnd s
  | .rdSpacingExpiry ch c bank => Sys2Proof.Machine.execRdSpacingExpiry ch c bank s
  | .frequencyChange ses target => Sys2Proof.Machine.execFrequencyChange ses target s
  | .channelFrequencyDone ranks => Sys2Proof.Machine.execChannelFrequencyDone ranks s
  | .readProbe ses m => Sys2Proof.Machine.execReadProbe ses m s
  | .pattern ses m => Sys2Proof.Machine.execPattern ses m s
  | .patternFull ses m => Sys2Proof.Machine.execPatternFull ses m s
  | .eyeSweep ses m => Sys2Proof.Machine.execEyeSweep ses m s
  | .caSweep ses m => Sys2Proof.Machine.execCaSweep ses m s
  | .marginHelperDone ch r => Sys2Proof.Machine.execMarginHelperDone ch r s
  | .repairEnd line stored => Sys2Proof.Machine.execRepairEnd line stored s
  | .scrubRead ch errs => Sys2Proof.Machine.execScrubRead ch errs s
  | .remapClear ses mask => Sys2Proof.Machine.execRemapClear ses mask s
  | .journal h es => Sys2Proof.Machine.execJournal h es s
  | .journalAck h pos cum credit => Sys2Proof.Machine.execJournalAck h pos cum credit s
  | .heartbeat h state role caughtUp eclipse pos => Sys2Proof.Machine.execHeartbeat h state role caughtUp eclipse pos s
  | .mirrorWrite h es => Sys2Proof.Machine.execMirrorWrite h es s
  | .mirrorFetch h addr size tag => Sys2Proof.Machine.execMirrorFetch h addr size tag s
  | .fetchResp h tag source mask data => Sys2Proof.Machine.execFetchResp h tag source mask data s
  | .sealNoteRelease h pos => Sys2Proof.Machine.execSealNoteRelease h pos s
  | .sealNoteEclipse h => Sys2Proof.Machine.execSealNoteEclipse h s
  | .sealNoteSealed h last seq => Sys2Proof.Machine.execSealNoteSealed h last seq s
  | .roleStart h m state caughtUp => Sys2Proof.Machine.execRoleStart h m state caughtUp s
  | .roleJoin h m => Sys2Proof.Machine.execRoleJoin h m s
  | .roleCaughtUp h => Sys2Proof.Machine.execRoleCaughtUp h s
  | .roleTakeover h => Sys2Proof.Machine.execRoleTakeover h s
  | .roleSwitchGo h last => Sys2Proof.Machine.execRoleSwitchGo h last s
  | .roleRefuse h causes => Sys2Proof.Machine.execRoleRefuse h causes s
  | .heartbeatInterval => Sys2Proof.Machine.execHeartbeatInterval s
  | .heartbeatLoss => Sys2Proof.Machine.execHeartbeatLoss s
  | .syzRetransmitTimeout => Sys2Proof.Machine.execSyzRetransmitTimeout s
  | .syzLinkChange link up => Sys2Proof.Machine.execSyzLinkChange link up s
  | .soloWaitExpiry hs => Sys2Proof.Machine.execSoloWaitExpiry hs s
  | .reservationCheck hs => Sys2Proof.Machine.execReservationCheck hs s
  | .fenceLimitExpiry => Sys2Proof.Machine.execFenceLimitExpiry s
  | .preemptComplete => Sys2Proof.Machine.execPreemptComplete s
  | .sealSearchComplete blocks => Sys2Proof.Machine.execSealSearchComplete blocks s
  | .sealWaitExpiry => Sys2Proof.Machine.execSealWaitExpiry s
  | .takeoverActive => Sys2Proof.Machine.execTakeoverActive s
  | .replayComplete => Sys2Proof.Machine.execReplayComplete s
  | .eclipseTimeout => Sys2Proof.Machine.execEclipseTimeout s
  | .joinWaitExpiry hs => Sys2Proof.Machine.execJoinWaitExpiry hs s
  | .twinFenceInChange asserted => Sys2Proof.Machine.execTwinFenceInChange asserted s
  | .switchover ses => Sys2Proof.Machine.execSwitchover ses s
  | .railSample codes => Sys2Proof.Machine.execRailSample codes s
  | .pwrFail => Sys2Proof.Machine.execPwrFail s
  | .pwrGoodIn => Sys2Proof.Machine.execPwrGoodIn s
  | .aonResetRelease straps => Sys2Proof.Machine.execAonResetRelease straps s
  | .startPulse us => Sys2Proof.Machine.execStartPulse us s
  | .seqSyncRise => Sys2Proof.Machine.execSeqSyncRise s
  | .sequenceFault => Sys2Proof.Machine.execSequenceFault s
  | .resetStretchExpiry j => Sys2Proof.Machine.execResetStretchExpiry j s
  | .e2LimitExpiry => Sys2Proof.Machine.execE2LimitExpiry s
  | .e2Complete => Sys2Proof.Machine.execE2Complete s
  | .e3Complete => Sys2Proof.Machine.execE3Complete s
  | .drainComplete => Sys2Proof.Machine.execDrainComplete s
  | .sealWritten => Sys2Proof.Machine.execSealWritten s
  | .downSequenceEnd => Sys2Proof.Machine.execDownSequenceEnd s
  | .inputReturned => Sys2Proof.Machine.execInputReturned s
  | .drainRateSecond => Sys2Proof.Machine.execDrainRateSecond s
  | .sfdpReadComplete ok => Sys2Proof.Machine.execSfdpReadComplete ok s
  | .imageReadComplete slot => Sys2Proof.Machine.execImageReadComplete slot s
  | .sramInitComplete fails => Sys2Proof.Machine.execSramInitComplete fails s
  | .trainingComplete rs => Sys2Proof.Machine.execTrainingComplete rs s
  | .hostLinkChange port up => Sys2Proof.Machine.execHostLinkChange port up s
  | .portWaitExpiry => Sys2Proof.Machine.execPortWaitExpiry s
  | .maintenanceModeAlternate => Sys2Proof.Machine.execMaintenanceModeAlternate s
  | .restart ses => Sys2Proof.Machine.execRestart ses s
  | .clampClr ses => Sys2Proof.Machine.execClampClr ses s
  | .stageBegin ses => Sys2Proof.Machine.execStageBegin ses s
  | .stageWrite ses => Sys2Proof.Machine.execStageWrite ses s
  | .stageCommit ses => Sys2Proof.Machine.execStageCommit ses s
  | .stageAbort ses => Sys2Proof.Machine.execStageAbort ses s
  | .stageOperationComplete => Sys2Proof.Machine.execStageOperationComplete s
  | .stageTimeout => Sys2Proof.Machine.execStageTimeout s
  | .flashRecordWritten => Sys2Proof.Machine.execFlashRecordWritten s
  | .challengeExpiry ses => Sys2Proof.Machine.execChallengeExpiry ses s
  | .lockoutExpiry src => Sys2Proof.Machine.execLockoutExpiry src s
  | .i2cRoleTimeout => Sys2Proof.Machine.execI2cRoleTimeout s
  | .powerTable ses t => Sys2Proof.Machine.execPowerTable ses t s
  | .mac ses m => Sys2Proof.Machine.execMac ses m s
  | .rootHash ses h => Sys2Proof.Machine.execRootHash ses h s
  | .lock ses => Sys2Proof.Machine.execLock ses s
  | .unlock ses => Sys2Proof.Machine.execUnlock ses s
  | .disableForever ses => Sys2Proof.Machine.execDisableForever ses s
  | .ticketKeyLoad ses slot => Sys2Proof.Machine.execTicketKeyLoad ses slot s
  | .ticketKeyClear ses slot => Sys2Proof.Machine.execTicketKeyClear ses slot s
  | .attestationGo ses => Sys2Proof.Machine.execAttestationGo ses s
  | .attestationDone => Sys2Proof.Machine.execAttestationDone s
  | .recorderBlockCopy => Sys2Proof.Machine.execRecorderBlockCopy s
  | .archiveRead ses partner => Sys2Proof.Machine.execArchiveRead ses partner s
  | .archiveReadDone words => Sys2Proof.Machine.execArchiveReadDone words s
  | .floodWindowEnd => Sys2Proof.Machine.execFloodWindowEnd s
  | .alertClear ses => Sys2Proof.Machine.execAlertClear ses s
  | .evrCursorWrite ses v => Sys2Proof.Machine.execEvrCursorWrite ses v s
  | .latchingRead ses addr => Sys2Proof.Machine.execLatchingRead ses addr s
  | .clearingRead ses addr => Sys2Proof.Machine.execClearingRead ses addr s
  | .i2cWrite bytes pec => Sys2Proof.Machine.execI2cWrite bytes pec s
  | .i2cRead addrBytes words => Sys2Proof.Machine.execI2cRead addrBytes words s
  | .i2cTimeout => Sys2Proof.Machine.execI2cTimeout s
  | .registerWrite ses addr v => Sys2Proof.Machine.execRegisterWrite ses addr v s
  | .alwaysOnSupplyLoss => Sys2Proof.Machine.execAlwaysOnSupplyLoss s
  | .driveShutdownComplete d => Sys2Proof.Machine.execDriveShutdownComplete d s
  | .drvPerstPulseExpiry d => Sys2Proof.Machine.execDrvPerstPulseExpiry d s
  | .rdThrottleMinExpiry ch c bank => Sys2Proof.Machine.execRdThrottleMinExpiry ch c bank s
  | .tapInstruction t => Sys2Proof.Machine.execTapInstruction t s
  | .backgroundEraseComplete a => Sys2Proof.Machine.execBackgroundEraseComplete a s
  | .returnStableWaitExpiry => Sys2Proof.Machine.execReturnStableWaitExpiry s
  | .minOffExpiry => Sys2Proof.Machine.execMinOffExpiry s

end Sys2Proof.Machine
end

