-- ==== Sys2Proof/Safety.lean ====
section
/-!
DEFINITION. The words that the claims are stated in: who may send a command, which packet a connection takes, what raising
an event may touch, and the invariants of a run.
-/
namespace Sys2Proof.Machine

/-- A session may use a register command: it exists (15 R375), the block's domain is powered (17 R413), and its role
reaches the tag (R414). -/
abbrev Chip.grants (s : Chip) (q : Session) (domain role : Nat) : Prop :=
  s.sesLive q = true ∧ s.domainOn domain = true ∧ role ≤ (s.ses q).role

/-- A packet reaches the connection it names and passes orders 3 and 4 of 03 Table 3-19: the port runs, the source is the
connection's host, the connection is ESTABLISHED, no Eclipse runs and its header is well formed. -/
abbrev Chip.accepts (s : Chip) (op : Nat) (p : Packet) (k : Conn) : Prop :=
  s.hostTakes p.port = true ∧ s.conn p.connId = some k ∧ k.host = p.src ∧ k.st = ConnState.established ∧
  s.glb.state ≠ DevState.eclipse ∧ p.badHeader k.mgmt op = false

/-- The chip once a connection has heard a packet (03 R82), which shows that the next hop to its host can be reached. -/
def Chip.hears (s : Chip) (p : Packet) (k : Conn) : Chip := (s.hearFrom p.port p.src).setConn p.connId (k.heard p s.now)

/-- A packet with its own PSN that its connection accepts: well formed, and inside the window (03 R60, R69). -/
abbrev Chip.takes (s : Chip) (op : Nat) (p : Packet) (k : Conn) : Prop :=
  s.accepts op p k ∧ (s.hears p k).misshapen (k.heard p s.now) op p = false ∧
  (k.heard p s.now).classify s.now p.psn.toNat p.payload.length = 0

/-- The chip without what raising an event may touch: the recorder, the alert flag, the clamp log, the records waiting for
the configuration store, the counters, the free values drawn, and what the device sends to its hosts, keeps
for them while a PAUSE lasts, and knows of its neighbours. -/
def Chip.quiet (s : Chip) : Chip :=
  { s with
    evr := Evr.reset, cnts := [], bpm := Bpm.reset, out := [], xpt := { s.xpt with conns := [] },
    hpx := { s.hpx with held := [], neigh := [] },
    flt := { s.flt with alert := false, alertSeq := 0 }, cfg := { s.cfg with log := [], overflow := false, pend := [], recSeq := [] } }

/-- A connection with nothing on its way: no message, no packet held or waiting, no FLUSH. -/
abbrev Conn.idle (k : Conn) : Prop := k.msgs = [] ∧ k.held = [] ∧ k.wait = [] ∧ k.flushes = []

/-- An idle connection ended by the device (03 R78, Table 3-14): DISCONNECT with the reason, FREE at once, and its record. -/
def Chip.endIdle (s : Chip) (c : Nat) (k : Conn) (reason : Nat) : Chip :=
  let bye := DevPkt.make c 0x12 0 0 0 0 [BitVec.ofNat 8 reason, 0, 0, 0]
  ((s.wire c k bye none).freeConn c).raise 0x02 0xFFFF 1 0 0 (le 4 c ++ [BitVec.ofNat 8 reason])

/-- What FAULT leaves of the chip, events aside (01 R26, 12 R307, 13 Table 13-5, 16 R402): the state and its cause, the host
ports stopped, the fence line asserted, D0 to D15 and D20 gated, the outputs with ASSERT_ON_FAULT low, an Eclipse ended, and a sequence that
the chip does not abandon left. -/
def Chip.inFault (s : Chip) (cause : Nat) : Chip :=
  let outs := s.pws.outs.map fun o => if o.cfg.onFault then { o with low := true, counting := false } else o
  let gated := (rangeFrom 0 16 ++ [20]).foldl (fun g d => setBit g d true) s.pws.gated
  { s with
    glb := { s.glb with state := .fault }, hpx := { s.hpx with stopped := true }, syz := { s.syz with fenceOut := true },
    pws := { s.pws with
      outs, gated, offAt := s.now, dir := if s.pws.dir == 3 || s.pws.abandon then s.pws.dir else 0,
      holding := (s.pws.dir == 3 || s.pws.abandon) && s.pws.holding },
    flt := { s.flt with faulted := true, cause }, ecl := { s.ecl with step := 0, waiting := false } }

/-- A reliable Syzygy frame from the partner is this unit's next one: the first of all, or the one after the cumulative link
sequence (12 R297, R298). -/
abbrev Chip.tells (s : Chip) (h : SyzHead) : Prop :=
  s.syzTakes h = true ∧ s.foreign h = false ∧
  (s.syz.rxKnown = true → h.seq.toNat = psnAdd s.syz.rxSeq 1 ∧ notAfter h.seq.toNat s.syz.rxSeq = false ∧
    (s.syz.rxHeld.any fun e => e.1 == h.seq.toNat) = false)

/-- It is new to this unit, but frames before it are missing. -/
abbrev Chip.ahead (s : Chip) (h : SyzHead) : Prop :=
  s.syzTakes h = true ∧ s.foreign h = false ∧ s.syz.rxKnown = true ∧ notAfter h.seq.toNat s.syz.rxSeq = false ∧
  (s.syz.rxHeld.any fun e => e.1 == h.seq.toNat) = false ∧ psnAdd s.syz.rxSeq 1 ≠ h.seq.toNat ∧
  (s.syz.rxHeld.any fun e => e.1 == psnAdd s.syz.rxSeq 1) = false

/-- The unit with the link sequence of its next frame received. -/
def Chip.hearing (s : Chip) (h : SyzHead) : Chip :=
  { s with syz := { s.syz with rxKnown := true, rxSeq := h.seq.toNat, rxHeld := if s.syz.rxKnown then s.syz.rxHeld else [] } }

/-- After a frame took effect: the frames that waited for it, in the order of their sequence, and the answer (12 R297, R298). -/
def Chip.andNext (s u : Chip) : Chip := (Chip.inSequence s.syz.rxHeld.length u).sendJournalAck

/-- What programming leaves of the fuses (15 R380 to R382, R386): a fuse word programmed once keeps its value, LOCK is never
undone, and after LOCK only the fuse of DISABLE_FOREVER can still be blown. -/
def Otp.kept (a b : Otp) : Prop :=
  (a.powerTable.isSome = true → b.powerTable = a.powerTable) ∧ (a.mac.isSome = true → b.mac = a.mac) ∧
  (a.rootHash.isSome = true → b.rootHash = a.rootHash) ∧ (a.debugOff = true → b.debugOff = true) ∧
  b.factoryOff = a.factoryOff ∧ (a.provisioned = true → b = { a with debugOff := b.debugOff })

/-- A locked part holds its power table, its MAC, its root hash and its identity (15 R380, R382). -/
def Otp.whole (o : Otp) : Prop :=
  o.provisioned = true → o.powerTable.isSome = true ∧ o.mac.isSome = true ∧ o.rootHash.isSome = true ∧ o.identity.isSome = true

end Sys2Proof.Machine
end

