-- ==== Sys2Proof/Certificates/Slice0/Obligations.lean ====
section
/-!
DEFINITION. The statements for the provers. Each is about every state unless it says otherwise; the words it uses beside the
model's own (`grants`, `accepts`, `takes`, `quiet`, `tells`, `kept`, `whole`) are those of Sys2Proof/Safety.lean.
-/
open Sys2Proof Sys2Proof.Machine

/-- A host port that runs answers for its service address, counts what it discards and honours PAUSE where it is enabled; one that
does not, as in UMBRA, discards and counts them too (03 R54, R56, Table 3-2, 12 R313): the command's own effect, with the whole next state. -/
def Obligations.HostPortCommandsComplete : Prop :=
  (∀ (s : State) (port : Nat) (target : BitVec 128), s.chip.hostTakes port = true →
    (s.chip.ownV6 target = true → exec (.neighborSolicitation port target) s =
      .next (s.on fun c => c.send port (.neighborAdv port (c.ipTag port 3) target true))) ∧
    (s.chip.ownV6 target = false → exec (.neighborSolicitation port target) s = .next s)) ∧
  (∀ (s : State) (port : Nat) (target : BitVec 32), s.chip.hostTakes port = true →
    (s.chip.ownV4 target = true → exec (.arpRequest port target) s =
      .next (s.on fun c => c.send port (.arpReply port (c.ipTag port 3) target false))) ∧
    (s.chip.ownV4 target = false → exec (.arpRequest port target) s = .next s)) ∧
  (∀ (s : State) (port : Nat), s.chip.hostTakes port = true →
    exec (.mldQuery port) s = .next (s.on fun c => c.send port (.mldReport port (c.ipTag port 3) (c.portAddr port).v6))) ∧
  (∀ (s : State) (port : Nat) (src : BitVec 128) (head : BitVec 32) (data : List Byte), s.chip.hostTakes port = true →
    data.length ≤ 1024 →
    let sec := s.chip.now / 1000000000
    let sent := if s.chip.hpx.echoSec = sec then s.chip.hpx.echoes else []
    let n := Tab.get sent 0 port
    (n < 1000 → exec (.icmpEcho port src head data) s = .next (s.on fun c =>
      ({ c with hpx := { c.hpx with echoes := Tab.set sent 0 port (n + 1), echoSec := sec } } : Chip).send port
        (.echoReply port (c.ipTag port 3) src head data))) ∧
    (1000 ≤ n → exec (.icmpEcho port src head data) s = .next s)) ∧
  (∀ (s : State) (port quanta : Nat), s.chip.glb.state ≠ .umbra → s.chip.hostOn = true → s.chip.portUp port = true → bit s.chip.hpx.pauseEn port = true →
    exec (.pause port quanta) s = .next (s.on fun c =>
      let till := c.now + pauseTime (c.hpx.modes.getD (port / 4) 0) quanta
      ({ c with hpx := { c.hpx with paused := Tab.set c.hpx.paused 0 port till } } : Chip).unpause)) ∧
  (∀ (s : State) (f : Frame) (cause : Nat), f.host = true → s.chip.hostOn = true → s.chip.portUp f.port = true →
    s.chip.hostDiscard f = some cause →
    exec (.discardedFrame f) s = .next (s.on fun c => c.discard f.port cause)) ∧
  (∀ (s : State) (port len : Nat) (t6 : BitVec 128) (t4 : BitVec 32) (src : BitVec 128) (head : BitVec 32) (data : List Byte),
    (s.chip.hostTakes port = false →
      ∀ c ∈ [Instr.neighborSolicitation port t6, .arpRequest port t4, .mldQuery port, .icmpEcho port src head data],
        exec c s = .next (s.on fun c => c.discard port 0)) ∧
    (s.chip.glb.state = .umbra → exec (.pause port len) s = .next (s.on fun c => c.discard port 0)))

/-- A host message packet that its connection takes is heard and placed (03 Table 3-19, 04 R92): its own effect. -/
def Obligations.MessagePacketsComplete : Prop :=
  ∀ (s : State) (p : Packet) (k : Conn),
    (s.chip.takes 0x01 p k → exec (.write p) s = .next (s.on fun c => (c.hears p k).takePacket p.connId 0x01 p)) ∧
    (s.chip.takes 0x02 p k → exec (.readReq p) s = .next (s.on fun c => (c.hears p k).takePacket p.connId 0x02 p)) ∧
    (s.chip.takes 0x04 p k → exec (.atomicAdd p) s = .next (s.on fun c => (c.hears p k).takePacket p.connId 0x04 p)) ∧
    (s.chip.takes 0x05 p k → exec (.atomicCas p) s = .next (s.on fun c => (c.hears p k).takePacket p.connId 0x05 p)) ∧
    (s.chip.takes 0x07 p k → exec (.flush p) s = .next (s.on fun c => (c.hears p k).takePacket p.connId 0x07 p)) ∧
    (s.chip.takes 0x12 p k → exec (.disconnect p) s = .next (s.on fun c => (c.hears p k).takePacket p.connId 0x12 p))

/-- A control packet that reaches its connection is heard; an ACK or a WINDOW gives its cumulative PSN and windows
(03 R66, R71, R75). -/
def Obligations.ControlPacketsComplete : Prop :=
  ∀ (s : State) (p : Packet) (k : Conn),
    (s.chip.accepts 0x09 p k → exec (.ack p) s = .next (s.on fun c => (c.hears p k).hostCovers p.connId p.psn.toNat
      (fieldBe p.payload 0 2) (fieldBe p.payload 4 4) (fieldBe p.payload 8 8))) ∧
    (s.chip.accepts 0x0B p k → exec (.window p) s = .next (s.on fun c => (c.hears p k).hostCovers p.connId p.psn.toNat
      (fieldBe p.payload 0 2) (fieldBe p.payload 4 4) (fieldBe p.payload 8 8))) ∧
    (s.chip.accepts 0x13 p k → exec (.keepalive p) s = .next (s.on fun c => c.hears p k))

/-- A CONNECT that passes Table 3-13 while the device is ACTIVE, is of class 1 and repeats no OPENING connection is
admitted under the lowest usable ID, and answered with status 0 (03 R74, R77). -/
def Obligations.ConnectAdmits : Prop :=
  ∀ (s : State) (p : Packet) (c : Nat), s.chip.hostTakes p.port = true → p.cls = 1 → s.chip.connectStatus p = 0 →
    (s.chip.xpt.conns.find? fun e => e.2.st == .opening && e.2.host == p.src && e.2.sport == p.sport &&
      e.2.nonce == slice p.payload 128 8) = none →
    s.chip.freeId = some c →
    ∃ (k : Conn) (t : State), exec (.connect p) s = .next t ∧ t.chip.conn c = some k ∧ k.st = .opening ∧ k.mgmt = false ∧
      k.host = p.src ∧ k.sport = p.sport ∧ k.cum = p.psn.toNat ∧ k.group = fieldBe p.payload 8 1 % 64 ∧
      k.tx = k.respPsn ∧ k.resp.take 1 = [0] ∧
      (∃ q : DevPkt, q.op = 0x11 ∧ q.conn = c ∧ q.payload = k.resp ∧ q.psn = k.respPsn ∧ q.cls = 1 ∧ q.msgId = p.msgId ∧
        q.key = p.key.toNat ∧ q.offset = p.offset ∧
        let port := if p.hint < 16 ∧ s.chip.portUp p.hint = true then p.hint else p.port
        let head := s.chip.ipHead port 0 p.src p.sport q.bytes
        let known := s.chip.hpx.neigh.any fun n => n.port == port && n.addr == head.next && s.chip.now ≤ n.seen + reachableTime
        let sent := (if known then [] else [Out.neighborSol port (s.chip.ipTag port 3) head.next]) ++ [Out.packet port head q q.bytes]
        q.port = port ∧
        (s.chip.now < Tab.get s.chip.hpx.paused 0 port →
          t.chip.out = s.chip.out ∧ t.chip.hpx.held = s.chip.hpx.held ++ sent.map fun o => (port, o)) ∧
        (Tab.get s.chip.hpx.paused 0 port ≤ s.chip.now →
          t.chip.out = sent.reverse ++ s.chip.out ∧ t.chip.hpx.held = s.chip.hpx.held)) ∧
      (∀ d, d ≠ c → t.chip.conn d = s.chip.conn d) ∧ t.chip.pgm = s.chip.pgm ∧ t.chip.rgn = s.chip.rgn ∧
      t.chip.glb = s.chip.glb ∧ t.chip.regs = s.chip.regs ∧ t.otp = s.otp

/-- The timers of a connection and the installer's commands over it (03 R70, R71, R74, R75, R78, Table 3-15). -/
def Obligations.ConnectionCommandsComplete : Prop :=
  (∀ (s : State) (c : Nat) (k : Conn), s.chip.conn c = some k → k.ackDue = true →
    exec (.ackTimerExpiry c) s = .next (s.on fun t => t.sendAck c)) ∧
  (∀ (s : State) (c : Nat) (k : Conn), s.chip.conn c = some k → k.held ≠ [] → k.expiries < 7 →
    exec (.retransmitTimeout c) s = .next (s.on fun t =>
      (k.held.filter fun d => !(decide (psnSub d.psn (psnAdd k.hostCum 1) < 64) && bit k.hostMap (psnSub d.psn (psnAdd k.hostCum 1)))).foldl
        (fun t d => t.resend c d) (t.setConn c { k with expiries := k.expiries + 1 }))) ∧
  (∀ (s : State) (c : Nat) (k : Conn), s.chip.conn c = some k → k.live = true →
    k.st ≠ .opening ∨ s.chip.noticed = false →
    let beat := DevPkt.make c 0x13 0 0 0 0 []
    (k.greeting = false → s.chip.hostOn = true → exec (.keepaliveInterval c) s = .next (s.on fun t =>
      (t.setConn c { k with rr := t.txPort k none }).sendPacket (t.txPort k none) k.host k.sport
        { beat with cls := if k.mgmt then 2 else 1 })) ∧
    (k.greeting = true → exec (.keepaliveInterval c) s = .next (s.on fun t => t.setConn c { k with behind := k.behind ++ [beat] }))) ∧
  (∀ (s : State) (c : Nat) (k : Conn), s.chip.conn c = some k → k.st = .opening → s.chip.noticed = true →
    exec (.keepaliveInterval c) s = .next s) ∧
  (∀ (s : State) (c : Nat) (k : Conn), s.chip.conn c = some k → k.st = .opening →
    exec (.openingTimeout c) s = .next (s.on fun t => (t.freeConn c).raise 0x02 0xFFFF 1 0 0 (le 4 c ++ [Config.openCode 1 0]))) ∧
  (∀ (s : State) (c : Nat) (k : Conn), s.chip.conn c = some k → k.st = .closing →
    exec (.closingTimeout c) s = .next (s.on fun t => (t.sendDisconnect c 0).freeConn c)) ∧
  (∀ (s : State) (c : Nat) (k : Conn), s.chip.conn c = some k → k.st = .established → k.idle → s.chip.bpm.owed = [] →
    exec (.keepaliveTimeout c) s = .next (s.on fun t => t.endIdle c k 1)) ∧
  (∀ (s : State) (q : Session) (c : Nat) (k : Conn), s.chip.grants q 23 2 → s.chip.conn c = some k → k.st = .established →
    k.idle → s.chip.bpm.owed = [] → exec (.connEnd q c) s = .next (s.on fun t => t.endIdle c k 5)) ∧
  (∀ (s : State) (q : Session) (g : Nat) (v : BitVec 32), s.chip.grants q 23 2 → g < 64 →
    exec (.tktMingenWrite q g v) s = .next (s.on fun t =>
      (t.xpt.conns.filter fun e => e.2.group == g && decide (e.2.tktGen < v.toNat)).foldl (fun u e => u.endConn e.1 2)
        (t.setPar (0x201000 + 4 * g) v.toNat)))

/-- A connection that the device ends (`endConn`) is FREE or ABORTING afterwards; one that was not already ABORTING keeps the
reason, holds no packet to send again and answers no FLUSH (03 R78, Table 3-15). -/
def Obligations.EndedConnectionStopsSending : Prop :=
  ∀ (s : Chip) (c reason : Nat) (k : Conn), s.conn c = some k →
    (s.endConn c reason).conn c = none ∨
    ∃ j, (s.endConn c reason).conn c = some j ∧ j.st = .aborting ∧
      (k.st ≠ .aborting → j.held = [] ∧ j.wait = [] ∧ j.flushes = [] ∧ j.reason = reason)

/-- A MGMT_REQ packet of each operation that its connection takes is placed, and the requests at the connection's
frontier are executed, one at a time in PSN order (03 R89, 06 R145, 15 Table 15-4). -/
def Obligations.MgmtPacketsComplete : Prop :=
  ∀ (s : State) (p : Packet) (k : Conn),
    let done (op : Nat) : State := mgmtRun 256 p.connId (s.on fun c => (c.hears (withOp op p) k).takePacket p.connId 0x20 (withOp op p))
    (s.chip.takes 0x20 (withOp 0x01 p) k → exec (.mgmtRead p) s = .next (done 0x01)) ∧
    (s.chip.takes 0x20 (withOp 0x02 p) k → exec (.mgmtWrite p) s = .next (done 0x02)) ∧
    (s.chip.takes 0x20 (withOp 0x04 p) k → exec (.subscribe p) s = .next (done 0x04)) ∧
    (s.chip.takes 0x20 (withOp 0x05 p) k → exec (.unsubscribe p) s = .next (done 0x05)) ∧
    (s.chip.takes 0x20 (withOp 0x10 p) k → exec (.hello (.mgmt p)) s = .next (done 0x10)) ∧
    (s.chip.takes 0x20 (withOp 0x11 p) k → exec (.prove (.mgmt p)) s = .next (done 0x11)) ∧
    (s.chip.takes 0x20 (withOp 0x12 p) k → exec (.drop (.mgmt p)) s = .next (done 0x12))

/-- A request that the management agent executes (03 R89, R90, Table 3-21): its count is checked first, then its alignment;
a READ of one word that answers returns it, a WRITE of one word gives that write's status, and SUBSCRIBE and UNSUBSCRIBE
set what their connection is told. -/
def Obligations.MgmtRequestsAnswered : Prop :=
  ∀ (s : State) (c op n a : Nat) (data : List Byte), op < 256 → n < 65536 → a < 2 ^ 32 →
    let b := be 1 op ++ [0] ++ be 2 n ++ be 4 a ++ data
    (n = 0 ∨ 256 < n → (mgmtExecute c b s).status = 4 ∧ (mgmtExecute c b s).st = s) ∧
    (mgmtCountOk op n = true → data.length = mgmtLen op n → a % 4 ≠ 0 →
      (mgmtExecute c b s).status = 3 ∧ (mgmtExecute c b s).st = s) ∧
    (op = 0x01 → n = 1 → data = [] → a % 4 = 0 → ∀ (w : BitVec 32) (t : Chip), s.chip.readReg s.otp (.mgmt c) a = (some w, t) →
      (mgmtExecute c b s).status = 0 ∧ (mgmtExecute c b s).count = 1 ∧ (mgmtExecute c b s).data = wordBytes w ∧
      (mgmtExecute c b s).st = { s with chip := t }) ∧
    (op = 0x02 → n = 1 → ∀ v : BitVec 32, data = wordBytes v → a % 4 = 0 →
      (mgmtExecute c b s).status = (writeReg (.mgmt c) a v.toNat s).1 ∧
      (mgmtExecute c b s).st = (writeReg (.mgmt c) a v.toNat s).2) ∧
    (op = 0x04 → n = 1 → ∀ x y : BitVec 8, data = [x, y, 0, 0] → a = 0 →
      (mgmtExecute c b s).status = 0 ∧ (mgmtExecute c b s).st =
        s.on fun t => t.modConn c fun k => { k with codes := x.toNat, sev := y.toNat % 16 }) ∧
    (op = 0x05 → 1 ≤ n → n ≤ 256 → data = [] → a = 0 →
      (mgmtExecute c b s).status = 0 ∧
      (mgmtExecute c b s).st = s.on fun t => t.modConn c fun k => { k with codes := 0, sev := 0 })

/-- The session exchange over I2C (15 R376, R379, Table 15-4): HELLO of a valid credential draws a challenge, PROVE of a
signature that verifies holds the credential's role, DROP leaves none; and the ends in time. Each leaves everything else
that raising an event may not touch. -/
def Obligations.SessionCommandsComplete : Prop :=
  (∀ (s : State) (b : List Byte), s.chip.glb.aonUp = true → s.chip.regOn 0x1000040 = true → s.chip.sec.i2cBusy = false →
    s.chip.sec.locked.contains none = false → b = (wordsBytes s.chip.sec.i2cData).take 224 →
    leField b 2 1 ≠ 0 → s.chip.credStatus s.otp b = 0 →
    ∃ t, exec (.hello .i2c) s = .next t ∧ t.otp = s.otp ∧ t.pending = s.pending ∧
      t.chip.quiet = { s.chip.quiet with fresh := s.chip.fresh + 1, sec := { s.chip.sec with
        i2c := { s.chip.sec.i2c with challenge := some s.chip.fresh, cred := b }, i2cBusy := true, i2cSts := 0,
        i2cData := bytesWords 12 (helloBytes s.chip.fresh (leField b 4 4)) ++ s.chip.sec.i2cData.drop 12 } }) ∧
  (∀ (s : State) (d role : Nat), s.chip.glb.aonUp = true → s.chip.regOn 0x1000040 = true → s.chip.sec.i2cBusy = false →
    s.chip.sec.locked.contains none = false → s.chip.sec.i2c.challenge = some d → role = leField s.chip.sec.i2c.cred 3 1 →
    Config.ecdsaVerify (slice s.chip.sec.i2c.cred 32 96) (s.chip.proofMessage .i2c d role)
      ((wordsBytes s.chip.sec.i2cData).take 96) = true → s.chip.rolesFull .i2c = false →
    ∃ t, exec (.prove .i2c) s = .next t ∧ t.otp = s.otp ∧ t.pending = s.pending ∧
      t.chip.quiet = { s.chip.quiet with sec := { s.chip.sec with
        i2c := { s.chip.sec.i2c with role := role, serial := leField s.chip.sec.i2c.cred 4 4, challenge := none, cred := [] },
        i2cBusy := true, i2cSts := 0,
        i2cData := bytesWords 1 (le 1 role ++ [0, 0, 0]) ++ s.chip.sec.i2cData.drop 1 } }) ∧
  (∀ (s : State), s.chip.glb.aonUp = true → s.chip.regOn 0x1000040 = true → s.chip.sec.i2cBusy = false →
    s.chip.sec.i2c.role ≠ 0 →
    ∃ t, exec (.drop .i2c) s = .next t ∧ t.otp = s.otp ∧ t.pending = s.pending ∧
      t.chip.quiet = { s.chip.quiet with sec := { s.chip.sec with
        i2c := { s.chip.sec.i2c with role := 0, serial := 0 }, i2cBusy := true, i2cSts := 0,
        i2cData := bytesWords 1 [0, 0, 0, 0] ++ s.chip.sec.i2cData.drop 1 } }) ∧
  (∀ (s : State) (q : Session), (s.chip.ses q).challenge.isSome = true →
    exec (.challengeExpiry q) s = .next (s.on fun c => c.modSes q fun k => { k with challenge := none, cred := [] })) ∧
  (∀ (s : State) (src : Option (BitVec 128)),
    exec (.lockoutExpiry src) s = .next (s.on fun c =>
      { c with sec := { c.sec with locked := c.sec.locked.filter (· != src) } })) ∧
  (∀ (s : State), s.chip.sec.i2c.role ≠ 0 →
    ∃ t, exec .i2cRoleTimeout s = .next t ∧ t.otp = s.otp ∧ t.pending = s.pending ∧
      t.chip.quiet = { s.chip.quiet with sec := { s.chip.sec with i2c := { s.chip.sec.i2c with role := 0, serial := 0 } } })

/-- Provisioning, once each and before LOCK, by the maker (13 R323, 15 R380 to R382): LOCK draws the identity key pair,
from which the writer ID follows. -/
def Obligations.ProvisioningCompletes : Prop :=
  ∀ (s : State) (q : Session), s.chip.grants q 23 3 → s.otp.provisioned = false →
    (∀ t : PowerTable, s.otp.powerTable = none → tableOk t.trim = true →
      exec (.powerTable q t) s = .next { s with otp := { s.otp with powerTable := some t.trim } }) ∧
    (∀ m : BitVec 48, s.otp.mac = none → exec (.mac q m) s = .next { s with otp := { s.otp with mac := some m } }) ∧
    (∀ h : BitVec 384, s.otp.rootHash = none →
      exec (.rootHash q h) s = .next { s with otp := { s.otp with rootHash := some h } }) ∧
    (s.otp.powerTable.isSome = true → s.otp.mac.isSome = true → s.otp.rootHash.isSome = true →
      ∃ t, exec (.lock q) s = .next t ∧ t.otp = { s.otp with identity := some s.chip.fresh, provisioned := true } ∧
        t.pending = s.pending ∧ t.chip = { s.chip with
          fresh := s.chip.fresh + 1
          sec := { s.chip.sec with writer := writerOf t.otp } })

/-- Debug, the TAP, ticket keys and attestation (15 R383, R385, R386). -/
def Obligations.SecurityCommandsComplete : Prop :=
  (∀ (s : State) (q : Session), s.chip.grants q 23 3 → s.otp.debugOff = false →
    s.chip.glb.state = .maintenance ∨ s.chip.glb.state = .fault →
    ∃ t, exec (.unlock q) s = .next t ∧ t.otp = s.otp ∧ t.pending = s.pending ∧
      t.chip.quiet = { s.chip.quiet with sec := { s.chip.sec with unlocked := true, everUnlocked := true } }) ∧
  (∀ (s : State) (q : Session), s.chip.grants q 23 3 →
    exec (.disableForever q) s = .next { s with otp := { s.otp with debugOff := true } }) ∧
  (∀ (s : State) (t : TapInstr), (∀ n, t ≠ .debug n) →
    exec (.tapInstruction t) s = .next (s.on fun c => ({ c with sec := { c.sec with tap := t } }).emit (.tap t))) ∧
  (∀ (s : State) (n : Nat), s.chip.sec.unlocked = false →
    exec (.tapInstruction (.debug n)) s = .next (s.on fun c => ({ c with sec := { c.sec with tap := .bypass } }).emit (.tap .bypass))) ∧
  (∀ (s : State) (q : Session) (slot : Nat), s.chip.grants q 23 2 → slot < 4 → s.chip.logRoom = true →
    Config.onCurve (wordsBytes s.chip.sec.tktData) = true →
    exec (.ticketKeyLoad q slot) s = .next (s.on fun c =>
      { (c.askLog 2 ([BitVec.ofNat 8 slot, 1, 0, 0] ++ wordsBytes c.sec.tktData)) with sec := { c.sec with
        keys := Tab.ins c.sec.keys slot (wordsBytes c.sec.tktData), tktSlot := slot, tktResult := 0, tktBusy := true } })) ∧
  (∀ (s : State) (q : Session) (slot : Nat), s.chip.grants q 23 2 → slot < 4 → s.chip.logRoom = true →
    exec (.ticketKeyClear q slot) s = .next (s.on fun c =>
      { (c.askLog 2 ([BitVec.ofNat 8 slot, 2, 0, 0] ++ List.replicate 96 0)) with sec := { c.sec with
        keys := Tab.del c.sec.keys slot, tktSlot := slot, tktResult := 0, tktBusy := true } })) ∧
  (∀ (s : State) (q : Session), s.chip.grants q 23 1 → s.chip.sec.attBusy = false → s.otp.identity.isSome = true →
    s.chip.sec.idFail = false →
    exec (.attestationGo q) s = .next (s.on fun c => { c with sec := { c.sec with attBusy := true, attDone := false } })) ∧
  (∀ (s : State) (n : Nat), s.otp.identity = some n → s.chip.sec.attBusy = true →
    exec .attestationDone s = .next (s.on fun c => { c with sec := { c.sec with
      attBusy := false, attDone := true, report := bytesWords 68 (c.reportBody s.otp ++ be 96 (Config.ecdsaSign n (c.reportBody s.otp)).toNat) } }))

/-- A debug instruction of the TAP after UNLOCK stops by name: 15 R386 gives it no effect. -/
def Obligations.DebugTapRefusedWhenUnlocked : Prop :=
  ∀ (s : State) (n : Nat), s.chip.sec.unlocked = true → exec (.tapInstruction (.debug n)) s = .refused .debugTap

/-- The recorder's commands (16 R392 to R397, 17 Table 17-27). -/
def Obligations.RecorderCommandsComplete : Prop :=
  (∀ (s : State) (m b : Nat) (rest : List Nat), s.chip.archiveSet = some m → s.chip.evr.due = b :: rest →
    let gone := Nat.min 4096 (s.chip.evr.next - 65536 - 4096 * b)
    let begun (c : Chip) : Chip := { c with evr := { c.evr with due := rest, missed := Tab.set c.evr.missed 0 b gone } }
    (s.chip.evr.next ≤ 65536 + 4096 * b →
      exec .recorderBlockCopy s = .next (s.on fun c => ((begun c).copyBlock m b 8).reportMissed)) ∧
    (65536 + 4096 * b < s.chip.evr.next →
      exec .recorderBlockCopy s = .next (s.on fun c => (((begun c).count 0x1100084 gone).copyBlock m b 8).reportMissed))) ∧
  (∀ (s : State) (q : Session) (partner : Bool), s.chip.grants q 23 1 → s.chip.evr.archBusy = false →
    (∀ (m p : Nat) (rest : List Nat), s.chip.archiveSet = some m → (s.chip.set m).jlive = p :: rest →
      exec (.archiveRead q partner) s = .next (s.on fun c =>
        ({ c with evr := { c.evr with archHalf := b2n partner, archBusy := true } }).posCmd m p 7
          (.read (s.chip.archLba (b2n partner) + s.chip.evr.arch / 64 % 1024) 1) (.archive m rest))) ∧
    (s.chip.archiveSet = none → exec (.archiveRead q partner) s = .next (s.on fun c =>
      { c with evr := { c.evr with archHalf := b2n partner, archResult := 1 } }))) ∧
  (∀ (s : State) (ws : List (BitVec 32)), s.chip.evr.archBusy = true →
    exec (.archiveReadDone (some ws)) s = .next (s.on fun c => { c with evr := { c.evr with
      archBusy := false, archResult := 0, archWin := ws.take 16 ++ List.replicate (16 - ws.length) 0 } })) ∧
  (∀ (s : State), s.chip.evr.archBusy = true →
    exec (.archiveReadDone none) s = .next (s.on fun c => { c with evr := { c.evr with archBusy := false, archResult := 2 } })) ∧
  (∀ (s : State), s.chip.evr.isSet = true → (∀ e ∈ s.chip.evr.flood, e.2.2.1 = 0) →
    exec .floodWindowEnd s = .next (s.on fun c => { c with evr := { c.evr with flood := [] } })) ∧
  (∀ (s : State) (q : Session), s.chip.grants q 24 1 →
    exec (.alertClear q) s = .next (s.on fun c => { c with flt := { c.flt with alert := false } })) ∧
  (∀ (s : State) (q : Session) (v : BitVec 32), s.chip.grants q 23 1 →
    exec (.evrCursorWrite q v) s = .next (s.on fun c =>
      { c with evr := { c.evr with cursor := v.toNat * 2 ^ 32 + c.evr.curLow } }))

/-- Register accesses of a session that may make them (17 R409 to R418): a write that its role reaches, a latching read, a
clearing read, and the transactions of the I2C target. -/
def Obligations.RegisterAccessesComplete : Prop :=
  (∀ (s : State) (q : Session) (a : Nat) (v : BitVec 32) (cur : Nat), s.chip.sesLive q = true → s.chip.regOn a = true →
    s.chip.regValue s.otp q a = some cur → s.chip.roleStops q a v.toNat cur = false →
    exec (.registerWrite q a v) s = .next (acceptWrite q a v.toNat s).2) ∧
  (∀ (s : State) (q : Session) (a : Nat), s.chip.sesLive q = true → latchAddrs.contains a = true → s.chip.regOn a = true →
    ∃ t, exec (.latchingRead q a) s = .next t ∧ t.otp = s.otp ∧ t.pending = s.pending ∧
      Tab.find (t.chip.ses q).latch a = some (s.chip.wide a) ∧ t.chip.evr = s.chip.evr ∧ t.chip.regs = s.chip.regs ∧
      t.chip.cnts = s.chip.cnts ∧ t.chip.pgm = s.chip.pgm) ∧
  (∀ (s : State) (q : Session) (a : Nat), s.chip.sesLive q = true → s.chip.isCounter a = true → a % 4 = 0 →
    latchAddrs.contains a = false → latchOf a = none → s.chip.regOn a = true → 1 ≤ (s.chip.ses q).role →
    ∃ t, exec (.clearingRead q a) s = .next t ∧ t.otp = s.otp ∧ t.pending = s.pending ∧ t.chip.cnt a = 0 ∧
      (∀ b, b ≠ a → t.chip.cnt b = s.chip.cnt b) ∧ t.chip.regs = s.chip.regs ∧ t.chip.pgm = s.chip.pgm) ∧
  (∀ (s : State) (bytes : List Byte), s.chip.glb.aonUp = true → s.chip.pecOn = false → bytes.length = 8 →
    exec (.i2cWrite bytes none) s = .next (writeReg .i2c (fieldBe bytes 0 4) (leField bytes 4 4) s).2) ∧
  (∀ (s : State) (addr : List Byte) (w : BitVec 32) (u : Chip), s.chip.glb.aonUp = true → s.chip.pecOn = false →
    addr.length = 4 → s.chip.readReg s.otp .i2c (fieldBe addr 0 4) = (some w, u) →
    exec (.i2cRead addr 1) s = .next { s with chip := u.emit (.i2c (wordBytes w)) }) ∧
  (∀ s : State, exec .i2cTimeout s = .next s)

/-- The staging commands of a session that may stage (14 R370, R371): BEGIN erases the inactive slot and marks it WRITING,
WRITE programs the window, COMMIT marks it COMPLETE, ABORT WITHDRAWN, and none changes a byte of the store elsewhere. -/
def Obligations.StagingCommandsComplete : Prop :=
  ∀ (s : State) (q : Session), s.chip.grants q 23 2 → s.chip.mayStage q = true → s.chip.cfg.busy = false →
    let i := s.chip.inactive
    let byte (t : State) (a : Nat) : Byte := Memory.read 0xFF t.chip.cfg.flash a
    (∃ t, exec (.stageBegin q) s = .next t ∧ t.otp = s.otp ∧ t.chip.cfg.owner = some q ∧ t.chip.cfg.cmd = 1 ∧ t.chip.cfg.busy = true ∧
      byte t (slotBase i) = 0x7F ∧ (∀ k, k < 4 → byte t (slotBase i + 4 + k) = (le 4 s.chip.cfg.ofs).getD k 0) ∧
      (∀ a, slotBase i + 8 ≤ a → a < slotBase i + 0x410000 → byte t a = 0xFF) ∧
      (∀ a, a < slotBase i ∨ slotBase i + 0x410000 ≤ a → byte t a = byte s a)) ∧
    (s.chip.cfg.owner = some q → s.chip.slotState i = 1 → s.chip.cfg.ofs % 256 = 0 → s.chip.cfg.ofs = s.chip.cfg.nextOfs →
      s.chip.cfg.ofs < 4194304 → s.chip.cfg.window.length = 64 →
      ∃ t, exec (.stageWrite q) s = .next t ∧ t.otp = s.otp ∧ t.chip.cfg.cmd = 2 ∧ t.chip.cfg.busy = true ∧
        t.chip.cfg.nextOfs = s.chip.cfg.ofs + 256 ∧
        Memory.readN 0xFF t.chip.cfg.flash (imageBase i + s.chip.cfg.ofs) 256 = wordsBytes s.chip.cfg.window ∧
        (∀ a, a < imageBase i + s.chip.cfg.ofs ∨ imageBase i + s.chip.cfg.ofs + 256 ≤ a → byte t a = byte s a)) ∧
    (s.chip.cfg.owner = some q → s.chip.slotState i = 1 → s.chip.imageFails s.otp i s.chip.cfg.nextOfs = none →
      s.chip.activeGen < s.chip.slotField i 4 →
      ∃ t, exec (.stageCommit q) s = .next t ∧ t.otp = s.otp ∧ t.chip.cfg.cmd = 3 ∧ t.chip.cfg.busy = true ∧ byte t (slotBase i) = 0x3F ∧
        (∀ a, a ≠ slotBase i → (a < slotBase i + 8 ∨ slotBase i + 16 ≤ a) → byte t a = byte s a)) ∧
    (∃ t, exec (.stageAbort q) s = .next t ∧ t.otp = s.otp ∧ t.chip.cfg.cmd = 4 ∧ t.chip.cfg.busy = true ∧ byte t (slotBase i) = 0x1F ∧
      (∀ a, a ≠ slotBase i → byte t a = byte s a))

/-- Comets, urgency and stealing (06 R146 to R151): the oldest message that may start does, freed cells go to the first
waiting message that they satisfy, and an arbiter moves the oldest stealable message to the comet that it grants. -/
def Obligations.CometCommandsComplete : Prop :=
  (∀ (s : State) (n c : Nat) (m : Msg) (k : Conn), s.chip.cometOk n = true →
    (let held := (s.chip.readyAt n).find? fun x => x.2.stalls.contains atStart && !s.chip.stillWaits x.1 x.2
     held = some (c, m) ∨ (held = none ∧ s.chip.contexts n < 16 ∧ s.chip.recordsWaiting n = [] ∧ s.chip.urgentNear n = [] ∧
       (s.chip.queuedAt n).head? = some (c, m))) →
    m.op = 0x02 → s.chip.offline (s.chip.region m.region) = none → m.probed = true ∨ s.chip.late m = false → m.needCells = [] →
    s.chip.conn c = some k →
    exec (.messageStart n) s = .next (s.on fun t =>
      let u := t.modMsg c m.first fun x => { x with probed := true }
      (({ u with bpm := { u.bpm with waiting := u.bpm.waiting.filter (· != (c, m.first)) } }).modMsg c m.first
        fun x => { x with egress := m.egress, needCells := [] }).startNow c m)) ∧
  (∀ (s : State) (c : Nat) (m : Msg) (k : Conn) (hs : List Handle) (t : Chip), s.chip.firstServed s.chip.bpm.waiting = some (c, m) →
    s.chip.conn c = some k → s.chip.reserve k.group m = some (hs, t) → m.parked = false →
    exec .egressReservationRetry s = .next (s.on fun _ =>
      (({ t with bpm := { t.bpm with waiting := t.bpm.waiting.filter (· != (c, m.first)) } }).modMsg c m.first
        fun x => { x with egress := hs, needCells := [] }).modMsg c m.first fun x => { x with parked := false })) ∧
  (∀ (s : State) (n : Nat), s.chip.thief n = true → s.chip.cmt.stealing.contains n = false →
    exec (.stealRequest n) s = .next (s.on fun t => { t with cmt := { t.cmt with stealing := t.cmt.stealing ++ [n] } }) ∧
    exec (.stealRetry n) s = .next (s.on fun t => { t with cmt := { t.cmt with stealing := t.cmt.stealing ++ [n] } })) ∧
  (∀ (s : State) (level : StealLevel) (a n c : Nat) (m : Msg), s.chip.levelOn level = true →
    (((s.chip.arbiterComets level a).filter (s.chip.arbiterPtr level a ≤ ·) ++
      (s.chip.arbiterComets level a).filter (· < s.chip.arbiterPtr level a)).find? (s.chip.mayGrant level)) = some n →
    s.chip.prey level n = some (c, m) →
    exec (.stealGrant level a) s = .next (s.on fun t =>
      ((({ t with cmt := { t.cmt with stealing := t.cmt.stealing.filter (· != n) } }).modMsg c m.first
        fun x => { x with comet := n }).movePtr level a n).count (0x400010 + 0x400 * n + 4 * levelCode level))) ∧
  (∀ (s : State) (c : Nat) (psn : BitVec 32) (m : Msg), s.chip.msg c psn.toNat = some m → m.ready.isSome = true →
    m.started = false →
    exec (.urgencyAgeExpiry c psn) s = .next (s.on fun t => t.modMsg c psn.toNat fun x => { x with urgent := true })) ∧
  (∀ (s : State) (n c : Nat) (m : Msg) (rest : List (Nat × Msg)), s.chip.cometOk n = true → s.chip.contexts n < 16 →
    s.chip.recordsWaiting n = [] → s.chip.urgentNear n = (c, m) :: rest →
    exec (.urgentTake n) s = .next (s.on fun t =>
      let u := (t.modMsg c m.first fun x => { x with comet := n }).movePtr .block (n / 16) n
      (if m.comet = n then u else u.count (0x400004 + 0x400 * n)).startStage c { m with comet := n })) ∧
  (∀ (s : State) (u : FencedUnit), s.chip.cmt.rehome.contains u = true → (s.chip.heirs u).isEmpty = false →
    exec (.rehome u) s = .next (s.on fun t =>
      ({ t with cmt := { t.cmt with rehome := t.cmt.rehome.filter (· != u) } }).rehomeAll (unitComets u) (s.chip.heirs u)))

/-- A fenced comet or block (06 R152, R153, 16 R400): out of service and waiting to be re-homed, the block's domain gated,
and nothing else changed but the records, while the block or the silicon region has another comet or block left. -/
def Obligations.FencesContain : Prop :=
  (∀ (s : State) (n cause other : Nat), s.chip.cometOk n = true → other / 16 = n / 16 → other ≠ n → s.chip.cometOk other = true →
    ∀ c ∈ [Instr.cometFence n cause, Instr.cometContextStall n], ∃ t, exec c s = .next t ∧ t.otp = s.otp ∧ t.pending = s.pending ∧
      t.chip.quiet = { s.chip.quiet with cmt := { s.chip.cmt with
        fenced := n :: s.chip.cmt.fenced, stealing := s.chip.cmt.stealing.filter (· != n),
        rehome := s.chip.cmt.rehome ++ [FencedUnit.comet n] } }) ∧
  (∀ (s : State) (b cause other : Nat), bit s.chip.cmt.fencedBlocks b = false → bit s.chip.cmt.fencedRegions (b / 4) = false →
    b < s.chip.nBlocks → other / 4 = b / 4 → other ≠ b → bit s.chip.cmt.fencedBlocks other = false →
    ∀ c ∈ [Instr.blockFence b cause, Instr.blockHeartbeatLoss b], ∃ t, exec c s = .next t ∧ t.otp = s.otp ∧ t.pending = s.pending ∧
      t.chip.quiet = { s.chip.quiet with
        cmt := { s.chip.cmt with
          fencedBlocks := setBit s.chip.cmt.fencedBlocks b true
          rehome := (s.chip.cmt.rehome.filter fun (u : FencedUnit) => match u with
            | .comet n => n / 16 != b
            | .block _ => true) ++ [FencedUnit.block b] }
        pws := { s.chip.pws with gated := setBit s.chip.pws.gated b true } })

/-- A silicon region's fence outside Eclipse, a chip agent's fault and the watchdog's expiry put the unit in FAULT
(16 R402, R403): the host ports stop, the fence line is asserted, D0 to D15 and D20 are gated. -/
def Obligations.FaultsStopTheUnit : Prop :=
  ∀ s : State, s.chip.glb.state ≠ .fault →
    (∀ r cause : Nat, bit s.chip.cmt.fencedRegions r = false → r < s.chip.nRegions → s.chip.glb.sl4804 = true →
      ∀ c ∈ [Instr.regionFence r cause, Instr.regionHeartbeatLoss r], ∃ t, exec c s = .next t ∧ t.otp = s.otp ∧
        t.pending = s.pending ∧ t.chip.quiet = (s.chip.inFault 3).quiet) ∧
    (∀ r cause : Nat, bit s.chip.cmt.fencedRegions r = false → r < s.chip.nRegions → s.chip.glb.state ≠ .eclipse →
      s.chip.glb.sl4804 = false → ∀ c ∈ [Instr.regionFence r cause, Instr.regionHeartbeatLoss r], ∃ t, exec c s = .next t ∧ t.otp = s.otp ∧
        t.pending = s.pending ∧ bit t.chip.cmt.fencedRegions r = true ∧ t.chip.glb.state = .fault ∧ t.chip.flt.cause = 2 ∧
        t.chip.flt.faulted = true ∧ t.chip.hpx.stopped = true ∧ t.chip.syz.fenceOut = true ∧
        (∀ d, d < 16 ∨ d = 20 → bit t.chip.pws.gated d = true) ∧ t.chip.pgm = s.chip.pgm ∧ t.chip.str = s.chip.str ∧
        t.chip.rgn = s.chip.rgn ∧ t.chip.lcc = s.chip.lcc) ∧
    (∀ a : ChipAgent, ∃ t, exec (.chipAgentFault a) s = .next t ∧ t.otp = s.otp ∧ t.pending = s.pending ∧
      t.chip.quiet = (s.chip.inFault 3).quiet) ∧
    (∀ w : WdtCause, ∃ t, exec (.watchdogExpiry w) s = .next t ∧ t.otp = s.otp ∧ t.pending = s.pending ∧
      t.chip.quiet = { (s.chip.inFault 1).quiet with flt := { (s.chip.inFault 1).quiet.flt with wdt := true } })

/-- The chain operations of an agent that keeps the rules of R164 (06 R157, R162, R163): the last owner of a shared chain
is not its owner, and stays who it is when the owner HANDs the chain. After a FREE or a RELEASE the journal sends what the
cells and the credit now allow by `syzFreed` (12 R298), and packets that wait for host-egress cells are built (06 Table 6-3). -/
def Obligations.ChainOperationsComplete : Prop :=
  (∀ (s : State) (ag : Agent) (pool group n c : Nat) (rest : List Nat), pool < 4 → n ≠ 0 →
    s.chip.allocFits pool (if pool < 2 then some group else none) (agentComet ag) n = true →
    freeCells s.chip.bpm.cells (s.chip.bpm.sizes.getD pool 0) (s.chip.bpm.base pool) n = c :: rest →
    exec (.allocate ag pool group n) s = .next (s.on fun t =>
      { t with bpm := { t.bpm with
        gens := Tab.set t.bpm.gens 0 c ((Tab.get t.bpm.gens 0 c + 1) % 256)
        cells := markCells t.bpm.cells true (c :: rest)
        chains := Tab.ins t.bpm.chains c
          { gen := (Tab.get t.bpm.gens 0 c + 1) % 256, pool := pool, cells := c :: rest, owner := ag, sharers := [],
            last := none, rel := 0, deferred := false, group := (if pool < 2 then some group else none),
            comet := agentComet ag } } })) ∧
  (∀ (s : State) (ag : Agent) (h : Handle) (ch : Chain), s.chip.fresh? h = true → s.chip.chain h = some ch → ch.ownedBy ag = true →
    (∀ n : Nat, s.chip.allocFits ch.pool ch.group ch.comet n = true →
      exec (.append ag h n) s = .next (s.on fun t =>
        let cells := freeCells t.bpm.cells (t.bpm.sizes.getD ch.pool 0) (t.bpm.base ch.pool) n
        { t with bpm := { t.bpm with
          cells := markCells t.bpm.cells true cells
          chains := Tab.ins t.bpm.chains h.head { ch with cells := ch.cells ++ cells } } })) ∧
    (∀ heir : Agent, exec (.hand ag h heir) s = .next (s.on fun t =>
      { t with bpm := { t.bpm with
        chains := Tab.ins t.bpm.chains h.head { ch with owner := heir } } })) ∧
    (∀ (sharers : List Agent) (last : Agent), sharers.length ≤ 4 →
      exec (.share ag h sharers last) s = .next (s.on fun t =>
        { t with bpm := { t.bpm with
        chains := Tab.ins t.bpm.chains h.head
            { ch with sharers := sharers, last := some last, rel := sharers.length - 1 } } })) ∧
    (Tab.get s.chip.bpm.cells false h.head = true → walk s.chip.bpm.cells ch.cells = ch.cells → ch.sharers = [] →
      exec (.free ag h) s = .next (s.on fun t =>
        (t.syzFreed { t with bpm := { t.bpm with
          cells := markCells t.bpm.cells false ch.cells
          chains := Tab.del t.bpm.chains h.head } }).pumpOwed))) ∧
  (∀ (s : State) (ag : Agent) (h : Handle) (ch : Chain), s.chip.fresh? h = true → s.chip.chain h = some ch →
    ch.sharers.contains ag = true → ch.last ≠ some ag → ch.deferred = false →
    exec (.release ag h) s = .next (s.on fun t =>
      (t.syzFreed { t with bpm := { t.bpm with
        chains := Tab.ins t.bpm.chains h.head
          { ch with sharers := ch.sharers.filter (· != ag), rel := ch.rel - 1 } } }).pumpOwed))

/-- The edit window's claim, the end of a check interval, READ and a code that Table 5-4 does not define (05 R130, R131,
R137, Table 5-5). -/
def Obligations.EditWindowCommandsComplete : Prop :=
  (∀ (s : State), s.chip.grants .i2c 23 2 → s.chip.rgn.path = 0 →
    exec (.editClaim .i2c) s = .next (s.on fun t => { t with rgn := { t.rgn with path := 1, conn := 0 } })) ∧
  (∀ (s : State) (c : Nat), s.chip.grants (.mgmt c) 23 2 → s.chip.rgn.path = 0 →
    exec (.editClaim (.mgmt c)) s = .next (s.on fun t => { t with rgn := { t.rgn with path := 2, conn := c } })) ∧
  (∀ (s : State) (q : Session), s.chip.grants q 23 2 → s.chip.ownsEdit q = true →
    exec (.editRelease q) s = .next (s.on fun t => { t with rgn := { t.rgn with path := 0, conn := 0 } })) ∧
  (∀ (s : State), exec .editClaimTimeout s = .next (s.on fun t => { t with rgn := { t.rgn with path := 0, conn := 0 } })) ∧
  (∀ (s : State) (q : Session) (idx : Nat), s.chip.grants q 23 2 → s.chip.ownsEdit q = true → s.chip.rgn.busy = false →
    s.chip.glb.state = .active → idx < 65536 →
    ∃ t, exec (.rgnRead q idx) s = .next t ∧ t.otp = s.otp ∧ t.pending = s.pending ∧
      t.chip.quiet = { s.chip.quiet with rgn := { s.chip.rgn with
        cmd := idx * 65536 + 1, data := bytesWords 12 (s.chip.region idx).bytes, result := 0, key := 0, finish := none } }) ∧
  (∀ (s : State) (q : Session) (idx code : Nat), s.chip.grants q 23 2 → s.chip.ownsEdit q = true → s.chip.rgn.busy = false →
    idx < 65536 → 5 < code → code < 16 →
    ∃ t, exec (.refusedCommand q idx code) s = .next t ∧ t.otp = s.otp ∧ t.pending = s.pending ∧
      t.chip.quiet = { s.chip.quiet with rgn := { s.chip.rgn with
        cmd := idx * 65536 + code, result := 5, key := 0, finish := none } }) ∧
  (∀ (s : State), exec .checkEventIntervalEnd s = .next (s.on fun t =>
    { t with xpt := { t.xpt with conns := t.xpt.conns.map fun e => (e.1, { e.2 with causes := 0 }) },
             rgn := { t.rgn with second := t.rgn.second + 1 } }))

/-- The edits of an entry that the owner may make (05 R120, R131, R132, Table 5-4): CREATE and MODIFY commit the clamped
entry, ROTATE the entry with the next generation, REMOVE the freed entry with the next generation. -/
def Obligations.EditsCommit : Prop :=
  ∀ (s : State) (q : Session) (idx : Nat), s.chip.grants q 23 2 → s.chip.ownsEdit q = true → s.chip.rgn.busy = false →
    s.chip.glb.state = .active → s.chip.logRoom = true → idx < 65536 →
    let e := s.chip.region idx
    let with_ (code : Nat) (t : Chip) : Chip := { t with rgn := { t.rgn with cmd := idx * 65536 + code } }
    (e.live = false → exec (.rgnCreate q idx) s = .next (s.on fun t => (with_ 2 t).commitClamped idx 2 true)) ∧
    (e.live = true → exec (.rgnModify q idx) s = .next (s.on fun t => (with_ 3 t).commitClamped idx 3 false)) ∧
    (e.live = true → exec (.rgnRotate q idx) s = .next (s.on fun t =>
      (with_ 4 t).commitEdit idx 4 { e with gen := nextGen e.gen } false (keyOf idx (nextGen e.gen)))) ∧
    (e.live = true → exec (.rgnRemove q idx) s = .next (s.on fun t =>
      (with_ 5 t).commitEdit idx 5 { e with live := false, gen := nextGen e.gen } false 0))

/-- A line operation that its bank may accept is accepted there, the oldest first, and an atomic unit's result takes effect
on its line (01 R21, 02 R32, 04 R112 to R116, 06 R139). -/
def Obligations.LineOperationsComplete : Prop :=
  (∀ (s : State) (b : Nat) (r : LineReq) (m : Msg), b < s.chip.nBanks → s.chip.msg r.conn r.psn.toNat = some m →
    s.chip.mayIssue r.conn m r.idx = true → s.chip.bankOf (m.line r.idx) = b →
    s.chip.lineHeld b (m.line r.idx) r.conn r.psn.toNat = false → (s.chip.bank b).queue = [] →
    let taken (t : Chip) : Chip :=
      (t.modMsg r.conn r.psn.toNat fun x => { x with parked := false }).translate (t.server b / 16) (pageOfLine (m.line r.idx))
    let found (t : Chip) : Chip × Option Nat := (taken t).arrayError b (m.line r.idx) r.arr
    let granted (t : Chip) : Chip := if t.sentOp r.conn r.psn.toNat r.idx then t.movePort (some m) else t
    let relocked (t : Chip) : Chip := (found t).1.relockLine b (m.line r.idx) (found t).2
    let use := (taken s.chip).arrays b
    ((taken s.chip).underRepair b m r.idx = true →
      exec (.lineOperationAccepted b [r]) s = .next (s.on fun t => granted ((taken t).parkNow r.conn r.psn.toNat))) ∧
    ((taken s.chip).underRepair b m r.idx = false →
      (m.op = 0x01 → exec (.lineOperationAccepted b [r]) s =
        .next (s.on fun t => granted ((relocked t).acceptWrite r.conn m b r.idx r.errs use))) ∧
      (m.op = 0x02 → exec (.lineOperationAccepted b [r]) s = .next (s.on fun t =>
        let u := (found t).1.acceptRead r.conn m b r.idx (found t).2 false use
        granted (if u.sentOp r.conn m.first r.idx then u else u.relockLine b (m.line r.idx) (found t).2))) ∧
      (m.op = 0x04 ∨ m.op = 0x05 → exec (.lineOperationAccepted b [r]) s =
        .next (s.on fun t => granted ((relocked t).acceptAtomic r.conn m b use))))) ∧
  (∀ (s : State) (b line c first : Nat) (use : Bool) (m : Msg) (errs : List (Nat × Byte)),
    ((s.chip.bank b).atomic.find? fun (a : Nat × Nat × Nat × Bool) => a.1 == line) = some (line, c, first, use) →
    s.chip.msg c first = some m → (s.chip.page (pageOfLine line)).resident = true → s.chip.inThrottle line = false →
    s.chip.halted line = false → (s.chip.bank b).readLeft line = true →
    let read (t : Chip) : Burst × Chip := (t.readBack line).readBurst line errs
    let slip (t : Chip) : List Byte := (t.readBack line).slip line errs
    let ends (t : Chip) : Chip := (t.afterAtomic (pageOfLine line)).serveQueue b
    ((read s.chip).1 = .good ∨ (read s.chip).1 = .corrected →
      exec (.atomicUnitResult b line errs) s = .next (s.on fun t => ends ((read t).2.atomicTakes c m b use (slip t)))) ∧
    ((read s.chip).1 = .uncorrectable → s.chip.repairRoom b line = true → exec (.atomicUnitResult b line errs) s = .next (s.on fun t =>
      ends (((((read t).2.modBank b fun k => { k with atomic := k.atomic.filter (·.1 != line) }).modMsg c first
        fun m => { m with busy := 0 }).startRepair b line).parkNow c first))))

/-- The cache's maintenance operations, its enable and its locked ways (07 R175 to R185, Tables 7-1, 17-10). -/
def Obligations.CacheCommandsComplete : Prop :=
  (∀ (s : State) (q : Session) (m : MaintReq), s.chip.grants q 23 2 → s.chip.lcc.busy = false →
    let u := s.chip.maintGiven m
    let start (op : Nat) (t : Chip) : Chip := { t with lcc := { t.lcc with
      word0 := maintWord0 m, word1 := maintWord1 op m, op := op, busy := true, result := 0,
      req := (maintInRange m), todo := if op == 4 then some (m.base, (maintInRange m).len) else none } }
    let mark (t : Chip) : Chip := (u.cleanBanks m).foldl (fun t b => t.modBank b fun k => { k with marks := k.writes }) t
    let refused (op : Nat) (t : Chip) : Chip :=
      { t with lcc := { t.lcc with word0 := maintWord0 m, word1 := maintWord1 op m, result := 2 } }
    (u.maintRefused 1 m = false → exec (.clean q m) s = .next (s.on fun t => mark (start 1 (t.maintGiven m)))) ∧
    (u.maintRefused 2 m = false → exec (.invalidate q m) s = .next (s.on fun t => start 2 (t.maintGiven m))) ∧
    (u.maintRefused 3 m = false → exec (.cleanInvalidate q m) s = .next (s.on fun t => mark (start 3 (t.maintGiven m)))) ∧
    (u.maintRefused 4 m = false → exec (.preload q m) s = .next (s.on fun t => (start 4 (t.maintGiven m)).preload)) ∧
    (u.maintRefused 1 m = true → exec (.clean q m) s = .next (s.on fun t => refused 1 (t.maintGiven m))) ∧
    (u.maintRefused 2 m = true → exec (.invalidate q m) s = .next (s.on fun t => refused 2 (t.maintGiven m))) ∧
    (u.maintRefused 3 m = true → exec (.cleanInvalidate q m) s = .next (s.on fun t => refused 3 (t.maintGiven m))) ∧
    (u.maintRefused 4 m = true → exec (.preload q m) s = .next (s.on fun t => refused 4 (t.maintGiven m)))) ∧
  (∀ (s : State) (arr : List (Nat × Nat)) (errs : List (Nat × List (Nat × Byte))), s.chip.lcc.busy = true →
    (s.chip.lcc.banks.all fun e => e.2.marks == 0) = true →
    let u := arr.foldl (fun t e => t.walkError e.1 e.2) s.chip
    let v := u.maintInvalidate u.lcc.req
    let done (c : Bool) (t : Chip) : Chip := { t with lcc := { t.lcc with
      busy := false, op := 0, cleared := t.lcc.cleared || c, staleRisk := t.lcc.staleRisk && !(c && u.par 0x6E0000 % 2 == 1) } }
    (u.lcc.op = 1 → u.lcc.todo = none → exec (.maintenanceComplete arr []) s = .next { s with chip := done false u }) ∧
    (u.lcc.op = 2 ∨ u.lcc.op = 3 → v.lcc.todo = none →
      exec (.maintenanceComplete arr errs) s = .next { s with chip := done (maintFull u.lcc.req) v })) ∧
  (∀ (s : State) (q : Session) (en : Bool), s.chip.grants q 23 2 → s.chip.par 0x6E0000 % 2 = (if en then 0 else 1) →
    s.chip.lcc.cleared = true →
    exec (.cacheEnableWrite q en) s = .next (s.on fun t =>
      let u := t.setPar 0x6E0000 (setBit (t.par 0x6E0000) 0 en)
      if en then u
      else
        let v := (u.lcc.banks.map (·.1)).foldl (fun w b => w.cancelFill b fun _ => true) u
        { v with lcc := { v.lcc with cleared := false, enAck := true } })) ∧
  (∀ (s : State) (q : Session) (n : Nat), s.chip.grants q 23 2 → n ≤ 8 →
    exec (.lockWaysWrite q n) s = .next (s.on fun t => t.setLockWays n)) ∧
  (∀ (s : State) (b : Nat) (errs : List (Nat × Byte)) (x : Miss), (s.chip.bank b).miss = some x →
    s.chip.inThrottle x.line = false → s.chip.halted x.line = false → (s.chip.bank b).readLeft x.line = true →
    ((s.chip.readBack x.line).readBurst x.line errs).1 = .good ∨ ((s.chip.readBack x.line).readBurst x.line errs).1 = .corrected →
    exec (.cacheFillReturn b errs) s = .next (s.on fun t =>
      ((t.readBack x.line).readBurst x.line errs).2.fillGood b x ((t.readBack x.line).slip x.line errs) (t.bank b).waits)) ∧
  (∀ (s : State) (b line : Nat) (tag : Src) (narrow : Bool) (rest : List OutEntry),
    (s.chip.bank b).wtb = .write line tag narrow :: rest → s.chip.classFull line 3 = false →
    exec (.writeThroughDrain b) s = .next (s.on fun t =>
      (Chip.flushReads rest.length ((t.modBank b fun k => { k with wtb := rest, marks := k.marks - 1 }).drainWrite line tag narrow) b).serveQueue b))

/-- Pages of the DRAM tier (08 R194, R196, R199 to R205, 09 R249, R253): a fetch ends once no sector waits for the twin and its
page's chunk is in no repair, and the rows that it found past solving are treated; an evicted frame is released, a pinned one
kept; a COLD page whose hold has passed is evicted. -/
def Obligations.PageCommandsComplete : Prop :=
  (∀ (s : State) (p time : Nat) (bad fixed : List Nat) (errs : List (Nat × List (Nat × Byte))), (s.chip.page p).st = .fetching →
    (s.chip.page p).issued.isSome = true →
    let leaf := s.chip.leaf p
    let held (i : Nat) : Bool := leaf.kind != 0 && !(leaf.kind == 2 && bit leaf.lost i)
    let unread := (List.range 16).filter fun i => held i && bad.contains i
    let mended := (List.range 16).filter fun i => held i && fixed.contains i && !bad.contains i
    let asked (t : Chip) : Chip := t.askSectors (unread.map fun i => (p, i))
    let waits (t : Chip) : Bool := unread.any fun i => t.askWaits (sectorAddr p i) 4096
    let rows := s.chip.fetchRows p bad
    let others := (rows.flatMap (s.chip.rowAsks leaf.set)).filter fun x => x.1 != p
    let all := (s.chip.askSectors others)
    (rows = [] → waits (asked s.chip) = true → exec (.fetchComplete p bad fixed time errs) s = .next (s.on asked)) ∧
    (rows = [] → waits (asked s.chip) = false → mended ≠ [] → (asked s.chip).inRepair p = true →
      exec (.fetchComplete p bad fixed time errs) s = .next (s.on fun t =>
        { asked t with str := { (asked t).str with reuse := ((asked t).str.reuse ++ [p]).eraseDups } })) ∧
    (rows = [] → waits (asked s.chip) = false → mended = [] ∨ (asked s.chip).inRepair p = false →
      exec (.fetchComplete p bad fixed time errs) s = .next (s.on fun t =>
        (((asked t).learn p).mendSectors p mended).finishFetch p unread time errs)) ∧
    (rows ≠ [] → (others.any fun x => all.askWaits (sectorAddr x.1 x.2) 4096) = true →
      exec (.fetchComplete p bad fixed time errs) s = .next { s with chip := all }) ∧
    (rows ≠ [] → (others.any fun x => all.askWaits (sectorAddr x.1 x.2) 4096) = false →
      let ended := fetchCompleteEffect p bad fixed time errs all
      ((ended.page p).st = .fetching → exec (.fetchComplete p bad fixed time errs) s = .next { s with chip := ended }) ∧
      ((ended.page p).st ≠ .fetching → exec (.fetchComplete p bad fixed time errs) s =
        .next { s with chip := ended.treatRows leaf.set (some p) rows id }))) ∧
  (∀ (s : State) (p : Nat), (s.chip.page p).st = .evicting →
    (s.chip.pinnedPage p = false →
      exec (.evictionConfirmed p) s = .next (s.on fun t => ((t.releaseFrame p).issueFetches).evict)) ∧
    (s.chip.pinnedPage p = true →
      exec (.evictionConfirmed p) s = .next (s.on fun t => t.setPage p { t.page p with st := .clean }))) ∧
  (∀ (s : State) (p : Nat), (s.chip.page p).st = .clean → s.chip.classOf p = 2 → (s.chip.page p).pinned = false →
    (s.chip.atomicOn p = false → exec (.coldHoldExpiry p) s = .next (s.on fun t => t.setPage p { t.page p with st := .evicting })) ∧
    (s.chip.atomicOn p = true → exec (.coldHoldExpiry p) s = .next s))

/-- A line repair that does not wait for the twin ends (11 R282 to R284, Table 11-2): its line is written back from the
source of the lowest order that can serve, or poisoned where none can. -/
def Obligations.RepairsComplete : Prop :=
  ∀ (s : State) (line : Nat) (r : Repair) (stored : Bool),
    ((s.chip.bank (s.chip.bankOf line)).repairs.find? fun x => x.line == line) = some r →
    (s.chip.page (pageOfLine line)).resident = true →
    let own := if r.tried then none else s.chip.ownSource line r.first stored
    let done (t : Chip) : Chip := (t.endRepair line).dropAsk (line * 64) 64
    let mends (k : Nat) (bytes : List Byte) : Prop := exec (.repairEnd line stored) s = .next (s.on fun t =>
      ((((done t).repairCount line k).writeLine line bytes (2 ^ 64 - 1)).writeBack line).serveQueue (t.bankOf line))
    (∀ (k : Nat) (bytes : List Byte), own = some (k, bytes) → mends k bytes) ∧
    (own = none → s.chip.askWaits (line * 64) 64 = false →
      ((s.chip.asked (line * 64) 64).isNone = true → s.chip.twinAsked line = true →
        exec (.repairEnd line stored) s = .next (s.on fun t => (t.modBank (t.bankOf line) fun k =>
          { k with repairs := k.repairs.map fun x => if x.line == line then { x with tried := true } else x }).askTwin (line * 64) 64)) ∧
      ((s.chip.asked (line * 64) 64).isSome = true ∨ s.chip.twinAsked line = false →
        (∀ (k : Nat) (bytes : List Byte), s.chip.twinSource line stored = some (k, bytes) → mends k bytes) ∧
        (s.chip.twinSource line stored = none → exec (.repairEnd line stored) s = .next (s.on fun t =>
          (((done t).repairCount line 5).poisonLine line).serveQueue (t.bankOf line)))))

/-- Destaging and map loading (08 R210, R212 to R215, 09 R236, R238, R242): the destager's choice where the set may be
written, a stripe written, sealed or abandoned, a checkpoint in force, a node loaded. -/
def Obligations.DestageCommandsComplete : Prop :=
  (∀ (s : State) (i p : Nat) (errs : List (Nat × List (Nat × Byte))), s.chip.setWrites i = true → s.chip.mayDestage i = true →
    (s.chip.set i).journalFull = false → s.chip.destageOrder.find? (s.chip.takeable i) = some p →
    let read (t : Chip) : Bool × Chip := t.destageRead p errs
    let taken (t : Chip) : Chip := (read t).2.takePage i p errs
    let n := (((taken s.chip).set i).opened.map fun x => x.cols.length).getD 0
    ((read s.chip).1 = true → exec (.destageChoose i errs) s = .next (s.on fun t => (read t).2)) ∧
    ((read s.chip).1 = false → (s.chip.set i).colsNow ≤ n →
      exec (.destageChoose i errs) s = .next (s.on fun t => (taken t).writeOpen i)) ∧
    ((read s.chip).1 = false → n < (s.chip.set i).colsNow → s.chip.destageOrder.any ((taken s.chip).takeable i) = true →
      exec (.destageChoose i errs) s = .next (s.on taken)) ∧
    ((read s.chip).1 = false → n < (s.chip.set i).colsNow → s.chip.destageOrder.any ((taken s.chip).takeable i) = false →
      exec (.destageChoose i errs) s = .next (s.on fun t => (taken t).closeStripe i))) ∧
  (∀ (s : State) (i : Nat) (x : Stripe), (s.chip.set i).opened = some x → x.cols ≠ [] → s.chip.setWrites i = true →
    s.chip.mayDestage i = true → (s.chip.set i).journalFull = false →
    exec (.stripeWaitExpiry i) s = .next (s.on fun t => t.tryLaunch i (t.writeClass t.pgm.urgent) x)) ∧
  (∀ (s : State) (i : Nat) (x : Stripe),
    ((s.chip.set i).writing.find? fun y => y.pend.isEmpty && !y.failed && s.chip.committed i y) = some x →
    exec (.stripeSealed i) s = .next (s.on fun t => t.sealStripe i x)) ∧
  (∀ (s : State) (i : Nat) (x : Stripe) (rest : List Stripe), (s.chip.set i).writing = x :: rest → x.failed = true →
    exec (.stripeWriteAbandoned i) s = .next (s.on fun t => t.abandonStripe i x)) ∧
  (∀ (s : State) (c m : Nat) (r : JRec), s.chip.str.ckptRun = some c → s.chip.str.ckptRec = true → s.chip.mapSet = some m →
    ((s.chip.set m).jrecs.filter (·.type == 3)).getLast? = some r → s.chip.recordDone m r.seq = true →
    exec .checkpointWritten s = .next (s.on fun t => t.checkpointDone c)) ∧
  (∀ (s : State) (level idx : Nat) (tries : List NodeWords), level < 3 →
    s.chip.pgm.mapReads.contains (nodeKey level idx) = true →
    (∀ ws, (tries.find? fun ws => ws.all fun e => wordGood e.2) = some ws →
      exec (.mapNodeLoaded level idx tries) s = .next (s.on fun t => (t.takeWords level idx ws).tookNode level idx)) ∧
    ((tries.find? fun ws => ws.all fun e => wordGood e.2) = none →
      exec (.mapNodeLoaded level idx tries) s = .next (s.on fun t => (t.loseNode level idx).tookNode level idx))) ∧
  (∀ (s : State) (idx m : Nat) (tries : List NodeWords), s.chip.mapSet = some m → s.chip.setUp m = true →
    exec (.mapNodeLoaded 3 idx tries) s = .next (s.on fun t =>
      ({ t with pgm := { t.pgm with root := true } }.loadMap).issueFetches))

/-- Drive ports (09 R221 to R231): presence, links and errors, readiness, command ends and time limits, and what each
leaves of the port. -/
def Obligations.DriveCommandsComplete : Prop :=
  (∀ (s : State) (d : Nat), s.chip.portUsed d = true → (s.chip.drive d).present = false →
    exec (.drivePresenceChange d true) s = .next (s.on fun t => t.modDrive d fun k =>
      { Drive.blank with pin := true, present := true, perst := t.perstHeld d, shut := k.shut })) ∧
  (∀ (s : State) (d : Nat), s.chip.portUsed d = true → (s.chip.drive d).present = true →
    exec (.drivePresenceChange d false) s = .next (s.on fun t =>
      ((t.modDrive d fun k => { k with pin := false }).loseDrive d).modDrive d fun k =>
        { Drive.blank with pin := k.pin, perst := k.perst, shut := k.shut })) ∧
  (∀ (s : State) (d : Nat) (pin : Bool), d < s.chip.nDrives → s.chip.portUsed d = false → (s.chip.drive d).present = false →
    exec (.drivePresenceChange d pin) s = .next (s.on fun t => t.modDrive d fun k => { k with pin := pin })) ∧
  (∀ (s : State), exec .perstDelayExpiry s = .next (s.on fun t => { t with str := { t.str with delay := true } }.releasePerst)) ∧
  (∀ (s : State) (d : Nat), (s.chip.drive d).present = true → s.chip.portUsed d = true → (s.chip.drive d).perst = false →
    (s.chip.drive d).pulse = false →
    (∀ (width rate : Nat) (flit : Bool),
      let r := s.chip.linkRate d rate
      let up (t : Chip) : Chip := t.modDrive d fun k =>
        { k with up := true, width := width, rate := r, flit := r == 2 || flit, enabled := true }
      ((if s.chip.bifurcated d then 2 else 4) ≤ width →
        exec (.driveLinkChange d true width rate flit) s = .next (s.on fun t => ((up t).beginSetUp d).submitAll d)) ∧
      (width < (if s.chip.bifurcated d then 2 else 4) →
        exec (.driveLinkChange d true width rate flit) s = .next (s.on fun t =>
          (((up t).raise 8 (d / 2) 2 2 0 [BitVec.ofNat 8 d, BitVec.ofNat 8 width, BitVec.ofNat 8 r]).beginSetUp d).submitAll d)) ∧
      exec (.driveLinkChange d false width rate flit) s = .next (s.on fun t => t.modDrive d fun k =>
        { k.requeue with up := false, ready := false, enabled := false, pulse := true }))) ∧
  (∀ (s : State) (d : Nat), (s.chip.drive d).present = true →
    exec (.pcieAerError d .correctable) s = .next (s.on fun t => t.aerCount d 0) ∧
    (∀ (cid : Nat) (c : DriveCmd),
      ((s.chip.drive d).cmds.find? fun (e : Nat × DriveCmd) => e.1 == cid) = some (cid, c) → c.again = false →
      exec (.pcieAerError d (.nonFatal cid)) s = .next (s.on fun t => ((t.aerCount d 1).modDrive d fun k =>
        { k with cmds := k.cmds.filter (·.1 != cid), waitCmds := { c with again := true } :: k.waitCmds }).submitAll d)) ∧
    exec (.pcieAerError d .fatal) s = .next (s.on fun t => (t.aerCount d 2).modDrive d fun k => { k with up := false })) ∧
  (∀ (s : State) (d : Nat), (s.chip.drive d).present = true → (s.chip.drive d).up = false → (s.chip.drive d).lost = false →
    exec (.linkRetrainTimeout d) s = .next (s.on fun t => (t.loseDrive d).modDrive d fun k => { k with pulse := true })) ∧
  (∀ (s : State) (d : Nat), (s.chip.drive d).present = true → (s.chip.drive d).ready = false →
    (s.chip.drive d).lost = false → (s.chip.drive d).perst = false →
    exec (.controllerReadyTimeout d) s = .next (s.on fun t => t.loseDrive d)) ∧
  (∀ (s : State) (d : Nat), exec (.drvPerstPulseExpiry d) s =
    .next (s.on fun t => t.modDrive d fun k => { k with pulse := false })) ∧
  (∀ (s : State) (d cid : Nat) (c : DriveCmd),
    ((s.chip.drive d).cmds.find? fun (e : Nat × DriveCmd) => e.1 == cid) = some (cid, c) →
    let rest (t : Chip) : Chip := t.modDrive d fun k => { k with cmds := k.cmds.filter (·.1 != cid) }
    (∀ lba n : Nat, c.cmd = .read lba n → c.use = .none →
      exec (.nvmeCommandComplete d cid .success) s = .next (s.on fun t => (rest t).submitAll d)) ∧
    (∀ (i p seq lba n : Nat) (data : List Byte), c.cmd = .write lba n data → c.use = .stripe seq →
      (rest s.chip).memberOf d = some (i, p) →
      exec (.nvmeCommandComplete d cid .success) s = .next (s.on fun t => ((rest t).writeEnded i p seq true).submitAll d)) ∧
    (∀ key, c.cmd = .acquire key → c.use = .none →
      exec (.nvmeCommandComplete d cid .success) s = .next (s.on fun t =>
        ((rest t).modDrive d fun k => { k with holder := true }).submitAll d)) ∧
    (c.cmd ≠ .flush → c.use = .none →
      exec (.nvmeCommandComplete d cid .conflict) s = .next (s.on fun t => ((rest t).conflicted).submitAll d))) ∧
  (∀ (s : State) (d cid : Nat), ((s.chip.drive d).cmds.any fun e => e.1 == cid) = true → (s.chip.drive d).resets = [] →
    exec (.nvmeCommandTimeout d cid) s = .next (s.on fun t =>
      (((t.modDrive d fun k => { k.requeue with ready := false, resets := [t.now] }).emit (.nvmeCtl d false false)).emit
        (.nvmeCtl d true false)).beginSetUp d)) ∧
  (∀ (s : State) (d : Nat), (s.chip.drive d).ready = true → s.chip.drivesOn = true →
    let logs (t : Chip) : Chip := (t.admin d .errorLog).admin d .smartLog
    let seen (w : Nat) (t : Chip) : Chip := t.modDrive d fun k => { k with warn := w }
    exec (.nvmeAsyncEvent d 0) s = .next (s.on fun t => logs (seen 0 t)) ∧
    (∀ w, 0 < w → w < 256 → exec (.nvmeAsyncEvent d w) s = .next (s.on fun t =>
      logs ((seen w t).raise 8 (d / 2) 3 2 0 [BitVec.ofNat 8 d, BitVec.ofNat 8 w])))) ∧
  (∀ (s : State) (ws : List (Nat × Nat)),
    exec (.smartPoll ws) s = .next (s.on fun t => (List.range t.nDrives).foldl (fun u d => u.smart d (Tab.get ws 0 d)) t)) ∧
  (∀ (s : State) (d : Nat) (f : DriveInfo), (s.chip.drive d).present = true → (s.chip.drive d).perst = false →
    (s.chip.drive d).pulse = false → (s.chip.drive d).up = true → (s.chip.drive d).refused = false →
    (s.chip.drive d).ready = false → s.chip.portUsed d = true → s.chip.setUpOn = true →
    let ready (t : Chip) : Chip := (t.finishSetUp d f).modDrive d fun k =>
      { k with ready := true, lost := false, label := f.label, size := f.size, serial := f.serial,
               pairs := Nat.min 16 f.queues, queue := 0 }
    let ends (u : Chip) : Chip :=
      ((if u.glb.state = .takeover ∧ (u.drive d).holder = false ∧ u.holds d ≠ [] then u.preempt d else u).submitAll d).issueFetches
    (driveRefusal f = none → f.label = none → exec (.driveReady d f) s = .next (s.on fun t => ends (ready t))) ∧
    (∀ l, driveRefusal f = none → f.label = some l →
      exec (.driveReady d f) s = .next (s.on fun t => ends ((ready t).member d l))) ∧
    (∀ r, driveRefusal f = some r → exec (.driveReady d f) s = .next (s.on fun t =>
      ((t.finishSetUp d f).modDrive d fun k => { k with refused := true }).raise 8 (d / 2) 1 2 0
        [BitVec.ofNat 8 d, BitVec.ofNat 8 r])))

/-- Stripe sets (09 R234, R241, R247, R251 to R254, Table 9-7): a scan's end, the ready wait, a new journal position, rebuilds
and their end, forming and patrol. -/
def Obligations.SetCommandsComplete : Prop :=
  (∀ (s : State) (i : Nat) (f : ScanInfo), (s.chip.set i).cfg.on = true → (s.chip.set i).scanned = false →
    (s.chip.set i).missing.length ≤ (s.chip.set i).cfg.tolerance → s.chip.drivesOn = true → s.chip.inFlight (.scan i) = false →
    ((s.chip.set i).slotScan = true ∨ s.chip.scanSegs i f = [] →
      exec (.setScanComplete i f) s = .next (s.on fun t => (t.sealedRemaps f).takeScan i f)) ∧
    ((s.chip.set i).slotScan = false → s.chip.scanSegs i f ≠ [] →
      (s.chip.scanReads i (s.chip.scanSegs i f)).inFlight (.scan i) = true →
      exec (.setScanComplete i f) s = .next (s.on fun t => t.scanReads i (s.chip.scanSegs i f)))) ∧
  (∀ (s : State) (i : Nat), (s.chip.set i).cfg.on = true → (s.chip.set i).st = .waiting → (s.chip.set i).presentPos ≠ [] →
    exec (.readyWaitExpiry i) s = .next (s.on fun t => (t.modSet i fun x => { x with waited := true }).judgeSet i)) ∧
  (∀ (s : State) (i p q : Nat) (rest : List Nat), (s.chip.set i).jlive = [q] → s.chip.setUp i = true → s.chip.drivesOn = true →
    (s.chip.set i).jcopy = none →
    ((s.chip.set i).presentPos.filter fun p => p != q && (s.chip.set i).cfg.fg.getD p 0 != (s.chip.set i).cfg.fg.getD q 0) = p :: rest →
    exec (.journalPositionReplace i) s = .next (s.on fun t =>
      ((t.modSet i fun x => { x with jpos := [q, p] }).copyRing i p 0).ringCopied i)) ∧
  (∀ (s : State) (i p d : Nat) (ps ds : List Nat), (s.chip.set i).st = .degraded → (s.chip.set i).rbState ≠ 1 →
    s.chip.ecl.step < 4 → s.chip.drivesOn = true → (s.chip.set i).missing = p :: ps →
    ((bitsOf s.chip.nDrives (s.chip.par 0x900304)).filter (s.chip.spareFits i)) = d :: ds →
    exec (.rebuildDelayExpiry i) s = .next (s.on fun t => t.startRebuild i p d)) ∧
  (∀ (s : State) (q : Session) (i p d : Nat), s.chip.grants q 23 2 → i < 4 → p < 32 → d < 32 →
    (s.chip.set i).cfg.on = true → bit (s.chip.set i).cfg.mask d = true ∨ bit (s.chip.par 0x900304) d = true →
    (s.chip.set i).rbState ≠ 1 → (s.chip.set i).missing.contains p = true → s.chip.spareFits i d = true →
    s.chip.drivesOn = true → s.chip.ecl.step < 4 →
    ((s.chip.set i).st = .degraded → exec (.rebuild q i p d) s = .next (s.on fun t =>
      (t.setPar 0x900328 (i + p * 256 + d * 65536)).startRebuild i p d)) ∧
    ((s.chip.set i).st = .degraded ∨ (s.chip.set i).st = .failed → exec (.rebuildForce q i p d) s = .next (s.on fun t =>
      (t.setPar 0x900328 (i + p * 256 + d * 65536 + 2 ^ 30)).startRebuild i p d))) ∧
  (∀ (s : State) (i : Nat), (s.chip.set i).rbState = 1 → (s.chip.set i).rebuildLeft = [] → (s.chip.set i).rbRead = none →
    (∀ e ∈ s.chip.str.locks, e.1 = i → e.2.2.2.rebuild = false) →
    exec (.rebuildComplete i) s = .next (s.on fun t => t.endRebuild i)) ∧
  (∀ (s : State) (q : Session) (i : Nat), s.chip.grants q 23 2 → i < 4 →
    let marked := s.chip.setPar 0x900300 i
    let c := marked.clampSet i 1 (marked.pendingCfg i)
    s.chip.formRefused i c.1 = false →
    exec (.form q i) s = .next { s with chip := c.2.formSet i c.1 (s.chip.formDrives c.1) }) ∧
  (∀ (s : State) (i slot : Nat) (f : PatrolFinding) (lap : Option Nat), s.chip.setUp i = true → s.chip.ecl.step < 4 →
    s.chip.drivesOn = true → (s.chip.set i).visit = none →
    ((s.chip.set i).patrolNext = some slot → exec (.patrolVisit i slot f lap) s = .next (s.on fun t =>
      ((t.modSet i fun x => { x with visit := some (slot, f, lap) }).patrolReads i slot).patrolGo i)) ∧
    ((s.chip.set i).patrolNext = none → exec (.patrolVisit i slot f lap) s = .next (s.on fun t => t.patrolLap i lap)))

/-- DRAM refresh, temperature and the write queue (10 R259, R263, R268 to R271): a due refresh is issued and its debt paid,
a forced one is counted, a reading judges the ranks, an aged write queue is written. -/
def Obligations.RefreshCommandsComplete : Prop :=
  (∀ (s : State) (ch slot : Nat) (c : Int), ch < s.chip.nChans → s.chip.domainOn (16 + ch / 3) = true →
    let read (t : Chip) : Chip := t.modChan ch fun k => { k with temps := (slot, c) :: k.temps.filter fun e => e.1 != slot }
    let judged (t : Chip) : Chip := if t.chanOn ch then t.judgeRanks ch else t
    (c < (s.chip.par 0xAE000C : Int) → exec (.dimmTempPoll [(ch, slot, c)]) s = .next (s.on fun t => judged (read t))) ∧
    ((s.chip.par 0xAE000C : Int) ≤ c → exec (.dimmTempPoll [(ch, slot, c)]) s = .next (s.on fun t =>
      judged ((read t).raise 0x0A ch 3 2 1 (le 1 slot ++ le 1 c.toNat))))) ∧
  (∀ (s : State) (doubled : List (Nat × Nat)), exec (.mr4Poll doubled) s = .next (s.on fun t =>
    ((List.range t.nChans).filter t.chanOn).foldl (fun u ch =>
      (u.modChan ch fun k => { k with mr4 := doubled.foldl (fun m x => if x.1 == ch then setBit m x.2 true else m) 0 }).judgeRanks ch) t)) ∧
  (∀ (s : State) (ch r elapsed : Nat), s.chip.chanOn ch = true → r < s.chip.packRanks → (s.chip.chan ch).selfRef = false →
    let i := (s.chip.chan ch).trefi r
    let debt := Tab.get (s.chip.chan ch).debt 0 r + elapsed
    let owes (t : Chip) : Chip := t.setDebt ch r debt
    (debt < i → exec (.refreshDue ch r elapsed) s = .next (s.on owes)) ∧
    (i ≤ debt → debt < 4 * i → s.chip.class1Waits ch r = false → 2 * i ≤ debt ∨ s.chip.soonFor ch r = false →
      exec (.refreshDue ch r elapsed) s = .next (s.on fun t => (owes t).refab ch r)) ∧
    (debt < 4 * i → s.chip.class1Waits ch r = true ∨ (debt < 2 * i ∧ s.chip.soonFor ch r = true) →
      exec (.refreshDue ch r elapsed) s = .next (s.on owes)) ∧
    (4 * i ≤ debt → exec (.refreshDue ch r elapsed) s =
      .next (s.on fun t => ((owes t).refab ch r).count (0xA00014 + 0x10000 * ch)))) ∧
  (∀ (s : State) (ch r : Nat), s.chip.chanOn ch = true → r < s.chip.packRanks → (s.chip.chan ch).selfRef = false →
    let i := (s.chip.chan ch).trefi r
    exec (.refreshForced ch r) s = .next (s.on fun t =>
      ((t.setDebt ch r (Nat.max (4 * i) (Tab.get (s.chip.chan ch).debt 0 r))).refab ch r).count (0xA00014 + 0x10000 * ch))) ∧
  (∀ (t : Chip) (ch r : Nat),
    Tab.get ((t.refab ch r).chan ch).debt 0 r = Tab.get (t.chan ch).debt 0 r - (t.chan ch).trefi r) ∧
  (∀ (s : State) (ch : Nat), s.chip.chanOn ch = true → (s.chip.chan ch).stopped = false →
    exec (.writeQueueAgeExpiry ch) s = .next (s.on fun t => t.writeBatch ch (if t.readWaiting ch then 16 else 0)))

/-- Row-disturbance windows and throttles (10 R272, R273): a window's end clears every tracker of every powered channel, a
throttle's spacing admits its first held request, its minimum time ends. -/
def Obligations.ThrottleCommandsComplete : Prop :=
  (∀ (s : State), exec .rdWindowEnd s = .next (s.on fun t =>
    ((List.range t.nChans).filter t.chanOn).foldl (fun u ch =>
      (u.modChan ch fun k => { k with trackers := [], throttles := k.throttles.map fun x => { x with windowOver := true } }).endThrottles ch) t)) ∧
  (∀ (s : State) (ch c bank : Nat) (x : Throttle),
    ((s.chip.chan ch).throttles.find? fun t => t.conn == c && t.bank == bank) = some x →
    exec (.rdSpacingExpiry ch c bank) s = .next (s.on fun t =>
      x.next.foldl Chip.enqueue (t.modChan ch fun k => { k with throttles := k.throttles.map fun y =>
        if y.conn == c && y.bank == bank then { y with held := y.held.filter fun r => !x.next.contains r } else y }))) ∧
  (∀ (x : Throttle) (r : ChanReq) (rest : List ChanReq), x.held = r :: rest → ∃ l, x.next = r :: l ∧ ∀ y ∈ l, y ∈ rest) ∧
  (∀ (s : State) (ch c bank : Nat), exec (.rdThrottleMinExpiry ch c bank) s = .next (s.on fun t =>
    (t.modChan ch fun k => { k with throttles := k.throttles.map fun x =>
      if x.conn == c && x.bank == bank then { x with minOver := true } else x }).endThrottles ch))

/-- The frequency change (10 R271, R274, R275, Table 10-5): GO brings the target into range and stops the first channel in use,
each channel's end goes to the next, the last one's to DONE, and a lane below DMC_TRAIN_MIN_UI ends the change where it
stands. -/
def Obligations.FrequencyChangeCompletes : Prop :=
  (∀ (s : State) (q : Session) (target : Nat), s.chip.grants q 23 2 → s.chip.dmc.freqBusy = false → s.chip.dmc.map ≠ [] →
    s.chip.glb.state = .active ∨ s.chip.glb.state = .umbra →
    let given := target % 4
    let v := Nat.min given s.chip.speedLimit
    exec (.frequencyChange q target) s = .next (s.on fun t =>
      let u := if v = given then t else t.clamped (regField 0xAE0020 0) given v 1
      let w := (u.setPar 0xAE0020 v).fillIdle v
      ({ w with dmc := { (u.fillIdle v).dmc with
          freqBusy := true, freqResult := 0, freqTarget := v, freqChan := 0, freqStop := false } } : Chip).stopChannel
        (s.chip.dmc.map.headD 0))) ∧
  (∀ (s : State) (ranks : List (List LaneEye)), s.chip.dmc.freqBusy = true →
    let n := s.chip.dmc.map.getD s.chip.dmc.freqChan 0
    let bad := ranks.findSome? fun r => r.findIdx? fun l => !s.chip.lanePasses l
    let done (t : Chip) : Chip := (t.modChan n fun k =>
      { k.setIdle { speed := s.chip.dmc.freqTarget, ranks } with
        setB := !k.setB, speed := s.chip.dmc.freqTarget, pattern := none }).resumeChannel n
    (∀ lane, bad = some lane → exec (.channelFrequencyDone ranks) s = .next (s.on fun t =>
      let u := t.resumeChannel n
      ({ u with dmc := { u.dmc with freqBusy := false, freqResult := 1 } }).raise 0x0A n 6 2 0 (le 1 lane ++ le 1 1))) ∧
    (bad = none → s.chip.dmc.freqStop = false → s.chip.dmc.map.length ≤ s.chip.dmc.freqChan + 1 →
      exec (.channelFrequencyDone ranks) s = .next (s.on fun t =>
        { done t with dmc := { (done t).dmc with freqBusy := false, freqResult := 0 } })) ∧
    (bad = none → s.chip.dmc.freqStop = true →
      exec (.channelFrequencyDone ranks) s = .next (s.on fun t =>
        { done t with dmc := { (done t).dmc with freqBusy := false, freqResult := 2 } })) ∧
    (bad = none → s.chip.dmc.freqChan + 1 < s.chip.dmc.map.length → s.chip.dmc.freqStop = false →
      exec (.channelFrequencyDone ranks) s = .next (s.on fun t =>
        ({ done t with dmc := { (done t).dmc with freqChan := s.chip.dmc.freqChan + 1 } } : Chip).stopChannel
          (s.chip.dmc.map.getD (s.chip.dmc.freqChan + 1) 0))))

/-- The margin helpers (10 R267, Table 10-4): each runs in MAINTENANCE for a session of its role, READ_PROBE in ACTIVE and
UMBRA too, after the pattern that it writes; outside its states or roles it ends REFUSED at once; and its end leaves the channel
with its result. -/
def Obligations.MarginHelpersComplete : Prop :=
  (∀ (s : State) (q : Session) (m : MarginReq), s.chip.sesLive q = true → s.chip.domainOn (16 + m.ch / 3) = true →
    m.ch < s.chip.nChans → (s.chip.chan m.ch).mgBusy = false → m.lane < 16 → m.rank < 16 →
    let role := (s.chip.ses q).role
    let may (helper : Nat) : Prop :=
      (s.chip.glb.state = .maintenance ∨ (helper = 0 ∧ (s.chip.glb.state = .active ∨ s.chip.glb.state = .umbra))) ∧
      (if helper = 2 ∨ helper = 4 then 3 else 2) ≤ role
    let given (helper : Nat) (t : Chip) : Chip :=
      t.setPar (0xA00080 + 0x10000 * m.ch) (helper + m.lane * 16 + m.rank * 256)
    let runs (helper : Nat) (t : Chip) : Chip := ((given helper t).writePattern m.ch helper).modChan m.ch fun k =>
      { k with mgBusy := true, mgHelper := helper, mgResult := 0 }
    let refused (helper : Nat) (t : Chip) : Chip := (given helper t).modChan m.ch fun k =>
      { k with mgHelper := helper, mgResult := 1 }
    ∀ c helper, (c, helper) ∈ [(Instr.readProbe q m, 0), (.pattern q m, 1), (.patternFull q m, 2), (.eyeSweep q m, 3), (.caSweep q m, 4)] →
      (may helper → exec c s = .next (s.on (runs helper))) ∧ (¬ may helper → exec c s = .next (s.on (refused helper)))) ∧
  (∀ (s : State) (ch : Nat) (r : MarginResult), (s.chip.chan ch).mgBusy = true →
    exec (.marginHelperDone ch r) s = .next (s.on fun t => t.modChan ch fun k =>
      { k with mgBusy := false, mgResult := 0, mgWidth := r.width, mgHeight := r.height, mgErrors := r.errors,
               mgMap := r.map.take 64 }))

/-- The scrubber and the remap tables (11 R282, R285 to R288, R292): where the channel is idle enough, a scrub read of its next
line pays the rewrite that the last one owes, repairs an uncorrectable line that holds a page's bytes, while its bank has room
for the repair, owes a rewrite of a corrected one and of an uncorrectable one that holds nothing, takes the steps of R285 over
an area of the region's own, and ends the lap after the last line; a clear empties the tables of the channels named, in
MAINTENANCE. -/
def Obligations.ScrubCommandsComplete : Prop :=
  (∀ (s : State) (ch : Nat) (given : List (Nat × Byte)), s.chip.chanOn ch = true → s.chip.par 0xB00008 % 2 = 1 →
    s.chip.ecl.step < 4 → (s.chip.chan ch).scrubs = true →
    let at_ := (s.chip.chan ch).scrubAt
    let fl := s.chip.frameNo ch (at_ / 1024) * 1024 + at_ % 1024
    let paid := s.chip.payRewrite ch
    let errs := if (paid.chan ch).wq.any fun e => e.1 == fl then [] else given
    let sent := paid.enqueue { cls := 5, fl, tag := .mei, write := false, awaited := false, sweep := false }
    let held := paid.heldLine ch fl
    let ends (t : Chip) : Chip :=
      let u := t.modChan ch fun k => { k with scrubAt := k.scrubAt + 1 }
      if s.chip.framesOn ch * 1024 ≤ at_ + 1 then u.lapEnds ch else u
    let gives (t : Chip) : Prop := exec (.scrubRead ch given) s = .next { s with chip := t }
    (∀ p, paid.pageInFrame (held / 1024) = some p →
      let line := p * 1024 + held % 1024
      let r := sent.readBurst line errs
      (r.1 = .uncorrectable → paid.repairRoom (paid.bankOf line) line = true →
        gives (ends (r.2.startRepair (paid.bankOf line) line))) ∧
      (r.1 = .uncorrectable → paid.repairRoom (paid.bankOf line) line = false → gives paid) ∧
      (r.1 = .corrected → gives (ends (r.2.owesRewrite ch held))) ∧
      (r.1 ≠ .uncorrectable → r.1 ≠ .corrected → gives (ends r.2))) ∧
    (paid.pageInFrame (held / 1024) = none →
      let r := sent.freeBurst ch held errs
      (r.1 = .uncorrectable → ∀ a o, paid.areaOf held = some (a, o) → gives (ends (r.2.areaLost ch held a o))) ∧
      (r.1 = .uncorrectable → paid.areaOf held = none → gives (ends (r.2.owesRewrite ch held))) ∧
      (r.1 = .corrected → gives (ends (r.2.owesRewrite ch held))) ∧
      (r.1 ≠ .uncorrectable → r.1 ≠ .corrected → gives (ends r.2)))) ∧
  (∀ (s : State) (q : Session) (mask : Nat), s.chip.grants q 23 3 → s.chip.glb.state = .maintenance →
    exec (.remapClear q mask) s = .next (s.on fun t => (bitsOf t.nChans mask).foldl (fun u n =>
      (u.modChan n fun k => { k with remap := [], ueOnce := [] }).askRemap n 0xFF 2 0 0) t))

/-- Frames of the active's twin (12 R295 to R301, R305, R314, Table 12-1): an acknowledgement, a joining standby, a takeover,
a refusal and fetched data, each answered as a reliable frame where it is one, with the frames that waited for it after it. -/
def Obligations.ActiveTwinFramesComplete : Prop :=
  (∀ (s : State) (h : SyzHead) (pos credit : Nat) (cum : BitVec 32), s.chip.syzTakes h = true → s.chip.foreign h = false →
    (s.chip.covered cum.toNat).syz.role = .active →
    exec (.journalAck h pos cum credit) s = .next (s.on fun t => (t.covered cum.toNat).takeAck pos credit)) ∧
  (∀ (s : State) (h : SyzHead) (pos credit : Nat) (cum : BitVec 32), s.chip.syzTakes h = true → s.chip.foreign h = false →
    (s.chip.covered cum.toNat).syz.role ≠ .active →
    exec (.journalAck h pos cum credit) s = .next (s.on fun t => t.syzFreed (t.covered cum.toNat))) ∧
  (∀ (s : State) (h : SyzHead) (m : RoleMsg), s.chip.tells h → s.chip.syz.role = .active →
    s.chip.glb.state = .active ∨ s.chip.glb.state = .start → (s.chip.syz.pair = .noTwin ∨ s.chip.syz.pair = .solo) →
    let causes := (s.chip.hearing h).joinCauses m
    (causes = 0 → exec (.roleJoin h m) s = .next (s.on fun t => t.andNext (t.hearing h).takeJoin)) ∧
    (causes ≠ 0 → exec (.roleJoin h m) s = .next (s.on fun t => t.andNext
      ((({ t.hearing h with syz := { (t.hearing h).syz with refuse := causes } } : Chip).sendRole 6 causes 0).raise 0x0C 0xFFFF 4 1 0
        [BitVec.ofNat 8 t.syz.role.code, BitVec.ofNat 8 causes])))) ∧
  (∀ (s : State) (h : SyzHead), s.chip.tells h → s.chip.glb.state = .active ∨ s.chip.glb.state = .eclipse →
    s.chip.syz.role = .active →
    exec (.roleTakeover h) s = .next (s.on fun t => t.andNext (t.hearing h).fence)) ∧
  (∀ (s : State) (h : SyzHead) (causes : Nat), s.chip.tells h →
    let note (u : Chip) : Chip := u.raise 0x0C 0xFFFF 4 1 0 [BitVec.ofNat 8 u.syz.role.code, BitVec.ofNat 8 causes]
    (s.chip.syz.role = .active → s.chip.syz.pair = .catchingUp →
      exec (.roleRefuse h causes) s = .next (s.on fun t => t.andNext (note ((t.hearing h).dropTwin .noTwin false)))) ∧
    (s.chip.syz.role = .umbra → exec (.roleRefuse h causes) s = .next (s.on fun t => t.andNext
      (note { t.hearing h with syz := { (t.hearing h).syz with refuse := causes, caughtUp := false, copy := none } })))) ∧
  (∀ (s : State) (h : SyzHead) (tag source mask : Nat) (data : List Byte), s.chip.tells h →
    exec (.fetchResp h tag source mask data) s = .next (s.on fun t =>
      let u := t.hearing h
      t.andNext ({ u with syz := { u.syz with tags := u.syz.tags.map fun x =>
        if x.tag == tag && x.answer.isNone then { x with answer := some (source, mask, data) } else x } } : Chip).goOnAll))

/-- Frames at the standby (12 R295, R301 to R305, R309): entries stored and applied, mirror bytes laid, a fetch answered,
released entries dropped, the notes and triggers of Table 12-1 taken; then the frames that waited for them. -/
def Obligations.StandbyTwinFramesComplete : Prop :=
  ∀ (s : State) (h : SyzHead), s.chip.tells h → s.chip.glb.state = .umbra →
  (∀ es, s.chip.syz.refuse = 0 → exec (.journal h es) s = .next (s.on fun t =>
    let u := es.foldl Chip.storeEntry
      { t.hearing h with syz := { (t.hearing h).syz with partnerEpoch := h.epoch.toNat } }
    t.andNext (if u.joined = true then u.acceptPos es else u))) ∧
  (∀ es, s.chip.syz.compat = true → s.chip.syz.refuse = 0 → (s.chip.hearing h).endCopy.joined = true →
    exec (.mirrorWrite h es) s = .next (s.on fun t => t.andNext ((es.foldl Chip.mirrorEntry (t.hearing h).endCopy).acceptPos es))) ∧
  (∀ addr size tag, exec (.mirrorFetch h addr size tag) s = .next (s.on fun t =>
    let a := (t.hearing h).fetchAnswer addr size
    t.andNext (((t.hearing h).fetchReads addr size).syzSmall 0x45 ([tag, a.1, a.2.1] ++ a.2.2)))) ∧
  (∀ pos, s.chip.syz.release ≤ pos → exec (.sealNoteRelease h pos) s = .next (s.on fun t =>
    let u := t.hearing h
    t.andNext { u with syz := { u.syz with
         release := pos, ring := u.syz.ring.filter fun e => pos < e.pos,
         mclean := (u.syz.mpages.filter fun e => e.2 ≤ pos).map fun e => e.1 } })) ∧
  exec (.sealNoteEclipse h) s = .next (s.on fun t =>
    let u := t.hearing h
    t.andNext { u with syz := { u.syz with eclSeen := true } }) ∧
  (∀ last seq, exec (.sealNoteSealed h last seq) s = .next (s.on fun t => t.andNext ((t.hearing h).trigger 2))) ∧
  (∀ last, exec (.roleSwitchGo h last) s = .next (s.on fun t => t.andNext ((t.hearing h).trigger 4))) ∧
  (s.chip.syz.refuse = 0 → (s.chip.hearing h).endCopy.joined = true → exec (.roleCaughtUp h) s = .next (s.on fun t =>
    let u := (t.hearing h).endCopy
    t.andNext { u with syz := { u.syz with caughtUp := true } }))

/-- A frame whose sequence was received before changes nothing and is answered again (12 R297, R298). -/
def Obligations.DuplicateFramesAreAnsweredOnly : Prop :=
  ∀ (s : State) (h : SyzHead), s.chip.syzTakes h = true → s.chip.foreign h = false → s.chip.syz.rxKnown = true →
    (s.chip.syz.rxHeld.any fun e => e.1 == h.seq.toNat) = true ∨ notAfter h.seq.toNat s.chip.syz.rxSeq = true →
    ∀ c : Instr, (∃ es, c = .journal h es) ∨ (∃ es, c = .mirrorWrite h es) ∨ (∃ a n g, c = .mirrorFetch h a n g) ∨
      (∃ g k m d, c = .fetchResp h g k m d) ∨ (∃ p, c = .sealNoteRelease h p) ∨ c = .sealNoteEclipse h ∨
      (∃ l q, c = .sealNoteSealed h l q) ∨ (∃ l, c = .roleSwitchGo h l) ∨ c = .roleCaughtUp h ∨ c = .roleTakeover h ∨
      (∃ m, c = .roleJoin h m) ∨ (∃ k, c = .roleRefuse h k) →
    exec c s = .next (s.on Chip.sendJournalAck)

/-- A new frame that is not the next one of the link sequence has no effect yet: it is kept until its turn, and answered
(12 R297, R298). -/
def Obligations.FramesAheadWaitForTheirTurn : Prop :=
  ∀ (s : State) (h : SyzHead), s.chip.ahead h → ∀ (c : Instr) (m : SyzMsg),
    (∃ es, c = .journal h es ∧ m = .journal h.epoch.toNat es) ∨ (∃ es, c = .mirrorWrite h es ∧ m = .mirrorWrite es) ∨
      (∃ a n g, c = .mirrorFetch h a n g ∧ m = .mirrorFetch a n g) ∨
      (∃ g k x d, c = .fetchResp h g k x d ∧ m = .fetchResp g k x d) ∨ (∃ p, c = .sealNoteRelease h p ∧ m = .release p) ∨
      (c = .sealNoteEclipse h ∧ m = .eclipse) ∨ (∃ l q, c = .sealNoteSealed h l q ∧ m = .sealed) ∨
      (∃ l, c = .roleSwitchGo h l ∧ m = .switchGo) ∨ (c = .roleCaughtUp h ∧ m = .caughtUp) ∨ (c = .roleTakeover h ∧ m = .takeover) ∨
      (∃ r, c = .roleJoin h r ∧ m = .join r) ∨ (∃ k, c = .roleRefuse h k ∧ m = .refuse k) →
    exec c s = .next (s.on fun t =>
      ({ t with syz := { t.syz with rxHeld := t.syz.rxHeld ++ [(h.seq.toNat, m)] } } : Chip).sendJournalAck)

/-- The twin's link and its time limits (12 R295 to R298, R305 to R309, R314, R459, Table 12-1). -/
def Obligations.TwinTimersComplete : Prop :=
  (∀ (s : State), s.chip.syzOn 0x42 = true → exec .heartbeatInterval s = .next (s.on fun t =>
    let body := t.heartbeatBody
    (((bitsOf 4 t.syz.links).foldl (fun u l =>
      u.emit (.syz l false 0 0x42 [] body (u.syzBytes (SyzFrame.small 0x42 body)))) t).stepMirror).advanceRelease)) ∧
  (∀ (s : State), s.chip.glb.state = .active → s.chip.syz.role = .active →
    (s.chip.syz.pair = .paired → exec .heartbeatLoss s = .next (s.on fun t => (t.setPair .inDoubt).goOnAll)) ∧
    (s.chip.syz.pair = .catchingUp → exec .heartbeatLoss s = .next (s.on fun t => t.dropTwin .noTwin true)) ∧
    (s.chip.syz.pair = .paired → exec (.twinFenceInChange true) s = .next (s.on fun t =>
      ({ t with syz := { t.syz with fenceIn := true } }.setPair .inDoubt).goOnAll))) ∧
  (∀ (s : State), exec (.twinFenceInChange false) s =
    .next (s.on fun t => { t with syz := { t.syz with fenceIn := false } })) ∧
  (∀ (s : State), s.chip.glb.state = .umbra → s.chip.syz.caughtUp = true →
    exec (.twinFenceInChange true) s = .next (s.on fun t => { t with syz := { t.syz with fenceIn := true } }.takeover 1) ∧
    (s.chip.syz.eclSeen = true → exec .eclipseTimeout s = .next (s.on fun t => t.takeover 3))) ∧
  (∀ (s : State) (f : SyzFrame), oldestSent s.chip.syz.held = some f →
    exec .syzRetransmitTimeout s = .next (s.on fun t =>
      let w := t.syzWire { f with retry := true } (some f.link)
      { w.2 with syz := { w.2.syz with held := w.2.syz.held.map fun x =>
        if x.seq == f.seq then { f with retry := true, link := w.1, turn := t.syz.rr } else x } })) ∧
  (∀ (s : State) (link : Nat) (up : Bool), link < s.chip.nLinks → bit s.chip.cmt.fencedRegions link = false →
    s.chip.domainOn 21 = true → s.chip.glb.state ≠ .maintenance → s.chip.glb.state ≠ .off → bit s.chip.syz.links link ≠ up →
    let moved (t : Chip) : Chip :=
      (({ t with syz := { t.syz with links := setBit t.syz.links link up } }).train (16 + link) (!up)).raise 0x0C 0xFFFF 2 1 0
        [BitVec.ofNat 8 link, BitVec.ofNat 8 (b2n up)]
    (up = false ∨ s.chip.syz.links ≠ 0 ∨ s.chip.glb.state ≠ .start →
      exec (.syzLinkChange link up) s = .next (s.on moved)) ∧
    (up = true → s.chip.syz.links = 0 → s.chip.glb.state = .start →
      exec (.syzLinkChange link up) s = .next (s.on fun t =>
        (moved t).sendStart))) ∧
  (∀ (s : State) (hs : List Holder), s.chip.glb.state = .active → s.chip.syz.pair = .inDoubt →
    (∀ x ∈ hs, s.chip.memberDrives.contains x.drive = true → x.key = none ∨ x.key = some s.chip.sec.writer) →
    (∃ m d, s.chip.mapSet = some m ∧ d ∈ s.chip.memberDrives ∧ ((s.chip.holds d).any fun x => x.1 == m) = true) →
    (∀ d ∈ s.chip.memberDrives, ∃ x ∈ hs, x.drive = d ∧ x.key = some s.chip.sec.writer) →
    exec (.soloWaitExpiry hs) s = .next (s.on fun c => c.askHolders.goSolo) ∧
      exec (.reservationCheck hs) s = .next (s.on fun c => c.askHolders.goSolo)) ∧
  (∀ (s : State) (hs : List Holder) (x : Holder), s.chip.glb.state = .active → s.chip.syz.pair = .inDoubt →
    x ∈ hs → s.chip.memberDrives.contains x.drive = true → x.key.isSome = true → x.key ≠ some s.chip.sec.writer →
    exec (.soloWaitExpiry hs) s = .next (s.on fun c => c.askHolders.fence) ∧
      exec (.reservationCheck hs) s = .next (s.on fun c => c.askHolders.fence))

/-- A takeover (12 R308 to R311, Table 12-7): preemption, the seal search and its limit, the service taken, the replay. -/
def Obligations.TakeoverStepsComplete : Prop :=
  (∀ (s : State), s.chip.glb.state = .takeover → s.chip.syz.preDone = false →
    exec .fenceLimitExpiry s = .next (s.on fun t =>
      let mask := maskOfDrives (t.memberDrives.filter fun d => (t.drive d).holder)
      ({ t with syz := { t.syz with preempted := mask } }.raise 0x0C 0xFFFF 3 3 0
        ([BitVec.ofNat 8 t.syz.trigger, 0] ++ le 4 mask)).toFault 8) ∧
    (s.chip.allMembers = true → exec .preemptComplete s = .next (s.on fun t =>
      let u := t.memberDrives.foldl (fun v d => v.modDrive d fun k => { k with
        holder := true, registered := true,
        cmds := k.cmds.filter fun c => c.2.cmd != .preempt t.sec.writer (t.syz.partner.getD 0) }) t
      (Chip.startScans { u with syz := { u.syz with
        preDone := true, step := Nat.max 3 u.syz.step, preempted := maskOfDrives t.memberDrives } }).searchSeals)) ∧
    (s.chip.allMembers = false → exec .preemptComplete s = .next s)) ∧
  (∀ (s : State) (blocks : List (List Byte)), s.chip.glb.state = .takeover → s.chip.syz.sealDone = false →
    let found_ (b : Bool) (t : Chip) : Chip :=
      { t with syz := { t.syz with sealDone := true, step := Nat.max 4 t.syz.step }, glb := { t.glb with sealFound := b } }
    let olds := (blocks.filterMap sealOf).any fun x => s.chip.syz.partner == some x.writer && x.epoch == s.chip.syz.partnerEpoch
    (s.chip.syz.preDone = true → exec (.sealSearchComplete blocks) s = .next (s.on (found_ olds))) ∧
    (s.chip.syz.preDone = false → exec (.sealSearchComplete blocks) s = .next s) ∧
    exec .sealWaitExpiry s = .next (s.on (found_ false))) ∧
  (∀ (s : State), s.chip.glb.state = .takeover → s.chip.syz.preDone = true → s.chip.syz.sealDone = true →
    s.chip.par 0xC00134 ≠ 0 ∨ s.chip.hpx.up ≠ 0 → exec .takeoverActive s = .next (s.on Chip.takeService)) ∧
  (∀ (s : State), s.chip.syz.replaying = true → s.chip.glb.state = .takeover ∨ s.chip.glb.state = .active →
    exec .replayComplete s = .next (s.on Chip.replay))

/-- The role of a starting unit (12 R296, R306, R314): a ROLE START gives the partner's writer ID; a unit that decides its role
takes it from a partner that starts too, or from the state of one that runs; one that runs answers; HEARTBEATs decide in the
same way and let a waiting JOIN go; and the reservations decide once SYZ_JOIN_WAIT has passed. -/
def Obligations.RoleDecided : Prop :=
  (∀ (s : State) (h : SyzHead) (m : RoleMsg) (st : Nat) (c : Bool), s.chip.syzTakes h = true → s.chip.foreign h = false →
    let known := s.chip.syz.rxKnown && s.chip.syz.rxSeq == h.seq.toNat
    let learn (t : Chip) : Chip :=
      let u := if st = 1 then t.dropFrames true else t
      { u with syz := { u.syz with
        partner := some m.writer, started := true, rxKnown := true, rxSeq := h.seq.toNat, rxHeld := [], tags := [] } }
    let decides := s.chip.glb.state = .start ∧ s.chip.cfg.roleDone = false
    (known = true → exec (.roleStart h m st c) s = .next (s.on Chip.sendJournalAck)) ∧
    (known = false → decides → st = 1 →
      exec (.roleStart h m st c) s = .next (s.on fun t => ((learn t).roleAmong h m).sendJournalAck)) ∧
    (known = false → decides → st ≠ 1 →
      exec (.roleStart h m st c) s = .next (s.on fun t => ((learn t).roleFrom st c).sendJournalAck)) ∧
    (known = false → ¬ decides → st ≠ 1 → exec (.roleStart h m st c) s = .next (s.on fun t => (learn t).sendJournalAck)) ∧
    (known = false → s.chip.glb.state = .umbra → st = 1 →
      exec (.roleStart h m st c) s = .next (s.on fun t => ((learn t).startAtUmbra m).sendJournalAck)) ∧
    (known = false → ¬ decides → s.chip.glb.state ≠ .umbra → st = 1 →
      exec (.roleStart h m st c) s = .next (s.on fun t => ((learn t).sendStart).sendJournalAck))) ∧
  (∀ (s : State) (h : SyzHead) (st role pos : Nat) (c e : Bool), s.chip.syzTakes h = true → s.chip.foreign h = false →
    let decides := s.chip.glb.state = .start ∧ s.chip.cfg.roleDone = false
    let join (t : Chip) : Chip := if t.syz.join = 2 ∧ role = 1 ∧ t.glb.state = .umbra then t.sendJoin else t
    let epoch (t : Chip) : Chip := if role = 1 ∧ t.glb.state = .umbra ∧ t.syz.caughtUp = true then
      { t with syz := { t.syz with partnerEpoch := h.epoch.toNat } } else t
    (¬ decides → exec (.heartbeat h st role c e pos) s = .next (s.on fun t => join (epoch t))) ∧
    (decides → st = 5 → exec (.heartbeat h st role c e pos) s = .next (s.on fun t => join (t.decideRole .umbra 1))) ∧
    (decides → st = 4 ∨ st = 8 →
      exec (.heartbeat h st role c e pos) s = .next (s.on fun t => join (t.decideRole .umbra 3))) ∧
    (decides → st = 3 → c = true → s.chip.syz.last = .active → s.chip.syz.sealedSelf = false →
      exec (.heartbeat h st role c e pos) s = .next (s.on fun t => join (t.decideRole .umbra 2))) ∧
    (decides → st = 3 → c = false ∨ s.chip.syz.last ≠ .active ∨ s.chip.syz.sealedSelf = true →
      exec (.heartbeat h st role c e pos) s = .next (s.on fun t => join (t.decideRole .active 0))) ∧
    (decides → st ≠ 3 → st ≠ 4 → st ≠ 5 → st ≠ 8 → exec (.heartbeat h st role c e pos) s = .next s)) ∧
  (∀ (s : State) (hs : List Holder) (m : Nat), s.chip.glb.state = .start → s.chip.cfg.roleDone = false →
    s.chip.syz.started = false → 2 ≤ s.chip.cfg.phase → s.chip.mapSet = some m →
    let drives := (List.range s.chip.nDrives).filter fun d => (s.chip.drive d).ready && bit (s.chip.set m).cfg.mask d
    drives ≠ [] → (∀ d ∈ drives, ∃ x ∈ hs, x.drive = d) →
    ((∀ x ∈ hs, x.drive ∈ drives → x.key = none ∨ x.key = some s.chip.sec.writer) →
      exec (.joinWaitExpiry hs) s = .next (s.on fun t => t.decideRole .active 0)) ∧
    ((∃ x ∈ hs, x.drive ∈ drives ∧ x.key ≠ none ∧ x.key ≠ some s.chip.sec.writer) →
      exec (.joinWaitExpiry hs) s = .next (s.on fun t => t.raise 0x0C 0xFFFF 4 1 0 [0, 0])))

/-- The steps of Eclipse (12 R316, 13 R334 to R338, R340, R343): each step's end, its limit, the planned switchover, and the
whole seconds of an urgent run. -/
def Obligations.EclipseCommandsComplete : Prop :=
  (∀ (s : State), s.chip.glb.state = .eclipse → s.chip.ecl.step = 2 →
    exec .e2LimitExpiry s = .next (s.on fun t => t.giveUp t.unfinished) ∧
    (let u := s.chip.giveUp (s.chip.allMsgs.filter fun x => s.chip.readWaits x.2)
     u.unfinished = [] → (u.lcc.banks.any fun e => !e.2.wtb.isEmpty) = false →
      exec .e2Complete s = .next { s with chip :=
        ((if u.ecl.kind == 2 then u else u.gate (List.range 16) true).eclStep 3).noteEclipse })) ∧
  (∀ (s : State), s.chip.glb.state = .eclipse → s.chip.ecl.step = 3 → exec .e3Complete s = .next (s.on Chip.endE3)) ∧
  (∀ (s : State), s.chip.glb.state = .eclipse → s.chip.ecl.step = 4 → s.chip.drainLeft = [] →
    exec .drainComplete s = .next (s.on Chip.beginE5)) ∧
  (∀ (s : State), s.chip.glb.state = .eclipse → s.chip.ecl.step = 5 → s.chip.ecl.waiting = false → s.chip.cfg.pend = [] →
    s.chip.inFlight .deviceSeal = false →
    let u := if s.chip.ecl.standby then s.chip else { s.chip with ecl := { s.chip.ecl with sealed := true } }
    (u.ecl.kind = 2 → exec .sealWritten s = .next { s with chip := u.switchDone }) ∧
    (u.ecl.kind ≠ 2 → u.pws.returned = true → u.eligible = true →
      exec .sealWritten s = .next { s with chip := u.beginStart true }) ∧
    (u.ecl.kind ≠ 2 → u.pws.returned = false → u.inputRises = true → u.eligible = true →
      exec .sealWritten s = .next { s with chip := { u with ecl := { u.ecl with waiting := true } } }) ∧
    (u.ecl.kind ≠ 2 → u.eligible = false → exec .sealWritten s = .next { s with chip := u.beginE6 })) ∧
  (∀ (s : State), s.chip.glb.state = .eclipse → s.chip.ecl.step = 5 → s.chip.ecl.waiting = true →
    exec .returnStableWaitExpiry s = .next (s.on fun t => { t with ecl := { t.ecl with waiting := false } }.beginE6)) ∧
  (∀ (s : State) (d : Nat), s.chip.glb.state = .eclipse → s.chip.ecl.step = 6 → s.chip.shutting.contains d = true →
    let u := s.chip.modDrive d fun k => { k.held with shut := true }
    (u.shutting = [] → exec (.driveShutdownComplete d) s = .next { s with chip := u.powerDown }) ∧
    (u.shutting ≠ [] → exec (.driveShutdownComplete d) s = .next { s with chip := u })) ∧
  (∀ (s : State) (q : Session), s.chip.grants q 23 1 →
    (s.chip.glb.state = .active → s.chip.syz.pair = .paired →
      exec (.switchover q) s = .next (s.on fun t => t.beginEclipse 2)) ∧
    (s.chip.glb.state ≠ .active ∨ s.chip.syz.pair ≠ .paired → exec (.switchover q) s = .next (s.on fun t =>
      { t with syz := { t.syz with swResult := 2 } }.raise 0x0C 0xFFFF 5 0 0 [2]))) ∧
  (∀ (s : State) (r : UrgentRun), s.chip.pgm.run = some r → r.secSeals ≠ 0 →
    exec .drainRateSecond s = .next (s.on fun t =>
      ({ t with pgm := { t.pgm with
          run := some { r with second := r.second + 1000000000, secBytes := 0, secSeals := 0 } } }.measured 1000000000 r.secBytes).levels))

/-- Power (13 R320 to R331, R333, R338, R343): samples, PWR_FAIL_N, PWR_GOOD_IN, pulses on SEQ_SYNC and its states, reset
outputs, the sequence fault, and what input does when it returns. -/
def Obligations.PowerCommandsComplete : Prop :=
  (∀ (s : State), s.chip.glb.aonUp = true →
    (∀ codes : List Nat, exec (.railSample codes) s = .next (s.on fun t =>
      (((codes.take 17).zipIdx).foldl (fun u e => u.sampleRail e.2 (e.1 % 4096)) t).seqWork)) ∧
    exec .pwrFail s = .next (s.on fun t => ({ t with pws := { t.pws with pfail := true } }.inputLost).powerTrigger) ∧
    (s.chip.pws.dir = 0 ∨ s.chip.pws.dir = 3 →
      (s.chip.glb.state = .start ∧ s.chip.cfg.begun = false) ∨
        ((s.chip.glb.state = .sealed ∨ s.chip.glb.state = .fault) ∧ s.chip.pws.offAt + s.chip.par 0xD00008 * 1000000 ≤ s.chip.now) →
      exec .pwrGoodIn s = .next (s.on Chip.coldStart)) ∧
    (s.chip.glb.state = .active ∨ s.chip.glb.state = .umbra ∨ s.chip.glb.state = .maintenance ∨ s.chip.glb.state = .eclipse ∨
      s.chip.glb.state = .takeover ∨ (s.chip.glb.state = .start ∧ s.chip.cfg.begun = true) ∨
      ((s.chip.glb.state = .sealed ∨ s.chip.glb.state = .fault) ∧ s.chip.now < s.chip.pws.offAt + s.chip.par 0xD00008 * 1000000) →
      exec .pwrGoodIn s = .next (s.on fun t => { t with pws := { t.pws with pgood := true } })) ∧
    (∀ us, s.chip.pws.dir = 0 → 150 ≤ us → us ≤ 600 → s.chip.glb.state = .start →
      exec (.startPulse us) s = .next (s.on Chip.beginUp)) ∧
    (∀ us, s.chip.pws.dir = 0 → 800 ≤ us → us ≤ 2000 → s.chip.glb.state = .active →
      exec (.startPulse us) s = .next (s.on fun t => (t.raise 0x0D 0xFFFF 3 2 0 (le 4 us)).powerTrigger)) ∧
    (∀ us, s.chip.pws.dir = 0 → 2000 < us → us < 50000 →
      exec (.startPulse us) s = .next (s.on fun t => t.raise 0x0D 0xFFFF 3 2 0 (le 4 us))) ∧
    (s.chip.pws.dir ≠ 3 → exec .sequenceFault s = .next (s.on fun t =>
      (t.raise 0x0D 0xFFFF 3 2 0 (le 4 (2 ^ 31 + t.pws.state))).faultOff 2))) ∧
  (∀ (s : State), s.chip.pws.holding = false → s.chip.pws.abandon = false →
    let rises (t : Chip) : Chip := t.startStretch fun c => !c.holdSeq && c.release == s.chip.pws.state
    (s.chip.pws.dir = 1 → s.chip.pws.state < 15 →
      exec .seqSyncRise s = .next (s.on fun t => (rises t).seqState (s.chip.pws.state + 1))) ∧
    (s.chip.pws.dir = 1 → s.chip.pws.state = 15 →
      exec .seqSyncRise s = .next (s.on fun t => { rises t with pws := { (rises t).pws with dir := 0 } })) ∧
    (s.chip.pws.dir = 2 → 0 < s.chip.pws.state →
      exec .seqSyncRise s = .next (s.on fun t => t.seqState (s.chip.pws.state - 1))) ∧
    (s.chip.pws.dir = 2 → s.chip.pws.state = 0 →
      exec .seqSyncRise s = .next (s.on fun t => { t with pws := { t.pws with dir := 0, ended := true } }))) ∧
  (∀ (s : State) (j : Nat) (o : RstOut), s.chip.pws.outs[j]? = some o → o.counting = true →
    exec (.resetStretchExpiry j) s = .next (s.on fun t =>
      { t with pws := { t.pws with outs := setAt t.pws.outs j { o with low := false, counting := false } } }.seqWork)) ∧
  (∀ (s : State), s.chip.pws.ended = true →
    let u := { s.chip with pws := { s.chip.pws with ended := false } }.gate (List.range 24) true
    (u.glb.state = .eclipse → u.ecl.lostRegion = false → exec .downSequenceEnd s =
      .next { s with chip := { u with ecl := { u.ecl with step := 0 } }.toSealed }) ∧
    (u.glb.state = .start ∨ u.glb.state = .maintenance → exec .downSequenceEnd s =
      .next { s with chip := { u with syz := { u.syz with fenceOut := true } }.toSealed }) ∧
    (u.glb.state = .eclipse → u.ecl.lostRegion = true → exec .downSequenceEnd s = .next { s with chip := u.toFault 2 }) ∧
    (u.glb.state = .fault → exec .downSequenceEnd s = .next { s with chip := u })) ∧
  (∀ (s : State),
    let back (t : Chip) : Chip := { t with pws := { t.pws with pfail := false, returned := true, returnAt := t.now } }
    (s.chip.glb.state ≠ .eclipse → s.chip.glb.state ≠ .sealed → s.chip.pws.dir ≠ 2 → s.chip.pws.ended = false →
      exec .inputReturned s = .next (s.on fun t => { t with pws := { t.pws with pfail := false } })) ∧
    (s.chip.glb.state = .sealed → exec .inputReturned s =
      .next (s.on fun t => { back t with pws := { (back t).pws with minOff := true } })) ∧
    (s.chip.glb.state = .eclipse → s.chip.ecl.step < 5 → exec .inputReturned s = .next (s.on back)) ∧
    (s.chip.glb.state ≠ .eclipse → s.chip.glb.state ≠ .sealed → s.chip.pws.dir = 2 ∨ s.chip.pws.ended = true →
      exec .inputReturned s = .next (s.on back))) ∧
  (∀ (s : State), s.chip.glb.state = .eclipse → s.chip.ecl.kind = 1 →
    (s.chip.ecl.step = 5 ∧ s.chip.ecl.waiting = true) ∨ (s.chip.ecl.step = 6 ∧ s.chip.pws.offDone = false) →
    let back := { s.chip with pws := { s.chip.pws with pfail := false, returned := true, returnAt := s.chip.now } }
    (s.chip.eligible = true → exec .inputReturned s = .next { s with chip := back.beginStart true }) ∧
    (s.chip.eligible = false → exec .inputReturned s = .next { s with chip := back })) ∧
  (∀ (s : State), s.chip.glb.state = .sealed → s.chip.pws.minOff = true →
    exec .minOffExpiry s = .next (s.on Chip.coldStart))

/-- The always-on island (13 R323, 18 R446, R447): leaving reset samples the straps and takes the provisioned power table;
losing its supply leaves OFF and every volatile state with it, and the drives, the flash and the fuses keep theirs. -/
def Obligations.AlwaysOnIslandCompletes : Prop :=
  (∀ (s : State) (straps : Nat), s.chip.glb.aonUp = false →
    exec (.aonResetRelease straps) s = .next (s.on fun t =>
      { t with glb := { t.glb with aonUp := true, straps := straps % 4, state := .start },
               pws := match s.otp.powerTable with
                 | some p => Pws.reset.take p
                 | none => Pws.reset,
               sec := { t.sec with writer := writerOf s.otp }, syz := { t.syz with fenceOut := false } })) ∧
  (∀ (s : State), exec .alwaysOnSupplyLoss s = .next (s.on Chip.powerLost) ∧
    s.chip.powerLost.glb.state = .off ∧ s.chip.powerLost.cfg.flash = s.chip.cfg.flash ∧
    s.chip.powerLost.str.stored = s.chip.str.stored ∧ s.chip.powerLost.xpt = Xpt.reset ∧
    s.chip.powerLost.regs = [] ∧ s.chip.powerLost.cnts = [] ∧ s.chip.powerLost.bpm = Bpm.reset ∧
    s.chip.powerLost.rgn = Rgn.reset)

/-- The phases of a start (14 R346, R352 to R356, R363, R364, R367; 10 R265; 16 R389, R405): the SFDP table, the choice of a
slot, SRAM and training, the port gate, MAINTENANCE's alternation, RESTART and CLAMP_CLR. -/
def Obligations.StartCommandsComplete : Prop :=
  (∀ (s : State), s.chip.glb.state = .start → s.chip.cfg.begun = true → s.chip.cfg.phase = 0 →
    exec (.sfdpReadComplete true) s = .next (s.on fun t => (t.identify s.otp).foundFlash) ∧
    exec (.sfdpReadComplete false) s = .next (s.on fun t => (t.identify s.otp).noFlash)) ∧
  (∀ (s : State) (slot : Nat), s.chip.glb.state = .start → s.chip.cfg.phase = 1 → s.chip.cfg.cands.head? = some slot →
    (s.chip.imageFails s.otp slot (s.chip.slotField slot 8) = none →
      exec (.imageReadComplete slot) s = .next (s.on fun t => t.chooseSlot s.otp slot)) ∧
    (∀ k, s.chip.imageFails s.otp slot (s.chip.slotField slot 8) = some k →
      let u := { s.chip with cfg := { s.chip.cfg with
        cands := s.chip.cfg.cands.drop 1, crcOk := setBit s.chip.cfg.crcOk slot (k == 2) } }.slotEvent slot (BitVec.ofNat 8 k)
      exec (.imageReadComplete slot) s = .next { s with chip := if u.cfg.cands.isEmpty then u.toMaintenance else u })) ∧
  (∀ (s : State), s.chip.glb.state = .start → s.chip.cfg.phase = 3 → 0 < s.chip.nRegions →
    exec (.sramInitComplete []) s = .next (s.on fun t => (t.enterPhase 4).startTraining)) ∧
  (∀ (s : State) (rs : List ChanTrain), s.chip.glb.state = .start → s.chip.cfg.phase = 4 → s.chip.cfg.dramDone = false →
    exec (.trainingComplete rs) s = .next (s.on fun t =>
      t.takeTraining (rs.filter fun x => x.ch < t.nChans && !bit t.cmt.fencedRegions (x.ch / 3)))) ∧
  (∀ (s : State), s.chip.glb.state = .start → s.chip.cfg.begun = true →
    exec .portWaitExpiry s = .next (s.on fun t => { t with cfg := { t.cfg with gateOpen := true } }.tryActive)) ∧
  (∀ (s : State) (p : Nat), s.chip.portThere p = true →
    let moved (up : Bool) (t : Chip) : Chip :=
      ({ t with hpx := { t.hpx with up := setBit t.hpx.up p up } }.train p !up).raise 1 p 1 0 0
        [BitVec.ofNat 8 p, BitVec.ofNat 8 (b2n up), BitVec.ofNat 8 (t.hpx.modes.getD (p / 4) 0)]
    (s.chip.portUp p = true → exec (.hostLinkChange p false) s = .next (s.on (moved false))) ∧
    (s.chip.portUp p = false → exec (.hostLinkChange p true) s =
      .next (s.on fun t => (((moved true t).reportPort p).announcePort p).tryActive))) ∧
  (∀ (s : State), s.chip.glb.state = .maintenance → s.chip.portUp 0 = false →
    exec .maintenanceModeAlternate s = .next (s.on fun t => ({ t with hpx := { t.hpx with
      c2m := !t.hpx.c2m, c2c := setBit t.hpx.c2c 0 t.hpx.c2m } }).train 0 t.hpx.c2m)) ∧
  (∀ (s : State) (q : Session), s.chip.grants q 23 2 →
    s.chip.glb.state = .start ∨ s.chip.glb.state = .maintenance ∨ s.chip.glb.state = .umbra ∨ s.chip.glb.state = .active →
    (s.chip.pws.dir ≠ 2 → s.chip.pws.abandon = false → exec (.restart q) s = .next (s.on fun t => t.beginStart false)) ∧
    (s.chip.pws.dir = 2 ∨ s.chip.pws.abandon = true → exec (.restart q) s = .next s)) ∧
  (∀ (s : State) (q : Session), s.chip.grants q 23 1 →
    exec (.clampClr q) s = .next (s.on fun t =>
      { t with cfg := { t.cfg with log := [], overflow := false },
               evr := { t.evr with queue := t.evr.queue.map fun e => { e with clamp := none } } }))

/-- The configuration store's records and staging's ends (14 R348, R349, R370, R371): a change-log record programmed at its
place with its CRC, a remap record put in its area, an area's other sector erased, a staging command done or abandoned. -/
def Obligations.StoreCommandsComplete : Prop :=
  (∀ (s : State) (body : List Byte) (rest : List (Nat × List Byte)), s.chip.cfg.flashOk = true →
    (s.chip.cfg.pend = (0, body) :: rest → exec .flashRecordWritten s = .next (s.on fun t => (t.putLog body rest).writeSeal)) ∧
    (s.chip.cfg.pend = (1, body) :: rest → s.chip.cfg.fill.getD 0 0 < 512 → exec .flashRecordWritten s =
      .next (s.on fun t => ({ t with cfg := { t.cfg with pend := rest } }.putRecord 0 body).writeSeal))) ∧
  (∀ (s : State) (a : StoreArea) (i : Nat), (a = .remap ∧ i = 0) ∨ (a = .power ∧ i = 1) → bit s.chip.cfg.erase i = true →
    exec (.backgroundEraseComplete a) s = .next (s.on fun t =>
      let u := t.flashErase (areaBase i + 0x10000 * (1 - t.cfg.sector.getD i 0)) 0x10000
      { u with cfg := { u.cfg with erase := setBit u.cfg.erase i false } })) ∧
  (∀ (s : State), s.chip.cfg.busy = true → exec .stageOperationComplete s = .next (s.on fun t =>
    { t with cfg := { t.cfg with
        busy := false, result := 1, cmd := 0, owner := if t.cfg.cmd = 3 ∨ t.cfg.cmd = 4 then none else t.cfg.owner } })) ∧
  (∀ (s : State), s.chip.cfg.owner.isSome = true → exec .stageTimeout s = .next (s.on fun t =>
    { t with cfg := { t.cfg with owner := none, busy := false, cmd := 0, result := 4 } }))

/-- A step runs the command at the front of the queue on the state with the queue's rest. -/
def Obligations.StepRunsFrontCommand : Prop :=
  ∀ (c : Instr) (s : State), step { s with pending := c :: s.pending } = exec c s

/-- On an empty queue the block idles for one cycle of the always-on clock, 10 ns, in which an exchange started over I2C
ends and what a PAUSE that has run out held back leaves, the oldest first; nothing else changes. The model's choice, log
entries 1 and 107. -/
def Obligations.StepIdlesOnEmptyQueue : Prop :=
  ∀ (s : State), s.pending = [] →
    let till (e : Nat × Out) : Nat := Tab.get s.chip.hpx.paused 0 e.1
    let t : Chip := { s.chip with
      now := s.chip.now + 10, sec := { s.chip.sec with i2cBusy := false },
      hpx := { s.chip.hpx with held := s.chip.hpx.held.filter fun e => s.chip.now + 10 < till e } }
    let gone := (s.chip.hpx.held.filter fun e => till e ≤ s.chip.now + 10).map (·.2)
    step s = .next { s with chip :=
      if s.chip.hpx.stopped = false ∧ bit s.chip.pws.gated 20 = false then t.emits gone else t }

/-- A command's effect is on everything but the queue. -/
def Obligations.ExecKeepsQueue : Prop :=
  ∀ (c : Instr) (s t : State), exec c s = .next t → t.pending = s.pending

/-- After reset the always-on island is unpowered: no role, no twin, the fence asserted, no rail enabled and every reset
output low, every domain gated, no connection, every region free with generation 1, no bank in use, the store untouched,
no session with a role, no record, and every parameter at its default (12 R294, R450; 13 Table 13-4; 05 R117; 17 R415).
The fields that the spec gives no reset value are the model's choice: log entries 7 to 11, 13 to 16. -/
def Obligations.ResetValues : Prop :=
  let c := State.reset.chip
  State.reset.pending = [] ∧ c.glb.aonUp = false ∧ c.syz.role = .none ∧ c.syz.pair = .noTwin ∧ c.syz.fenceOut = true ∧
  (c.pws.rails.all fun r => !r.enabled) = true ∧ (c.pws.outs.all fun o => o.low) = true ∧
  (∀ d, d < 24 → c.domainOn d = false) ∧ (∀ n, c.conn n = none) ∧
  (∀ i, (c.region i).live = false ∧ (c.region i).gen = 1) ∧ (∀ a, c.cnt a = 0) ∧ (∀ a, c.par a = dfltWord a) ∧
  (∀ q, (c.ses q).role = 0) ∧ c.evr.isSet = false ∧ c.evr.next = 0 ∧ c.flt.faulted = false ∧
  (∀ i, (c.set i).m = 6400 ∧ (c.set i).v = 0) ∧ State.reset.otp.provisioned = false ∧ State.reset.otp.whole

/-- A fuse once programmed keeps its value whatever command comes, and after LOCK no command but DISABLE_FOREVER changes
any (15 R380, R386): every step from every state. -/
def Obligations.FusesAreKept : Prop :=
  ∀ (s t : State), step s = .next t → s.otp.kept t.otp

/-- Every step keeps a locked part whole: it holds its power table, its MAC, its root hash and its identity (15 R380). -/
def Obligations.LockedPartsStayWhole : Prop :=
  ∀ (s t : State), s.otp.whole → step s = .next t → t.otp.whole

/-- Who may write (17 R413, R414): a register whose domain is gated, or that is not mapped, ignores the write, and a write
above its session's role changes no register; the I2C path sets its flag of GLB_ACCESS_STS, MGMT answers ADDRESS or ROLE.
Commands of an installer's registers do the same for a session without the role. -/
def Obligations.AccessesAreGated : Prop :=
  (∀ (s : State) (q : Session) (a : Nat) (v : BitVec 32), s.chip.sesLive q = true →
    s.chip.regOn a = false ∨ s.chip.regValue s.otp q a = none →
    exec (.registerWrite q a v) s = .next (s.on fun t => t.gatedAccess q) ∧ (writeReg q a v.toNat s).1 = 2 ∧
    s.chip.readReg s.otp q a = (none, s.chip.gatedAccess q)) ∧
  (∀ (s : State) (q : Session) (a cur : Nat) (v : BitVec 32), s.chip.sesLive q = true → s.chip.regOn a = true →
    s.chip.regValue s.otp q a = some cur → s.chip.roleStops q a v.toNat cur = true →
    exec (.registerWrite q a v) s = .next (s.on fun t => t.roleRefused q) ∧ (writeReg q a v.toNat s).1 = 1) ∧
  (∀ (s : State) (q : Session) (c i n : Nat) (m : MaintReq), s.chip.sesLive q = true →
    ∀ cmd ∈ [Instr.connEnd q c, .editClaim q, .editRelease q, .rgnRead q i, .rgnCreate q i, .rgnModify q i, .rgnRotate q i,
        .rgnRemove q i, .clean q m, .invalidate q m, .cleanInvalidate q m, .preload q m, .lockWaysWrite q n, .form q i,
        .frequencyChange q n, .ticketKeyLoad q i, .ticketKeyClear q i, .restart q, .stageBegin q, .stageWrite q,
        .stageCommit q, .stageAbort q],
      (s.chip.domainOn 23 = true → (s.chip.ses q).role < 2 → exec cmd s = .next (s.on fun t => t.roleRefused q)) ∧
      (s.chip.domainOn 23 = false → exec cmd s = .next (s.on fun t => t.gatedAccess q))) ∧
  (∀ (t : Chip) (c : Nat), t.gatedAccess (.mgmt c) = t ∧ t.roleRefused (.mgmt c) = t) ∧
  (∀ (t : Chip), bit (t.gatedAccess .i2c).glb.access 2 = true ∧ bit (t.roleRefused .i2c).glb.access 3 = true ∧
    (t.gatedAccess .i2c).regs = t.regs ∧ (t.roleRefused .i2c).regs = t.regs)

/-- A counter rises by what is counted and saturates at 0xFFFF_FFFF; no other counter and nothing else of the chip moves
(17 R416). -/
def Obligations.CountersSaturate : Prop :=
  ∀ (s : Chip) (a n : Nat), s.cnt a < 2 ^ 32 →
    (s.cnt a + n < 2 ^ 32 → (s.count a n).cnt a = s.cnt a + n) ∧
    (2 ^ 32 ≤ s.cnt a + n → (s.count a n).cnt a = 2 ^ 32 - 1) ∧
    (∀ b, b ≠ a → (s.count a n).cnt b = s.cnt b) ∧ { s.count a n with cnts := s.cnts } = s

/-- A record of the configuration store counts once its valid word is programmed, is 128 bytes long and gives its body
back; one with its valid word still erased does not count (14 R349). -/
def Obligations.SealedRecordsCount : Prop :=
  ∀ (body : List Byte), body.length ≤ 120 →
    recordOk (sealRecord body) = true ∧ (sealRecord body).length = 128 ∧ (sealRecord body).take body.length = body ∧
    recordOk ((sealRecord body).take 124 ++ List.replicate 4 0xFF) = false

/-- A record receives its sequence when it is written to the ring, and the sequence increases by 1 for each record written;
the slot of its sequence holds its bytes, and no other slot changes. A record that waits, or that a full queue drops, has no
sequence: the next one and the ring stay as they are (16 R389). -/
def Obligations.RecordsAreNumbered : Prop :=
  (∀ (s : Chip) (e : Event),
    (s.writeRecord e).evr.next = s.evr.next + 1 ∧
    Tab.find (s.writeRecord e).evr.ring (s.evr.next % 65536) = some (e.bytes s.evr.next) ∧
    (∀ i, i ≠ s.evr.next % 65536 → Tab.find (s.writeRecord e).evr.ring i = Tab.find s.evr.ring i) ∧
    leField (e.bytes s.evr.next) 0 8 = s.evr.next % 2 ^ 64) ∧
  (∀ (s : Chip) (src inst code sev flags : Nat) (payload : List Byte), s.evr.canWrite = false →
    let t := s.raise src inst code sev flags payload
    t.evr.next = s.evr.next ∧ t.evr.ring = s.evr.ring ∧
    t.evr.queue = if s.evr.queue.length < 256 then
        s.evr.queue ++ [{ src, inst, code, sev, flags, payload, clamp := none }] else s.evr.queue)

/-- A region key holds the entry index in bits [31:16] and a generation in bits [15:0]; a key passes only while its
generation is the entry's current one, and a key with generation 0 always fails (05 R119). -/
def Obligations.RegionKeysCheckGenerations : Prop :=
  (∀ (idx gen : Nat), idx < 65536 → gen < 65536 →
    keyOf idx gen < 2 ^ 32 ∧ bits (keyOf idx gen) 31 16 = idx ∧ bits (keyOf idx gen) 15 0 = gen) ∧
  (∀ (s : Chip) (group op key start len : Nat), key < 2 ^ 32 →
    (s.checkKey group op key start len = none → bits key 15 0 = (s.region (bits key 31 16)).gen) ∧
    (bits key 15 0 = 0 → s.checkKey group op key start len ≠ none) ∧
    ((s.region (bits key 31 16)).live = true → bits key 15 0 = 0 ∨ bits key 15 0 ≠ (s.region (bits key 31 16)).gen →
      s.checkKey group op key start len = some (0x01, 1)))

/-- The fetch estimate of a stripe set (04 R110): a measured time moves the deviation by a quarter of its difference, with
the mean as it stood, then the mean by an eighth, in 1/64 µs, truncating toward zero; the estimate is m + 4v, doubled while
the set is reduced, rounded up to whole µs, and PGM_FETCH_EST reads it; a start sets m to 100 µs and v to 0. -/
def Obligations.FetchEstimateFollowsTimes : Prop :=
  (∀ (s : Chip) (i t : Nat),
    ((s.fetchTime i t).set i).v = (s.set i).v + Int.tdiv ((if (s.set i).m ≤ t then (t : Int) - (s.set i).m else (s.set i).m - t) - (s.set i).v) 4 ∧
    ((s.fetchTime i t).set i).m = (s.set i).m + Int.tdiv ((t : Int) - (s.set i).m) 8 ∧
    (∀ j, j ≠ i → (s.fetchTime i t).set j = s.set j)) ∧
  (∀ (s : Chip) (i e : Nat), (e : Int) = (s.set i).m + 4 * (s.set i).v →
    s.fetchEst i = (if (s.set i).rbState = 1 ∨ (s.set i).presentPos.length < (s.set i).cfg.n then (2 * e + 63) / 64 else (e + 63) / 64)) ∧
  (∀ (s : Chip) (otp : Otp) (q : Session) (i : Nat), i < 4 → s.regValue otp q (0x700200 + 4 * i) = some (s.fetchEst i)) ∧
  (∀ (s : Chip) (warm : Bool) (i : Nat), ((s.beginStart warm).set i).m = 100 * 64 ∧ ((s.beginStart warm).set i).v = 0)

/-- The value an atomic stores (04 R112, 03 R65): ADD the sum modulo 2^64, CAS the swap value where the word equals the
compare value and nothing otherwise; operands are little-endian. -/
def Obligations.AtomicsStoreLittleEndianWords : Prop :=
  ∀ (m : Msg) (old x y : Nat), old < 2 ^ 64 → x < 2 ^ 64 → y < 2 ^ 64 →
    (m.op = 0x04 → Tab.get m.parts [] 0 = le 8 x → m.atomicStores old = some ((old + x) % 2 ^ 64)) ∧
    (m.op = 0x05 → Tab.get m.parts [] 0 = le 8 x ++ le 8 y → m.atomicStores old = if old = x then some y else none)

/-- Bytes laid over a line change the bytes of the mask and no other byte of any frame, and keep the frames' memory in its
canonical form (06 R139, 08 R190). -/
def Obligations.LineWritesChangeMaskedBytesOnly : Prop :=
  ∀ (s : Chip) (line mask : Nat) (data : List Byte), data.length = 64 →
    (∀ i, i < 64 → Memory.read 0 (s.writeLine line data mask).pgm.frames (line * 64 + i) =
      if bit mask i then data.getD i 0 else Memory.read 0 s.pgm.frames (line * 64 + i)) ∧
    (∀ a, a < line * 64 ∨ line * 64 + 64 ≤ a →
      Memory.read 0 (s.writeLine line data mask).pgm.frames a = Memory.read 0 s.pgm.frames a) ∧
    (Memory.wf 0 s.pgm.frames = true → Memory.wf 0 (s.writeLine line data mask).pgm.frames = true) ∧
    { s.writeLine line data mask with pgm := s.pgm } = s

/-- GLB_ID has the fields of Table 17-5: revision 0xB0, die 0x4810, reserved zeros, and DEGRADED. The tables XPT_CONN_CTL
and XPT_CONN_STS are arrays of 16,384 entries, and an entry of a FREE connection reads 0 (its STATE, FREE, is 0)
(17 R420, R423). -/
def Obligations.IdentityAndFreeConnectionsRead : Prop :=
  (∀ (s : Chip) (otp : Otp) (q : Session), ∃ w, s.regValue otp q 0 = some w ∧ w < 2 ^ 32 ∧
    bits w 31 24 = 0xB0 ∧ bits w 23 8 = 0x4810 ∧ bits w 7 1 = 0 ∧ bit w 0 = s.glb.degraded) ∧
  (∀ (s : Chip) (otp : Otp) (q : Session) (n : Nat), n < 16384 →
    s.regValue otp q (0x220000 + 4 * n) = some 0 ∧
    ∀ k, k < 4 → (∃ w, s.regValue otp q (0x240000 + 16 * n + 4 * k) = some w) ∧
      (s.conn n = none → s.regValue otp q (0x240000 + 16 * n + 4 * k) = some 0))
end

