-- ==== Sys2Proof/Laws/State.lean ====
section
/-!
SUPPORT. What each named update of the chip leaves unchanged, field by field: one lemma for each, by unfolding.
-/
namespace Sys2Proof.Machine

/-! ### emit -/

@[simp] theorem Chip.emit_glb (s : Chip) (o : Out) : (s.emit o).glb = s.glb := rfl
@[simp] theorem Chip.emit_regs (s : Chip) (o : Out) : (s.emit o).regs = s.regs := rfl
@[simp] theorem Chip.emit_cnts (s : Chip) (o : Out) : (s.emit o).cnts = s.cnts := rfl
@[simp] theorem Chip.emit_hpx (s : Chip) (o : Out) : (s.emit o).hpx = s.hpx := rfl
@[simp] theorem Chip.emit_xpt (s : Chip) (o : Out) : (s.emit o).xpt = s.xpt := rfl
@[simp] theorem Chip.emit_rgn (s : Chip) (o : Out) : (s.emit o).rgn = s.rgn := rfl
@[simp] theorem Chip.emit_cmt (s : Chip) (o : Out) : (s.emit o).cmt = s.cmt := rfl
@[simp] theorem Chip.emit_bpm (s : Chip) (o : Out) : (s.emit o).bpm = s.bpm := rfl
@[simp] theorem Chip.emit_lcc (s : Chip) (o : Out) : (s.emit o).lcc = s.lcc := rfl
@[simp] theorem Chip.emit_pgm (s : Chip) (o : Out) : (s.emit o).pgm = s.pgm := rfl
@[simp] theorem Chip.emit_str (s : Chip) (o : Out) : (s.emit o).str = s.str := rfl
@[simp] theorem Chip.emit_dmc (s : Chip) (o : Out) : (s.emit o).dmc = s.dmc := rfl
@[simp] theorem Chip.emit_syz (s : Chip) (o : Out) : (s.emit o).syz = s.syz := rfl
@[simp] theorem Chip.emit_pws (s : Chip) (o : Out) : (s.emit o).pws = s.pws := rfl
@[simp] theorem Chip.emit_ecl (s : Chip) (o : Out) : (s.emit o).ecl = s.ecl := rfl
@[simp] theorem Chip.emit_cfg (s : Chip) (o : Out) : (s.emit o).cfg = s.cfg := rfl
@[simp] theorem Chip.emit_sec (s : Chip) (o : Out) : (s.emit o).sec = s.sec := rfl
@[simp] theorem Chip.emit_evr (s : Chip) (o : Out) : (s.emit o).evr = s.evr := rfl
@[simp] theorem Chip.emit_flt (s : Chip) (o : Out) : (s.emit o).flt = s.flt := rfl
@[simp] theorem Chip.emit_now (s : Chip) (o : Out) : (s.emit o).now = s.now := rfl
@[simp] theorem Chip.emit_fresh (s : Chip) (o : Out) : (s.emit o).fresh = s.fresh := rfl

/-! ### count -/

@[simp] theorem Chip.count_glb (s : Chip) (a n : Nat) : (s.count a n).glb = s.glb := rfl
@[simp] theorem Chip.count_regs (s : Chip) (a n : Nat) : (s.count a n).regs = s.regs := rfl
@[simp] theorem Chip.count_hpx (s : Chip) (a n : Nat) : (s.count a n).hpx = s.hpx := rfl
@[simp] theorem Chip.count_xpt (s : Chip) (a n : Nat) : (s.count a n).xpt = s.xpt := rfl
@[simp] theorem Chip.count_rgn (s : Chip) (a n : Nat) : (s.count a n).rgn = s.rgn := rfl
@[simp] theorem Chip.count_cmt (s : Chip) (a n : Nat) : (s.count a n).cmt = s.cmt := rfl
@[simp] theorem Chip.count_bpm (s : Chip) (a n : Nat) : (s.count a n).bpm = s.bpm := rfl
@[simp] theorem Chip.count_lcc (s : Chip) (a n : Nat) : (s.count a n).lcc = s.lcc := rfl
@[simp] theorem Chip.count_pgm (s : Chip) (a n : Nat) : (s.count a n).pgm = s.pgm := rfl
@[simp] theorem Chip.count_str (s : Chip) (a n : Nat) : (s.count a n).str = s.str := rfl
@[simp] theorem Chip.count_dmc (s : Chip) (a n : Nat) : (s.count a n).dmc = s.dmc := rfl
@[simp] theorem Chip.count_syz (s : Chip) (a n : Nat) : (s.count a n).syz = s.syz := rfl
@[simp] theorem Chip.count_pws (s : Chip) (a n : Nat) : (s.count a n).pws = s.pws := rfl
@[simp] theorem Chip.count_ecl (s : Chip) (a n : Nat) : (s.count a n).ecl = s.ecl := rfl
@[simp] theorem Chip.count_cfg (s : Chip) (a n : Nat) : (s.count a n).cfg = s.cfg := rfl
@[simp] theorem Chip.count_sec (s : Chip) (a n : Nat) : (s.count a n).sec = s.sec := rfl
@[simp] theorem Chip.count_evr (s : Chip) (a n : Nat) : (s.count a n).evr = s.evr := rfl
@[simp] theorem Chip.count_flt (s : Chip) (a n : Nat) : (s.count a n).flt = s.flt := rfl
@[simp] theorem Chip.count_now (s : Chip) (a n : Nat) : (s.count a n).now = s.now := rfl
@[simp] theorem Chip.count_out (s : Chip) (a n : Nat) : (s.count a n).out = s.out := rfl
@[simp] theorem Chip.count_fresh (s : Chip) (a n : Nat) : (s.count a n).fresh = s.fresh := rfl

/-! ### setConn -/

@[simp] theorem Chip.setConn_glb (s : Chip) (c : Nat) (k : Conn) : (s.setConn c k).glb = s.glb := rfl
@[simp] theorem Chip.setConn_regs (s : Chip) (c : Nat) (k : Conn) : (s.setConn c k).regs = s.regs := rfl
@[simp] theorem Chip.setConn_cnts (s : Chip) (c : Nat) (k : Conn) : (s.setConn c k).cnts = s.cnts := rfl
@[simp] theorem Chip.setConn_hpx (s : Chip) (c : Nat) (k : Conn) : (s.setConn c k).hpx = s.hpx := rfl
@[simp] theorem Chip.setConn_rgn (s : Chip) (c : Nat) (k : Conn) : (s.setConn c k).rgn = s.rgn := rfl
@[simp] theorem Chip.setConn_cmt (s : Chip) (c : Nat) (k : Conn) : (s.setConn c k).cmt = s.cmt := rfl
@[simp] theorem Chip.setConn_bpm (s : Chip) (c : Nat) (k : Conn) : (s.setConn c k).bpm = s.bpm := rfl
@[simp] theorem Chip.setConn_lcc (s : Chip) (c : Nat) (k : Conn) : (s.setConn c k).lcc = s.lcc := rfl
@[simp] theorem Chip.setConn_pgm (s : Chip) (c : Nat) (k : Conn) : (s.setConn c k).pgm = s.pgm := rfl
@[simp] theorem Chip.setConn_str (s : Chip) (c : Nat) (k : Conn) : (s.setConn c k).str = s.str := rfl
@[simp] theorem Chip.setConn_dmc (s : Chip) (c : Nat) (k : Conn) : (s.setConn c k).dmc = s.dmc := rfl
@[simp] theorem Chip.setConn_syz (s : Chip) (c : Nat) (k : Conn) : (s.setConn c k).syz = s.syz := rfl
@[simp] theorem Chip.setConn_pws (s : Chip) (c : Nat) (k : Conn) : (s.setConn c k).pws = s.pws := rfl
@[simp] theorem Chip.setConn_ecl (s : Chip) (c : Nat) (k : Conn) : (s.setConn c k).ecl = s.ecl := rfl
@[simp] theorem Chip.setConn_cfg (s : Chip) (c : Nat) (k : Conn) : (s.setConn c k).cfg = s.cfg := rfl
@[simp] theorem Chip.setConn_sec (s : Chip) (c : Nat) (k : Conn) : (s.setConn c k).sec = s.sec := rfl
@[simp] theorem Chip.setConn_evr (s : Chip) (c : Nat) (k : Conn) : (s.setConn c k).evr = s.evr := rfl
@[simp] theorem Chip.setConn_flt (s : Chip) (c : Nat) (k : Conn) : (s.setConn c k).flt = s.flt := rfl
@[simp] theorem Chip.setConn_now (s : Chip) (c : Nat) (k : Conn) : (s.setConn c k).now = s.now := rfl
@[simp] theorem Chip.setConn_out (s : Chip) (c : Nat) (k : Conn) : (s.setConn c k).out = s.out := rfl
@[simp] theorem Chip.setConn_fresh (s : Chip) (c : Nat) (k : Conn) : (s.setConn c k).fresh = s.fresh := rfl

/-! ### setPage -/

@[simp] theorem Chip.setPage_glb (s : Chip) (p : Nat) (g : Page) : (s.setPage p g).glb = s.glb := rfl
@[simp] theorem Chip.setPage_regs (s : Chip) (p : Nat) (g : Page) : (s.setPage p g).regs = s.regs := rfl
@[simp] theorem Chip.setPage_cnts (s : Chip) (p : Nat) (g : Page) : (s.setPage p g).cnts = s.cnts := rfl
@[simp] theorem Chip.setPage_hpx (s : Chip) (p : Nat) (g : Page) : (s.setPage p g).hpx = s.hpx := rfl
@[simp] theorem Chip.setPage_xpt (s : Chip) (p : Nat) (g : Page) : (s.setPage p g).xpt = s.xpt := rfl
@[simp] theorem Chip.setPage_rgn (s : Chip) (p : Nat) (g : Page) : (s.setPage p g).rgn = s.rgn := rfl
@[simp] theorem Chip.setPage_cmt (s : Chip) (p : Nat) (g : Page) : (s.setPage p g).cmt = s.cmt := rfl
@[simp] theorem Chip.setPage_bpm (s : Chip) (p : Nat) (g : Page) : (s.setPage p g).bpm = s.bpm := rfl
@[simp] theorem Chip.setPage_lcc (s : Chip) (p : Nat) (g : Page) : (s.setPage p g).lcc = s.lcc := rfl
@[simp] theorem Chip.setPage_str (s : Chip) (p : Nat) (g : Page) : (s.setPage p g).str = s.str := rfl
@[simp] theorem Chip.setPage_dmc (s : Chip) (p : Nat) (g : Page) : (s.setPage p g).dmc = s.dmc := rfl
@[simp] theorem Chip.setPage_syz (s : Chip) (p : Nat) (g : Page) : (s.setPage p g).syz = s.syz := rfl
@[simp] theorem Chip.setPage_pws (s : Chip) (p : Nat) (g : Page) : (s.setPage p g).pws = s.pws := rfl
@[simp] theorem Chip.setPage_ecl (s : Chip) (p : Nat) (g : Page) : (s.setPage p g).ecl = s.ecl := rfl
@[simp] theorem Chip.setPage_cfg (s : Chip) (p : Nat) (g : Page) : (s.setPage p g).cfg = s.cfg := rfl
@[simp] theorem Chip.setPage_sec (s : Chip) (p : Nat) (g : Page) : (s.setPage p g).sec = s.sec := rfl
@[simp] theorem Chip.setPage_evr (s : Chip) (p : Nat) (g : Page) : (s.setPage p g).evr = s.evr := rfl
@[simp] theorem Chip.setPage_flt (s : Chip) (p : Nat) (g : Page) : (s.setPage p g).flt = s.flt := rfl
@[simp] theorem Chip.setPage_now (s : Chip) (p : Nat) (g : Page) : (s.setPage p g).now = s.now := rfl
@[simp] theorem Chip.setPage_out (s : Chip) (p : Nat) (g : Page) : (s.setPage p g).out = s.out := rfl
@[simp] theorem Chip.setPage_fresh (s : Chip) (p : Nat) (g : Page) : (s.setPage p g).fresh = s.fresh := rfl

/-! ### setBank -/

@[simp] theorem Chip.setBank_glb (s : Chip) (b : Nat) (k : Bank) : (s.setBank b k).glb = s.glb := rfl
@[simp] theorem Chip.setBank_regs (s : Chip) (b : Nat) (k : Bank) : (s.setBank b k).regs = s.regs := rfl
@[simp] theorem Chip.setBank_cnts (s : Chip) (b : Nat) (k : Bank) : (s.setBank b k).cnts = s.cnts := rfl
@[simp] theorem Chip.setBank_hpx (s : Chip) (b : Nat) (k : Bank) : (s.setBank b k).hpx = s.hpx := rfl
@[simp] theorem Chip.setBank_xpt (s : Chip) (b : Nat) (k : Bank) : (s.setBank b k).xpt = s.xpt := rfl
@[simp] theorem Chip.setBank_rgn (s : Chip) (b : Nat) (k : Bank) : (s.setBank b k).rgn = s.rgn := rfl
@[simp] theorem Chip.setBank_cmt (s : Chip) (b : Nat) (k : Bank) : (s.setBank b k).cmt = s.cmt := rfl
@[simp] theorem Chip.setBank_bpm (s : Chip) (b : Nat) (k : Bank) : (s.setBank b k).bpm = s.bpm := rfl
@[simp] theorem Chip.setBank_pgm (s : Chip) (b : Nat) (k : Bank) : (s.setBank b k).pgm = s.pgm := rfl
@[simp] theorem Chip.setBank_str (s : Chip) (b : Nat) (k : Bank) : (s.setBank b k).str = s.str := rfl
@[simp] theorem Chip.setBank_dmc (s : Chip) (b : Nat) (k : Bank) : (s.setBank b k).dmc = s.dmc := rfl
@[simp] theorem Chip.setBank_syz (s : Chip) (b : Nat) (k : Bank) : (s.setBank b k).syz = s.syz := rfl
@[simp] theorem Chip.setBank_pws (s : Chip) (b : Nat) (k : Bank) : (s.setBank b k).pws = s.pws := rfl
@[simp] theorem Chip.setBank_ecl (s : Chip) (b : Nat) (k : Bank) : (s.setBank b k).ecl = s.ecl := rfl
@[simp] theorem Chip.setBank_cfg (s : Chip) (b : Nat) (k : Bank) : (s.setBank b k).cfg = s.cfg := rfl
@[simp] theorem Chip.setBank_sec (s : Chip) (b : Nat) (k : Bank) : (s.setBank b k).sec = s.sec := rfl
@[simp] theorem Chip.setBank_evr (s : Chip) (b : Nat) (k : Bank) : (s.setBank b k).evr = s.evr := rfl
@[simp] theorem Chip.setBank_flt (s : Chip) (b : Nat) (k : Bank) : (s.setBank b k).flt = s.flt := rfl
@[simp] theorem Chip.setBank_now (s : Chip) (b : Nat) (k : Bank) : (s.setBank b k).now = s.now := rfl
@[simp] theorem Chip.setBank_out (s : Chip) (b : Nat) (k : Bank) : (s.setBank b k).out = s.out := rfl
@[simp] theorem Chip.setBank_fresh (s : Chip) (b : Nat) (k : Bank) : (s.setBank b k).fresh = s.fresh := rfl

/-! ### modBank -/

@[simp] theorem Chip.modBank_glb (s : Chip) (b : Nat) (f : Bank → Bank) : (s.modBank b f).glb = s.glb := rfl
@[simp] theorem Chip.modBank_regs (s : Chip) (b : Nat) (f : Bank → Bank) : (s.modBank b f).regs = s.regs := rfl
@[simp] theorem Chip.modBank_cnts (s : Chip) (b : Nat) (f : Bank → Bank) : (s.modBank b f).cnts = s.cnts := rfl
@[simp] theorem Chip.modBank_hpx (s : Chip) (b : Nat) (f : Bank → Bank) : (s.modBank b f).hpx = s.hpx := rfl
@[simp] theorem Chip.modBank_xpt (s : Chip) (b : Nat) (f : Bank → Bank) : (s.modBank b f).xpt = s.xpt := rfl
@[simp] theorem Chip.modBank_rgn (s : Chip) (b : Nat) (f : Bank → Bank) : (s.modBank b f).rgn = s.rgn := rfl
@[simp] theorem Chip.modBank_cmt (s : Chip) (b : Nat) (f : Bank → Bank) : (s.modBank b f).cmt = s.cmt := rfl
@[simp] theorem Chip.modBank_bpm (s : Chip) (b : Nat) (f : Bank → Bank) : (s.modBank b f).bpm = s.bpm := rfl
@[simp] theorem Chip.modBank_pgm (s : Chip) (b : Nat) (f : Bank → Bank) : (s.modBank b f).pgm = s.pgm := rfl
@[simp] theorem Chip.modBank_str (s : Chip) (b : Nat) (f : Bank → Bank) : (s.modBank b f).str = s.str := rfl
@[simp] theorem Chip.modBank_dmc (s : Chip) (b : Nat) (f : Bank → Bank) : (s.modBank b f).dmc = s.dmc := rfl
@[simp] theorem Chip.modBank_syz (s : Chip) (b : Nat) (f : Bank → Bank) : (s.modBank b f).syz = s.syz := rfl
@[simp] theorem Chip.modBank_pws (s : Chip) (b : Nat) (f : Bank → Bank) : (s.modBank b f).pws = s.pws := rfl
@[simp] theorem Chip.modBank_ecl (s : Chip) (b : Nat) (f : Bank → Bank) : (s.modBank b f).ecl = s.ecl := rfl
@[simp] theorem Chip.modBank_cfg (s : Chip) (b : Nat) (f : Bank → Bank) : (s.modBank b f).cfg = s.cfg := rfl
@[simp] theorem Chip.modBank_sec (s : Chip) (b : Nat) (f : Bank → Bank) : (s.modBank b f).sec = s.sec := rfl
@[simp] theorem Chip.modBank_evr (s : Chip) (b : Nat) (f : Bank → Bank) : (s.modBank b f).evr = s.evr := rfl
@[simp] theorem Chip.modBank_flt (s : Chip) (b : Nat) (f : Bank → Bank) : (s.modBank b f).flt = s.flt := rfl
@[simp] theorem Chip.modBank_now (s : Chip) (b : Nat) (f : Bank → Bank) : (s.modBank b f).now = s.now := rfl
@[simp] theorem Chip.modBank_out (s : Chip) (b : Nat) (f : Bank → Bank) : (s.modBank b f).out = s.out := rfl
@[simp] theorem Chip.modBank_fresh (s : Chip) (b : Nat) (f : Bank → Bank) : (s.modBank b f).fresh = s.fresh := rfl

/-! ### modDrive -/

@[simp] theorem Chip.modDrive_glb (s : Chip) (d : Nat) (f : Drive → Drive) : (s.modDrive d f).glb = s.glb := rfl
@[simp] theorem Chip.modDrive_regs (s : Chip) (d : Nat) (f : Drive → Drive) : (s.modDrive d f).regs = s.regs := rfl
@[simp] theorem Chip.modDrive_cnts (s : Chip) (d : Nat) (f : Drive → Drive) : (s.modDrive d f).cnts = s.cnts := rfl
@[simp] theorem Chip.modDrive_hpx (s : Chip) (d : Nat) (f : Drive → Drive) : (s.modDrive d f).hpx = s.hpx := rfl
@[simp] theorem Chip.modDrive_xpt (s : Chip) (d : Nat) (f : Drive → Drive) : (s.modDrive d f).xpt = s.xpt := rfl
@[simp] theorem Chip.modDrive_rgn (s : Chip) (d : Nat) (f : Drive → Drive) : (s.modDrive d f).rgn = s.rgn := rfl
@[simp] theorem Chip.modDrive_cmt (s : Chip) (d : Nat) (f : Drive → Drive) : (s.modDrive d f).cmt = s.cmt := rfl
@[simp] theorem Chip.modDrive_bpm (s : Chip) (d : Nat) (f : Drive → Drive) : (s.modDrive d f).bpm = s.bpm := rfl
@[simp] theorem Chip.modDrive_lcc (s : Chip) (d : Nat) (f : Drive → Drive) : (s.modDrive d f).lcc = s.lcc := rfl
@[simp] theorem Chip.modDrive_pgm (s : Chip) (d : Nat) (f : Drive → Drive) : (s.modDrive d f).pgm = s.pgm := rfl
@[simp] theorem Chip.modDrive_dmc (s : Chip) (d : Nat) (f : Drive → Drive) : (s.modDrive d f).dmc = s.dmc := rfl
@[simp] theorem Chip.modDrive_syz (s : Chip) (d : Nat) (f : Drive → Drive) : (s.modDrive d f).syz = s.syz := rfl
@[simp] theorem Chip.modDrive_pws (s : Chip) (d : Nat) (f : Drive → Drive) : (s.modDrive d f).pws = s.pws := rfl
@[simp] theorem Chip.modDrive_ecl (s : Chip) (d : Nat) (f : Drive → Drive) : (s.modDrive d f).ecl = s.ecl := rfl
@[simp] theorem Chip.modDrive_cfg (s : Chip) (d : Nat) (f : Drive → Drive) : (s.modDrive d f).cfg = s.cfg := rfl
@[simp] theorem Chip.modDrive_sec (s : Chip) (d : Nat) (f : Drive → Drive) : (s.modDrive d f).sec = s.sec := rfl
@[simp] theorem Chip.modDrive_evr (s : Chip) (d : Nat) (f : Drive → Drive) : (s.modDrive d f).evr = s.evr := rfl
@[simp] theorem Chip.modDrive_flt (s : Chip) (d : Nat) (f : Drive → Drive) : (s.modDrive d f).flt = s.flt := rfl
@[simp] theorem Chip.modDrive_now (s : Chip) (d : Nat) (f : Drive → Drive) : (s.modDrive d f).now = s.now := rfl
@[simp] theorem Chip.modDrive_out (s : Chip) (d : Nat) (f : Drive → Drive) : (s.modDrive d f).out = s.out := rfl
@[simp] theorem Chip.modDrive_fresh (s : Chip) (d : Nat) (f : Drive → Drive) : (s.modDrive d f).fresh = s.fresh := rfl

/-! ### modSet -/

@[simp] theorem Chip.modSet_glb (s : Chip) (i : Nat) (f : StripeSet → StripeSet) : (s.modSet i f).glb = s.glb := rfl
@[simp] theorem Chip.modSet_regs (s : Chip) (i : Nat) (f : StripeSet → StripeSet) : (s.modSet i f).regs = s.regs := rfl
@[simp] theorem Chip.modSet_cnts (s : Chip) (i : Nat) (f : StripeSet → StripeSet) : (s.modSet i f).cnts = s.cnts := rfl
@[simp] theorem Chip.modSet_hpx (s : Chip) (i : Nat) (f : StripeSet → StripeSet) : (s.modSet i f).hpx = s.hpx := rfl
@[simp] theorem Chip.modSet_xpt (s : Chip) (i : Nat) (f : StripeSet → StripeSet) : (s.modSet i f).xpt = s.xpt := rfl
@[simp] theorem Chip.modSet_rgn (s : Chip) (i : Nat) (f : StripeSet → StripeSet) : (s.modSet i f).rgn = s.rgn := rfl
@[simp] theorem Chip.modSet_cmt (s : Chip) (i : Nat) (f : StripeSet → StripeSet) : (s.modSet i f).cmt = s.cmt := rfl
@[simp] theorem Chip.modSet_bpm (s : Chip) (i : Nat) (f : StripeSet → StripeSet) : (s.modSet i f).bpm = s.bpm := rfl
@[simp] theorem Chip.modSet_lcc (s : Chip) (i : Nat) (f : StripeSet → StripeSet) : (s.modSet i f).lcc = s.lcc := rfl
@[simp] theorem Chip.modSet_pgm (s : Chip) (i : Nat) (f : StripeSet → StripeSet) : (s.modSet i f).pgm = s.pgm := rfl
@[simp] theorem Chip.modSet_dmc (s : Chip) (i : Nat) (f : StripeSet → StripeSet) : (s.modSet i f).dmc = s.dmc := rfl
@[simp] theorem Chip.modSet_syz (s : Chip) (i : Nat) (f : StripeSet → StripeSet) : (s.modSet i f).syz = s.syz := rfl
@[simp] theorem Chip.modSet_pws (s : Chip) (i : Nat) (f : StripeSet → StripeSet) : (s.modSet i f).pws = s.pws := rfl
@[simp] theorem Chip.modSet_ecl (s : Chip) (i : Nat) (f : StripeSet → StripeSet) : (s.modSet i f).ecl = s.ecl := rfl
@[simp] theorem Chip.modSet_cfg (s : Chip) (i : Nat) (f : StripeSet → StripeSet) : (s.modSet i f).cfg = s.cfg := rfl
@[simp] theorem Chip.modSet_sec (s : Chip) (i : Nat) (f : StripeSet → StripeSet) : (s.modSet i f).sec = s.sec := rfl
@[simp] theorem Chip.modSet_evr (s : Chip) (i : Nat) (f : StripeSet → StripeSet) : (s.modSet i f).evr = s.evr := rfl
@[simp] theorem Chip.modSet_flt (s : Chip) (i : Nat) (f : StripeSet → StripeSet) : (s.modSet i f).flt = s.flt := rfl
@[simp] theorem Chip.modSet_now (s : Chip) (i : Nat) (f : StripeSet → StripeSet) : (s.modSet i f).now = s.now := rfl
@[simp] theorem Chip.modSet_out (s : Chip) (i : Nat) (f : StripeSet → StripeSet) : (s.modSet i f).out = s.out := rfl
@[simp] theorem Chip.modSet_fresh (s : Chip) (i : Nat) (f : StripeSet → StripeSet) : (s.modSet i f).fresh = s.fresh := rfl

/-! ### modChan -/

@[simp] theorem Chip.modChan_glb (s : Chip) (n : Nat) (f : Channel → Channel) : (s.modChan n f).glb = s.glb := rfl
@[simp] theorem Chip.modChan_regs (s : Chip) (n : Nat) (f : Channel → Channel) : (s.modChan n f).regs = s.regs := rfl
@[simp] theorem Chip.modChan_cnts (s : Chip) (n : Nat) (f : Channel → Channel) : (s.modChan n f).cnts = s.cnts := rfl
@[simp] theorem Chip.modChan_hpx (s : Chip) (n : Nat) (f : Channel → Channel) : (s.modChan n f).hpx = s.hpx := rfl
@[simp] theorem Chip.modChan_xpt (s : Chip) (n : Nat) (f : Channel → Channel) : (s.modChan n f).xpt = s.xpt := rfl
@[simp] theorem Chip.modChan_rgn (s : Chip) (n : Nat) (f : Channel → Channel) : (s.modChan n f).rgn = s.rgn := rfl
@[simp] theorem Chip.modChan_cmt (s : Chip) (n : Nat) (f : Channel → Channel) : (s.modChan n f).cmt = s.cmt := rfl
@[simp] theorem Chip.modChan_bpm (s : Chip) (n : Nat) (f : Channel → Channel) : (s.modChan n f).bpm = s.bpm := rfl
@[simp] theorem Chip.modChan_lcc (s : Chip) (n : Nat) (f : Channel → Channel) : (s.modChan n f).lcc = s.lcc := rfl
@[simp] theorem Chip.modChan_pgm (s : Chip) (n : Nat) (f : Channel → Channel) : (s.modChan n f).pgm = s.pgm := rfl
@[simp] theorem Chip.modChan_str (s : Chip) (n : Nat) (f : Channel → Channel) : (s.modChan n f).str = s.str := rfl
@[simp] theorem Chip.modChan_syz (s : Chip) (n : Nat) (f : Channel → Channel) : (s.modChan n f).syz = s.syz := rfl
@[simp] theorem Chip.modChan_pws (s : Chip) (n : Nat) (f : Channel → Channel) : (s.modChan n f).pws = s.pws := rfl
@[simp] theorem Chip.modChan_ecl (s : Chip) (n : Nat) (f : Channel → Channel) : (s.modChan n f).ecl = s.ecl := rfl
@[simp] theorem Chip.modChan_cfg (s : Chip) (n : Nat) (f : Channel → Channel) : (s.modChan n f).cfg = s.cfg := rfl
@[simp] theorem Chip.modChan_sec (s : Chip) (n : Nat) (f : Channel → Channel) : (s.modChan n f).sec = s.sec := rfl
@[simp] theorem Chip.modChan_evr (s : Chip) (n : Nat) (f : Channel → Channel) : (s.modChan n f).evr = s.evr := rfl
@[simp] theorem Chip.modChan_flt (s : Chip) (n : Nat) (f : Channel → Channel) : (s.modChan n f).flt = s.flt := rfl
@[simp] theorem Chip.modChan_now (s : Chip) (n : Nat) (f : Channel → Channel) : (s.modChan n f).now = s.now := rfl
@[simp] theorem Chip.modChan_out (s : Chip) (n : Nat) (f : Channel → Channel) : (s.modChan n f).out = s.out := rfl
@[simp] theorem Chip.modChan_fresh (s : Chip) (n : Nat) (f : Channel → Channel) : (s.modChan n f).fresh = s.fresh := rfl

/-! ### setRegion -/

@[simp] theorem Chip.setRegion_glb (s : Chip) (i : Nat) (r : Region) : (s.setRegion i r).glb = s.glb := rfl
@[simp] theorem Chip.setRegion_regs (s : Chip) (i : Nat) (r : Region) : (s.setRegion i r).regs = s.regs := rfl
@[simp] theorem Chip.setRegion_cnts (s : Chip) (i : Nat) (r : Region) : (s.setRegion i r).cnts = s.cnts := rfl
@[simp] theorem Chip.setRegion_hpx (s : Chip) (i : Nat) (r : Region) : (s.setRegion i r).hpx = s.hpx := rfl
@[simp] theorem Chip.setRegion_xpt (s : Chip) (i : Nat) (r : Region) : (s.setRegion i r).xpt = s.xpt := rfl
@[simp] theorem Chip.setRegion_cmt (s : Chip) (i : Nat) (r : Region) : (s.setRegion i r).cmt = s.cmt := rfl
@[simp] theorem Chip.setRegion_bpm (s : Chip) (i : Nat) (r : Region) : (s.setRegion i r).bpm = s.bpm := rfl
@[simp] theorem Chip.setRegion_lcc (s : Chip) (i : Nat) (r : Region) : (s.setRegion i r).lcc = s.lcc := rfl
@[simp] theorem Chip.setRegion_pgm (s : Chip) (i : Nat) (r : Region) : (s.setRegion i r).pgm = s.pgm := rfl
@[simp] theorem Chip.setRegion_str (s : Chip) (i : Nat) (r : Region) : (s.setRegion i r).str = s.str := rfl
@[simp] theorem Chip.setRegion_dmc (s : Chip) (i : Nat) (r : Region) : (s.setRegion i r).dmc = s.dmc := rfl
@[simp] theorem Chip.setRegion_syz (s : Chip) (i : Nat) (r : Region) : (s.setRegion i r).syz = s.syz := rfl
@[simp] theorem Chip.setRegion_pws (s : Chip) (i : Nat) (r : Region) : (s.setRegion i r).pws = s.pws := rfl
@[simp] theorem Chip.setRegion_ecl (s : Chip) (i : Nat) (r : Region) : (s.setRegion i r).ecl = s.ecl := rfl
@[simp] theorem Chip.setRegion_cfg (s : Chip) (i : Nat) (r : Region) : (s.setRegion i r).cfg = s.cfg := rfl
@[simp] theorem Chip.setRegion_sec (s : Chip) (i : Nat) (r : Region) : (s.setRegion i r).sec = s.sec := rfl
@[simp] theorem Chip.setRegion_evr (s : Chip) (i : Nat) (r : Region) : (s.setRegion i r).evr = s.evr := rfl
@[simp] theorem Chip.setRegion_flt (s : Chip) (i : Nat) (r : Region) : (s.setRegion i r).flt = s.flt := rfl
@[simp] theorem Chip.setRegion_now (s : Chip) (i : Nat) (r : Region) : (s.setRegion i r).now = s.now := rfl
@[simp] theorem Chip.setRegion_out (s : Chip) (i : Nat) (r : Region) : (s.setRegion i r).out = s.out := rfl
@[simp] theorem Chip.setRegion_fresh (s : Chip) (i : Nat) (r : Region) : (s.setRegion i r).fresh = s.fresh := rfl

/-! ### setPar -/

@[simp] theorem Chip.setPar_glb (s : Chip) (a v : Nat) : (s.setPar a v).glb = s.glb := rfl
@[simp] theorem Chip.setPar_cnts (s : Chip) (a v : Nat) : (s.setPar a v).cnts = s.cnts := rfl
@[simp] theorem Chip.setPar_hpx (s : Chip) (a v : Nat) : (s.setPar a v).hpx = s.hpx := rfl
@[simp] theorem Chip.setPar_xpt (s : Chip) (a v : Nat) : (s.setPar a v).xpt = s.xpt := rfl
@[simp] theorem Chip.setPar_rgn (s : Chip) (a v : Nat) : (s.setPar a v).rgn = s.rgn := rfl
@[simp] theorem Chip.setPar_cmt (s : Chip) (a v : Nat) : (s.setPar a v).cmt = s.cmt := rfl
@[simp] theorem Chip.setPar_bpm (s : Chip) (a v : Nat) : (s.setPar a v).bpm = s.bpm := rfl
@[simp] theorem Chip.setPar_lcc (s : Chip) (a v : Nat) : (s.setPar a v).lcc = s.lcc := rfl
@[simp] theorem Chip.setPar_pgm (s : Chip) (a v : Nat) : (s.setPar a v).pgm = s.pgm := rfl
@[simp] theorem Chip.setPar_str (s : Chip) (a v : Nat) : (s.setPar a v).str = s.str := rfl
@[simp] theorem Chip.setPar_dmc (s : Chip) (a v : Nat) : (s.setPar a v).dmc = s.dmc := rfl
@[simp] theorem Chip.setPar_syz (s : Chip) (a v : Nat) : (s.setPar a v).syz = s.syz := rfl
@[simp] theorem Chip.setPar_pws (s : Chip) (a v : Nat) : (s.setPar a v).pws = s.pws := rfl
@[simp] theorem Chip.setPar_ecl (s : Chip) (a v : Nat) : (s.setPar a v).ecl = s.ecl := rfl
@[simp] theorem Chip.setPar_cfg (s : Chip) (a v : Nat) : (s.setPar a v).cfg = s.cfg := rfl
@[simp] theorem Chip.setPar_sec (s : Chip) (a v : Nat) : (s.setPar a v).sec = s.sec := rfl
@[simp] theorem Chip.setPar_evr (s : Chip) (a v : Nat) : (s.setPar a v).evr = s.evr := rfl
@[simp] theorem Chip.setPar_flt (s : Chip) (a v : Nat) : (s.setPar a v).flt = s.flt := rfl
@[simp] theorem Chip.setPar_now (s : Chip) (a v : Nat) : (s.setPar a v).now = s.now := rfl
@[simp] theorem Chip.setPar_out (s : Chip) (a v : Nat) : (s.setPar a v).out = s.out := rfl
@[simp] theorem Chip.setPar_fresh (s : Chip) (a v : Nat) : (s.setPar a v).fresh = s.fresh := rfl

/-! ### gate -/

@[simp] theorem Chip.gate_glb (s : Chip) (ds : List Nat) (b : Bool) : (s.gate ds b).glb = s.glb := rfl
@[simp] theorem Chip.gate_regs (s : Chip) (ds : List Nat) (b : Bool) : (s.gate ds b).regs = s.regs := rfl
@[simp] theorem Chip.gate_cnts (s : Chip) (ds : List Nat) (b : Bool) : (s.gate ds b).cnts = s.cnts := rfl
@[simp] theorem Chip.gate_hpx (s : Chip) (ds : List Nat) (b : Bool) : (s.gate ds b).hpx = s.hpx := rfl
@[simp] theorem Chip.gate_xpt (s : Chip) (ds : List Nat) (b : Bool) : (s.gate ds b).xpt = s.xpt := rfl
@[simp] theorem Chip.gate_rgn (s : Chip) (ds : List Nat) (b : Bool) : (s.gate ds b).rgn = s.rgn := rfl
@[simp] theorem Chip.gate_cmt (s : Chip) (ds : List Nat) (b : Bool) : (s.gate ds b).cmt = s.cmt := rfl
@[simp] theorem Chip.gate_bpm (s : Chip) (ds : List Nat) (b : Bool) : (s.gate ds b).bpm = s.bpm := rfl
@[simp] theorem Chip.gate_lcc (s : Chip) (ds : List Nat) (b : Bool) : (s.gate ds b).lcc = s.lcc := rfl
@[simp] theorem Chip.gate_pgm (s : Chip) (ds : List Nat) (b : Bool) : (s.gate ds b).pgm = s.pgm := rfl
@[simp] theorem Chip.gate_str (s : Chip) (ds : List Nat) (b : Bool) : (s.gate ds b).str = s.str := rfl
@[simp] theorem Chip.gate_dmc (s : Chip) (ds : List Nat) (b : Bool) : (s.gate ds b).dmc = s.dmc := rfl
@[simp] theorem Chip.gate_syz (s : Chip) (ds : List Nat) (b : Bool) : (s.gate ds b).syz = s.syz := rfl
@[simp] theorem Chip.gate_ecl (s : Chip) (ds : List Nat) (b : Bool) : (s.gate ds b).ecl = s.ecl := rfl
@[simp] theorem Chip.gate_cfg (s : Chip) (ds : List Nat) (b : Bool) : (s.gate ds b).cfg = s.cfg := rfl
@[simp] theorem Chip.gate_sec (s : Chip) (ds : List Nat) (b : Bool) : (s.gate ds b).sec = s.sec := rfl
@[simp] theorem Chip.gate_evr (s : Chip) (ds : List Nat) (b : Bool) : (s.gate ds b).evr = s.evr := rfl
@[simp] theorem Chip.gate_flt (s : Chip) (ds : List Nat) (b : Bool) : (s.gate ds b).flt = s.flt := rfl
@[simp] theorem Chip.gate_now (s : Chip) (ds : List Nat) (b : Bool) : (s.gate ds b).now = s.now := rfl
@[simp] theorem Chip.gate_out (s : Chip) (ds : List Nat) (b : Bool) : (s.gate ds b).out = s.out := rfl
@[simp] theorem Chip.gate_fresh (s : Chip) (ds : List Nat) (b : Bool) : (s.gate ds b).fresh = s.fresh := rfl

/-! ### modRail -/

@[simp] theorem Chip.modRail_glb (s : Chip) (k : Nat) (f : Rail → Rail) : (s.modRail k f).glb = s.glb := rfl
@[simp] theorem Chip.modRail_regs (s : Chip) (k : Nat) (f : Rail → Rail) : (s.modRail k f).regs = s.regs := rfl
@[simp] theorem Chip.modRail_cnts (s : Chip) (k : Nat) (f : Rail → Rail) : (s.modRail k f).cnts = s.cnts := rfl
@[simp] theorem Chip.modRail_hpx (s : Chip) (k : Nat) (f : Rail → Rail) : (s.modRail k f).hpx = s.hpx := rfl
@[simp] theorem Chip.modRail_xpt (s : Chip) (k : Nat) (f : Rail → Rail) : (s.modRail k f).xpt = s.xpt := rfl
@[simp] theorem Chip.modRail_rgn (s : Chip) (k : Nat) (f : Rail → Rail) : (s.modRail k f).rgn = s.rgn := rfl
@[simp] theorem Chip.modRail_cmt (s : Chip) (k : Nat) (f : Rail → Rail) : (s.modRail k f).cmt = s.cmt := rfl
@[simp] theorem Chip.modRail_bpm (s : Chip) (k : Nat) (f : Rail → Rail) : (s.modRail k f).bpm = s.bpm := rfl
@[simp] theorem Chip.modRail_lcc (s : Chip) (k : Nat) (f : Rail → Rail) : (s.modRail k f).lcc = s.lcc := rfl
@[simp] theorem Chip.modRail_pgm (s : Chip) (k : Nat) (f : Rail → Rail) : (s.modRail k f).pgm = s.pgm := rfl
@[simp] theorem Chip.modRail_str (s : Chip) (k : Nat) (f : Rail → Rail) : (s.modRail k f).str = s.str := rfl
@[simp] theorem Chip.modRail_dmc (s : Chip) (k : Nat) (f : Rail → Rail) : (s.modRail k f).dmc = s.dmc := rfl
@[simp] theorem Chip.modRail_syz (s : Chip) (k : Nat) (f : Rail → Rail) : (s.modRail k f).syz = s.syz := rfl
@[simp] theorem Chip.modRail_ecl (s : Chip) (k : Nat) (f : Rail → Rail) : (s.modRail k f).ecl = s.ecl := rfl
@[simp] theorem Chip.modRail_cfg (s : Chip) (k : Nat) (f : Rail → Rail) : (s.modRail k f).cfg = s.cfg := rfl
@[simp] theorem Chip.modRail_sec (s : Chip) (k : Nat) (f : Rail → Rail) : (s.modRail k f).sec = s.sec := rfl
@[simp] theorem Chip.modRail_evr (s : Chip) (k : Nat) (f : Rail → Rail) : (s.modRail k f).evr = s.evr := rfl
@[simp] theorem Chip.modRail_flt (s : Chip) (k : Nat) (f : Rail → Rail) : (s.modRail k f).flt = s.flt := rfl
@[simp] theorem Chip.modRail_now (s : Chip) (k : Nat) (f : Rail → Rail) : (s.modRail k f).now = s.now := rfl
@[simp] theorem Chip.modRail_out (s : Chip) (k : Nat) (f : Rail → Rail) : (s.modRail k f).out = s.out := rfl
@[simp] theorem Chip.modRail_fresh (s : Chip) (k : Nat) (f : Rail → Rail) : (s.modRail k f).fresh = s.fresh := rfl

/-! ### askRecord -/

@[simp] theorem Chip.askRecord_glb (s : Chip) (a : Nat) (b : List Byte) : (s.askRecord a b).glb = s.glb := rfl
@[simp] theorem Chip.askRecord_regs (s : Chip) (a : Nat) (b : List Byte) : (s.askRecord a b).regs = s.regs := rfl
@[simp] theorem Chip.askRecord_cnts (s : Chip) (a : Nat) (b : List Byte) : (s.askRecord a b).cnts = s.cnts := rfl
@[simp] theorem Chip.askRecord_hpx (s : Chip) (a : Nat) (b : List Byte) : (s.askRecord a b).hpx = s.hpx := rfl
@[simp] theorem Chip.askRecord_xpt (s : Chip) (a : Nat) (b : List Byte) : (s.askRecord a b).xpt = s.xpt := rfl
@[simp] theorem Chip.askRecord_rgn (s : Chip) (a : Nat) (b : List Byte) : (s.askRecord a b).rgn = s.rgn := rfl
@[simp] theorem Chip.askRecord_cmt (s : Chip) (a : Nat) (b : List Byte) : (s.askRecord a b).cmt = s.cmt := rfl
@[simp] theorem Chip.askRecord_bpm (s : Chip) (a : Nat) (b : List Byte) : (s.askRecord a b).bpm = s.bpm := rfl
@[simp] theorem Chip.askRecord_lcc (s : Chip) (a : Nat) (b : List Byte) : (s.askRecord a b).lcc = s.lcc := rfl
@[simp] theorem Chip.askRecord_pgm (s : Chip) (a : Nat) (b : List Byte) : (s.askRecord a b).pgm = s.pgm := rfl
@[simp] theorem Chip.askRecord_str (s : Chip) (a : Nat) (b : List Byte) : (s.askRecord a b).str = s.str := rfl
@[simp] theorem Chip.askRecord_dmc (s : Chip) (a : Nat) (b : List Byte) : (s.askRecord a b).dmc = s.dmc := rfl
@[simp] theorem Chip.askRecord_syz (s : Chip) (a : Nat) (b : List Byte) : (s.askRecord a b).syz = s.syz := rfl
@[simp] theorem Chip.askRecord_pws (s : Chip) (a : Nat) (b : List Byte) : (s.askRecord a b).pws = s.pws := rfl
@[simp] theorem Chip.askRecord_ecl (s : Chip) (a : Nat) (b : List Byte) : (s.askRecord a b).ecl = s.ecl := rfl
@[simp] theorem Chip.askRecord_sec (s : Chip) (a : Nat) (b : List Byte) : (s.askRecord a b).sec = s.sec := rfl
@[simp] theorem Chip.askRecord_evr (s : Chip) (a : Nat) (b : List Byte) : (s.askRecord a b).evr = s.evr := rfl
@[simp] theorem Chip.askRecord_flt (s : Chip) (a : Nat) (b : List Byte) : (s.askRecord a b).flt = s.flt := rfl
@[simp] theorem Chip.askRecord_now (s : Chip) (a : Nat) (b : List Byte) : (s.askRecord a b).now = s.now := rfl
@[simp] theorem Chip.askRecord_out (s : Chip) (a : Nat) (b : List Byte) : (s.askRecord a b).out = s.out := rfl
@[simp] theorem Chip.askRecord_fresh (s : Chip) (a : Nat) (b : List Byte) : (s.askRecord a b).fresh = s.fresh := rfl

/-! ### train -/

@[simp] theorem Chip.train_glb (s : Chip) (p : Nat) (on : Bool) : (s.train p on).glb = s.glb := rfl
@[simp] theorem Chip.train_regs (s : Chip) (p : Nat) (on : Bool) : (s.train p on).regs = s.regs := rfl
@[simp] theorem Chip.train_cnts (s : Chip) (p : Nat) (on : Bool) : (s.train p on).cnts = s.cnts := rfl
@[simp] theorem Chip.train_xpt (s : Chip) (p : Nat) (on : Bool) : (s.train p on).xpt = s.xpt := rfl
@[simp] theorem Chip.train_rgn (s : Chip) (p : Nat) (on : Bool) : (s.train p on).rgn = s.rgn := rfl
@[simp] theorem Chip.train_cmt (s : Chip) (p : Nat) (on : Bool) : (s.train p on).cmt = s.cmt := rfl
@[simp] theorem Chip.train_bpm (s : Chip) (p : Nat) (on : Bool) : (s.train p on).bpm = s.bpm := rfl
@[simp] theorem Chip.train_lcc (s : Chip) (p : Nat) (on : Bool) : (s.train p on).lcc = s.lcc := rfl
@[simp] theorem Chip.train_pgm (s : Chip) (p : Nat) (on : Bool) : (s.train p on).pgm = s.pgm := rfl
@[simp] theorem Chip.train_str (s : Chip) (p : Nat) (on : Bool) : (s.train p on).str = s.str := rfl
@[simp] theorem Chip.train_dmc (s : Chip) (p : Nat) (on : Bool) : (s.train p on).dmc = s.dmc := rfl
@[simp] theorem Chip.train_syz (s : Chip) (p : Nat) (on : Bool) : (s.train p on).syz = s.syz := rfl
@[simp] theorem Chip.train_pws (s : Chip) (p : Nat) (on : Bool) : (s.train p on).pws = s.pws := rfl
@[simp] theorem Chip.train_ecl (s : Chip) (p : Nat) (on : Bool) : (s.train p on).ecl = s.ecl := rfl
@[simp] theorem Chip.train_cfg (s : Chip) (p : Nat) (on : Bool) : (s.train p on).cfg = s.cfg := rfl
@[simp] theorem Chip.train_sec (s : Chip) (p : Nat) (on : Bool) : (s.train p on).sec = s.sec := rfl
@[simp] theorem Chip.train_evr (s : Chip) (p : Nat) (on : Bool) : (s.train p on).evr = s.evr := rfl
@[simp] theorem Chip.train_flt (s : Chip) (p : Nat) (on : Bool) : (s.train p on).flt = s.flt := rfl
@[simp] theorem Chip.train_now (s : Chip) (p : Nat) (on : Bool) : (s.train p on).now = s.now := rfl
@[simp] theorem Chip.train_out (s : Chip) (p : Nat) (on : Bool) : (s.train p on).out = s.out := rfl
@[simp] theorem Chip.train_fresh (s : Chip) (p : Nat) (on : Bool) : (s.train p on).fresh = s.fresh := rfl

/-! ### emits -/

/-- What is sent leaves everything but the outbox as it is, and joins it, the newest first. -/
theorem Chip.emits_eq (s : Chip) (os : List Out) : s.emits os = { s with out := os.reverse ++ s.out } := by
  induction os generalizing s with
  | nil => rfl
  | cons o os ih => simpa [Chip.emits, Chip.emit] using ih (s.emit o)

@[simp] theorem Chip.emits_glb (s : Chip) (os : List Out) : (s.emits os).glb = s.glb := by rw [Chip.emits_eq]
@[simp] theorem Chip.emits_regs (s : Chip) (os : List Out) : (s.emits os).regs = s.regs := by rw [Chip.emits_eq]
@[simp] theorem Chip.emits_cnts (s : Chip) (os : List Out) : (s.emits os).cnts = s.cnts := by rw [Chip.emits_eq]
@[simp] theorem Chip.emits_hpx (s : Chip) (os : List Out) : (s.emits os).hpx = s.hpx := by rw [Chip.emits_eq]
@[simp] theorem Chip.emits_xpt (s : Chip) (os : List Out) : (s.emits os).xpt = s.xpt := by rw [Chip.emits_eq]
@[simp] theorem Chip.emits_rgn (s : Chip) (os : List Out) : (s.emits os).rgn = s.rgn := by rw [Chip.emits_eq]
@[simp] theorem Chip.emits_cmt (s : Chip) (os : List Out) : (s.emits os).cmt = s.cmt := by rw [Chip.emits_eq]
@[simp] theorem Chip.emits_bpm (s : Chip) (os : List Out) : (s.emits os).bpm = s.bpm := by rw [Chip.emits_eq]
@[simp] theorem Chip.emits_lcc (s : Chip) (os : List Out) : (s.emits os).lcc = s.lcc := by rw [Chip.emits_eq]
@[simp] theorem Chip.emits_pgm (s : Chip) (os : List Out) : (s.emits os).pgm = s.pgm := by rw [Chip.emits_eq]
@[simp] theorem Chip.emits_str (s : Chip) (os : List Out) : (s.emits os).str = s.str := by rw [Chip.emits_eq]
@[simp] theorem Chip.emits_dmc (s : Chip) (os : List Out) : (s.emits os).dmc = s.dmc := by rw [Chip.emits_eq]
@[simp] theorem Chip.emits_syz (s : Chip) (os : List Out) : (s.emits os).syz = s.syz := by rw [Chip.emits_eq]
@[simp] theorem Chip.emits_pws (s : Chip) (os : List Out) : (s.emits os).pws = s.pws := by rw [Chip.emits_eq]
@[simp] theorem Chip.emits_ecl (s : Chip) (os : List Out) : (s.emits os).ecl = s.ecl := by rw [Chip.emits_eq]
@[simp] theorem Chip.emits_cfg (s : Chip) (os : List Out) : (s.emits os).cfg = s.cfg := by rw [Chip.emits_eq]
@[simp] theorem Chip.emits_sec (s : Chip) (os : List Out) : (s.emits os).sec = s.sec := by rw [Chip.emits_eq]
@[simp] theorem Chip.emits_evr (s : Chip) (os : List Out) : (s.emits os).evr = s.evr := by rw [Chip.emits_eq]
@[simp] theorem Chip.emits_flt (s : Chip) (os : List Out) : (s.emits os).flt = s.flt := by rw [Chip.emits_eq]
@[simp] theorem Chip.emits_now (s : Chip) (os : List Out) : (s.emits os).now = s.now := by rw [Chip.emits_eq]
@[simp] theorem Chip.emits_fresh (s : Chip) (os : List Out) : (s.emits os).fresh = s.fresh := by rw [Chip.emits_eq]

/-! ### Updates of a state -/

@[simp] theorem State.on_otp (s : State) (f : Chip → Chip) : (s.on f).otp = s.otp := rfl
@[simp] theorem State.on_chip (s : State) (f : Chip → Chip) : (s.on f).chip = f s.chip := rfl
@[simp] theorem State.on_pending (s : State) (f : Chip → Chip) : (s.on f).pending = s.pending := rfl

end Sys2Proof.Machine
end

