-- ==== Sys2Proof/Laws/Evr.lean ====
section
/-!
SUPPORT. What raising an event leaves unchanged: everything that `Chip.quiet` keeps.
-/
namespace Sys2Proof.Machine

/-- A fold of steps that each keep the quiet part keeps it. -/
theorem foldl_quiet {α : Type} (f : Chip → α → Chip) (h : ∀ s a, (f s a).quiet = s.quiet) :
    ∀ (l : List α) (s : Chip), (l.foldl f s).quiet = s.quiet
  | [], _ => rfl
  | a :: r, s => (foldl_quiet f h r (f s a)).trans (h s a)

@[simp] theorem Chip.emit_quiet (s : Chip) (o : Out) : (s.emit o).quiet = s.quiet := rfl
@[simp] theorem Chip.count_quiet (s : Chip) (a n : Nat) : (s.count a n).quiet = s.quiet := rfl
@[simp] theorem Chip.setConn_quiet (s : Chip) (c : Nat) (k : Conn) : (s.setConn c k).quiet = s.quiet := rfl

theorem Chip.modConn_quiet (s : Chip) (c : Nat) (f : Conn → Conn) : (s.modConn c f).quiet = s.quiet := by
  unfold Chip.modConn; split <;> rfl

theorem Chip.alloc_quiet (s : Chip) (ag : Agent) (p : Nat) (g c : Option Nat) (n : Nat) :
    (s.alloc ag p g c n).2.quiet = s.quiet := by
  unfold Chip.alloc; split
  · split <;> rfl
  · rfl

theorem Chip.send_quiet (s : Chip) (n : Nat) (o : Out) : (s.send n o).quiet = s.quiet := by
  unfold Chip.send; split <;> rfl

theorem Chip.solicit_quiet (s : Chip) (n : Nat) (h : BitVec 128) : (s.solicit n h).quiet = s.quiet := by
  unfold Chip.solicit
  split
  · rfl
  · exact Eq.trans rfl (Chip.send_quiet s n _)

theorem Chip.sendPacket_quiet (s : Chip) (n : Nat) (d : BitVec 128) (u : Nat) (p : DevPkt) :
    (s.sendPacket n d u p).quiet = s.quiet := (Chip.send_quiet _ _ _).trans (Chip.solicit_quiet _ _ _)

theorem Chip.wire_quiet (s : Chip) (c : Nat) (k : Conn) (p : DevPkt) (v : Option Nat) : (s.wire c k p v).quiet = s.quiet := by
  unfold Chip.wire; split
  · exact Chip.sendPacket_quiet _ _ _ _ _
  · rfl

theorem Chip.control_quiet (s : Chip) (c op psn i key off f : Nat) (b : List Byte) :
    (s.control c op psn i key off f b).quiet = s.quiet := by
  unfold Chip.control; split
  · rfl
  · dsimp only; split
    · rfl
    · exact Chip.wire_quiet _ _ _ _ _

theorem Chip.catchUp_quiet (s : Chip) (c : Nat) : (s.catchUp c).quiet = s.quiet := by
  unfold Chip.catchUp
  repeat' split
  · rfl
  · rfl
  · refine (foldl_quiet _ ?_ _ _).trans rfl
    intro t p; split
    · exact Chip.wire_quiet _ _ _ _ _
    · rfl

theorem Chip.pumpOne_quiet (s : Chip) (c : Nat) : (s.pumpOne c).quiet = s.quiet := by
  unfold Chip.pumpOne; dsimp only
  repeat' split
  all_goals first | rfl | exact (Chip.catchUp_quiet _ _).trans (Chip.wire_quiet _ _ _ _ _)

theorem Chip.pump_quiet : ∀ (n : Nat) (s : Chip) (c : Nat), (Chip.pump n s c).quiet = s.quiet
  | 0, _, _ => rfl
  | n + 1, s, c => (Chip.pump_quiet n (s.pumpOne c) c).trans (s.pumpOne_quiet c)

theorem Chip.pumpAll_quiet (s : Chip) (c : Nat) : (s.pumpAll c).quiet = s.quiet := by
  unfold Chip.pumpAll; split
  · exact Chip.pump_quiet _ _ _
  · rfl

theorem Chip.queueTx_quiet (s : Chip) (c : Nat) (p : DevPkt) : (s.queueTx c p).quiet = s.quiet := by
  unfold Chip.queueTx
  repeat' split
  · rfl
  · rfl
  · exact Chip.pumpAll_quiet _ _
  · rename_i e
    exact (Chip.pumpAll_quiet _ _).trans ((Chip.setConn_quiet _ _ _).trans ((congrArg (·.2.quiet) e).symm.trans (Chip.alloc_quiet _ _ _ _ _ _)))
  · rfl

theorem Chip.notify_quiet (s : Chip) (c a b d q : Nat) (l : List Byte) : (s.notify c a b d q l).quiet = s.quiet :=
  s.queueTx_quiet _ _

theorem Chip.clampSeq_quiet (s : Chip) (i q : Option Nat) : (s.clampSeq i q).quiet = s.quiet := by
  unfold Chip.clampSeq; split
  · rfl
  split <;> rfl

theorem Chip.alertFor_quiet (s : Chip) (e : Event) (q : Nat) : (s.alertFor e q).quiet = s.quiet := by
  unfold Chip.alertFor; split <;> rfl

theorem Chip.notifyEvent_quiet (s : Chip) (e : Event) (q : Nat) : (s.notifyEvent e q).quiet = s.quiet := by
  unfold Chip.notifyEvent; split
  · rfl
  · refine foldl_quiet _ ?_ _ _
    intro t x
    split
    · split
      · rw [Chip.modConn_quiet, Chip.notify_quiet]
      · rfl
    · rfl

theorem Chip.askPower_quiet (s : Chip) (m : Nat) : (s.askPower m).quiet = s.quiet := rfl

theorem Chip.markDue_quiet (s : Chip) : s.markDue.quiet = s.quiet := by
  unfold Chip.markDue; split <;> rfl

theorem Chip.writeRecord_quiet (s : Chip) (e : Event) : (s.writeRecord e).quiet = s.quiet := by
  unfold Chip.writeRecord; dsimp only
  rw [Chip.markDue_quiet, Chip.notifyEvent_quiet, Chip.alertFor_quiet, Chip.clampSeq_quiet]; rfl

theorem Chip.record_quiet (s : Chip) (e : Event) : (s.record e).quiet = s.quiet := by
  have h : (s.flooded e).2.quiet = s.quiet := by unfold Chip.flooded; split; · rfl
                                                 · dsimp only; split <;> rfl
  unfold Chip.record; dsimp only; split
  · rw [Chip.clampSeq_quiet, h]
  · rw [Chip.writeRecord_quiet, h]

theorem Chip.drainEvents_quiet : ∀ (n : Nat) (s : Chip), (Chip.drainEvents n s).quiet = s.quiet
  | 0, _ => rfl
  | n + 1, s => by
    unfold Chip.drainEvents; split
    · rfl
    · split
      · rw [Chip.drainEvents_quiet n, Chip.record_quiet]; rfl
      · rfl

theorem Chip.reportDropped_quiet (s : Chip) : s.reportDropped.quiet = s.quiet := by
  unfold Chip.reportDropped; split
  · rw [Chip.record_quiet]; rfl
  · rfl

/-- Raising an event leaves the quiet part of the chip as it is. -/
theorem Chip.raiseClamp_quiet (s : Chip) (i : Option Nat) (src inst code sev flags : Nat) (b : List Byte) :
    (s.raiseClamp i src inst code sev flags b).quiet = s.quiet := by
  unfold Chip.raiseClamp; dsimp only; split
  · unfold Chip.flushEvents; rw [Chip.reportDropped_quiet, Chip.drainEvents_quiet]; rfl
  · rw [Chip.clampSeq_quiet]; rfl

/-- Raising an event leaves the quiet part of the chip as it is. -/
@[simp] theorem Chip.raise_quiet (s : Chip) (src inst code sev flags : Nat) (b : List Byte) :
    (s.raise src inst code sev flags b).quiet = s.quiet := s.raiseClamp_quiet _ _ _ _ _ _ _

@[simp] theorem Chip.clamped_quiet (s : Chip) (f g u i : Nat) : (s.clamped f g u i).quiet = s.quiet := by
  unfold Chip.clamped; dsimp only; split
  · rw [Chip.raiseClamp_quiet]; rfl
  · rw [Chip.raise_quiet]; rfl

/-! ### What the quiet part holds, field by field -/

theorem Chip.glb_of_quiet {s t : Chip} (h : s.quiet = t.quiet) : s.glb = t.glb := by
  have := congrArg Chip.glb h; exact this
theorem Chip.regs_of_quiet {s t : Chip} (h : s.quiet = t.quiet) : s.regs = t.regs := by
  have := congrArg Chip.regs h; exact this
theorem Chip.stopped_of_quiet {s t : Chip} (h : s.quiet = t.quiet) : s.hpx.stopped = t.hpx.stopped := by
  have := congrArg (·.hpx.stopped) h; exact this
theorem Chip.rgn_of_quiet {s t : Chip} (h : s.quiet = t.quiet) : s.rgn = t.rgn := by
  have := congrArg Chip.rgn h; exact this
theorem Chip.cmt_of_quiet {s t : Chip} (h : s.quiet = t.quiet) : s.cmt = t.cmt := by
  have := congrArg Chip.cmt h; exact this
theorem Chip.lcc_of_quiet {s t : Chip} (h : s.quiet = t.quiet) : s.lcc = t.lcc := by
  have := congrArg Chip.lcc h; exact this
theorem Chip.pgm_of_quiet {s t : Chip} (h : s.quiet = t.quiet) : s.pgm = t.pgm := by
  have := congrArg Chip.pgm h; exact this
theorem Chip.str_of_quiet {s t : Chip} (h : s.quiet = t.quiet) : s.str = t.str := by
  have := congrArg Chip.str h; exact this
theorem Chip.dmc_of_quiet {s t : Chip} (h : s.quiet = t.quiet) : s.dmc = t.dmc := by
  have := congrArg Chip.dmc h; exact this
theorem Chip.syz_of_quiet {s t : Chip} (h : s.quiet = t.quiet) : s.syz = t.syz := by
  have := congrArg Chip.syz h; exact this
theorem Chip.pws_of_quiet {s t : Chip} (h : s.quiet = t.quiet) : s.pws = t.pws := by
  have := congrArg Chip.pws h; exact this
theorem Chip.ecl_of_quiet {s t : Chip} (h : s.quiet = t.quiet) : s.ecl = t.ecl := by
  have := congrArg Chip.ecl h; exact this
theorem Chip.sec_of_quiet {s t : Chip} (h : s.quiet = t.quiet) : s.sec = t.sec := by
  have := congrArg Chip.sec h; exact this
theorem Chip.now_of_quiet {s t : Chip} (h : s.quiet = t.quiet) : s.now = t.now := by
  have := congrArg Chip.now h; exact this
@[simp] theorem Chip.raise_glb (s : Chip) (src inst code sev flags : Nat) (b : List Byte) :
    (s.raise src inst code sev flags b).glb = s.glb := Chip.glb_of_quiet (s.raise_quiet _ _ _ _ _ _)
@[simp] theorem Chip.raise_regs (s : Chip) (src inst code sev flags : Nat) (b : List Byte) :
    (s.raise src inst code sev flags b).regs = s.regs := Chip.regs_of_quiet (s.raise_quiet _ _ _ _ _ _)
@[simp] theorem Chip.raise_stopped (s : Chip) (src inst code sev flags : Nat) (b : List Byte) :
    (s.raise src inst code sev flags b).hpx.stopped = s.hpx.stopped := Chip.stopped_of_quiet (s.raise_quiet _ _ _ _ _ _)
@[simp] theorem Chip.raise_rgn (s : Chip) (src inst code sev flags : Nat) (b : List Byte) :
    (s.raise src inst code sev flags b).rgn = s.rgn := Chip.rgn_of_quiet (s.raise_quiet _ _ _ _ _ _)
@[simp] theorem Chip.raise_cmt (s : Chip) (src inst code sev flags : Nat) (b : List Byte) :
    (s.raise src inst code sev flags b).cmt = s.cmt := Chip.cmt_of_quiet (s.raise_quiet _ _ _ _ _ _)
@[simp] theorem Chip.raise_lcc (s : Chip) (src inst code sev flags : Nat) (b : List Byte) :
    (s.raise src inst code sev flags b).lcc = s.lcc := Chip.lcc_of_quiet (s.raise_quiet _ _ _ _ _ _)
@[simp] theorem Chip.raise_pgm (s : Chip) (src inst code sev flags : Nat) (b : List Byte) :
    (s.raise src inst code sev flags b).pgm = s.pgm := Chip.pgm_of_quiet (s.raise_quiet _ _ _ _ _ _)
@[simp] theorem Chip.raise_str (s : Chip) (src inst code sev flags : Nat) (b : List Byte) :
    (s.raise src inst code sev flags b).str = s.str := Chip.str_of_quiet (s.raise_quiet _ _ _ _ _ _)
@[simp] theorem Chip.raise_dmc (s : Chip) (src inst code sev flags : Nat) (b : List Byte) :
    (s.raise src inst code sev flags b).dmc = s.dmc := Chip.dmc_of_quiet (s.raise_quiet _ _ _ _ _ _)
@[simp] theorem Chip.raise_syz (s : Chip) (src inst code sev flags : Nat) (b : List Byte) :
    (s.raise src inst code sev flags b).syz = s.syz := Chip.syz_of_quiet (s.raise_quiet _ _ _ _ _ _)
@[simp] theorem Chip.raise_pws (s : Chip) (src inst code sev flags : Nat) (b : List Byte) :
    (s.raise src inst code sev flags b).pws = s.pws := Chip.pws_of_quiet (s.raise_quiet _ _ _ _ _ _)
@[simp] theorem Chip.raise_ecl (s : Chip) (src inst code sev flags : Nat) (b : List Byte) :
    (s.raise src inst code sev flags b).ecl = s.ecl := Chip.ecl_of_quiet (s.raise_quiet _ _ _ _ _ _)
@[simp] theorem Chip.raise_sec (s : Chip) (src inst code sev flags : Nat) (b : List Byte) :
    (s.raise src inst code sev flags b).sec = s.sec := Chip.sec_of_quiet (s.raise_quiet _ _ _ _ _ _)
@[simp] theorem Chip.raise_now (s : Chip) (src inst code sev flags : Nat) (b : List Byte) :
    (s.raise src inst code sev flags b).now = s.now := Chip.now_of_quiet (s.raise_quiet _ _ _ _ _ _)
end Sys2Proof.Machine
end

