-- ==== Sys2Proof/Laws/Chan.lean ====
section
/-!
SUPPORT. What a request to a DRAM channel leaves unchanged: everything that `Chip.still` keeps.
-/
namespace Sys2Proof.Machine

/-- The chip without what a request to a DRAM channel may touch: the channels, and what raising an event may touch. -/
def Chip.still (s : Chip) : Chip := { s.quiet with dmc := Dmc.reset }

theorem Chip.still_of_quiet {s t : Chip} (h : s.quiet = t.quiet) : s.still = t.still := by
  unfold Chip.still; rw [h]

theorem foldl_still {α : Type} (f : Chip → α → Chip) (h : ∀ s a, (f s a).still = s.still) :
    ∀ (l : List α) (s : Chip), (l.foldl f s).still = s.still
  | [], _ => rfl
  | a :: r, s => (foldl_still f h r (f s a)).trans (h s a)

theorem Chip.modChan_still (s : Chip) (n : Nat) (f : Channel → Channel) : (s.modChan n f).still = s.still := rfl
theorem Chip.count_still (s : Chip) (a n : Nat) : (s.count a n).still = s.still := rfl
theorem Chip.raise_still (s : Chip) (a b c d e : Nat) (l : List Byte) : (s.raise a b c d e l).still = s.still :=
  Chip.still_of_quiet (s.raise_quiet _ _ _ _ _ _)

theorem Chip.lowerRaa_still (s : Chip) (c r : Nat) : (s.lowerRaa c r).still = s.still := by
  unfold Chip.lowerRaa; split <;> rfl

theorem Chip.refab_still (s : Chip) (c r : Nat) : (s.refab c r).still = s.still :=
  (Chip.lowerRaa_still _ _ _).trans rfl

theorem Chip.countRaa_still (s : Chip) (p : Place) : (s.countRaa p).still = s.still := by
  unfold Chip.countRaa; split
  · rfl
  · dsimp only
    repeat' split
    all_goals first | rfl | exact (Chip.lowerRaa_still _ _ _).trans rfl

theorem Chip.judgeRow_still (s : Chip) (p : Place) (t : Option Src) : (s.judgeRow p t).still = s.still := by
  have h : (if (s.chan p.ch).rfm.isSome then s else s.refab p.ch (s.packRank p)).still = s.still := by
    split
    · rfl
    · exact s.refab_still _ _
  unfold Chip.judgeRow
  dsimp only
  split
  · exact (Chip.raise_still _ _ _ _ _ _ _).trans h
  · exact h

theorem Chip.activate_still (s : Chip) (p : Place) (t : Src) : (s.activate p t).still = s.still := by
  have h : ∀ l, ((s.modChan p.ch fun k => { k with trackers := Tab.ins k.trackers p.bank l }).countRaa p).still = s.still := by
    intro l; exact Chip.countRaa_still _ _
  unfold Chip.activate
  dsimp only
  split
  · split
    · exact (Chip.judgeRow_still _ _ _).trans (h _)
    · exact h _
  · exact h _

theorem Chip.writeBatch_still (s : Chip) (c n : Nat) : (s.writeBatch c n).still = s.still :=
  (foldl_still (fun (t : Chip) (e : Place × Src) => t.activate e.1 e.2) (fun _ _ => Chip.activate_still _ _ _) _ _).trans rfl

theorem Chip.postLine_still (s : Chip) (r : ChanReq) : (s.postLine r).still = s.still := by
  unfold Chip.postLine
  dsimp only
  repeat' split
  all_goals first | rfl | exact (Chip.writeBatch_still _ _ _).trans rfl

theorem Chip.sweepAt_still (s : Chip) (r : ChanReq) : (s.sweepAt r).still = s.still := by
  unfold Chip.sweepAt
  dsimp only
  split
  · exact foldl_still _ (fun _ _ => Chip.activate_still _ _ _) _ _
  · exact foldl_still _ (fun _ _ => foldl_still _ (fun _ _ => Chip.activate_still _ _ _) _ _) _ _

theorem Chip.readLine_still (s : Chip) (r : ChanReq) : (s.readLine r).still = s.still := by
  unfold Chip.readLine
  dsimp only
  repeat' split
  all_goals first | rfl | exact Chip.activate_still _ _ _

theorem Chip.access_still (s : Chip) (r : ChanReq) : (s.access r).still = s.still := by
  unfold Chip.access
  repeat' split
  · exact s.sweepAt_still r
  · exact s.postLine_still r
  · exact s.readLine_still r

theorem Chip.enqueue_still (s : Chip) (r : ChanReq) : (s.enqueue r).still = s.still := by
  unfold Chip.enqueue
  dsimp only
  split
  · rfl
  · exact s.access_still r

/-- A request to a channel touches the channels and what an event touches, nothing else. -/
theorem Chip.request_still (s : Chip) (r : ChanReq) : (s.request r).still = s.still := by
  unfold Chip.request
  dsimp only
  split
  · rfl
  · exact s.enqueue_still r

theorem Chip.areaAccess_still (s : Chip) (a o l c : Nat) (t : Src) (w : Bool) : (s.areaAccess a o l c t w).still = s.still := by
  unfold Chip.areaAccess
  dsimp only
  split
  · rfl
  · exact foldl_still _ (fun _ _ => Chip.request_still _ _) _ _

theorem Chip.lcc_of_still {s t : Chip} (h : s.still = t.still) : s.lcc = t.lcc := by
  have := congrArg Chip.lcc h; exact this
theorem Chip.pgm_of_still {s t : Chip} (h : s.still = t.still) : s.pgm = t.pgm := by
  have := congrArg Chip.pgm h; exact this
theorem Chip.glb_of_still {s t : Chip} (h : s.still = t.still) : s.glb = t.glb := by
  have := congrArg Chip.glb h; exact this
theorem Chip.str_of_still {s t : Chip} (h : s.still = t.still) : s.str = t.str := by
  have := congrArg Chip.str h; exact this

/-- A page asked of a region's cache leaves the banks as they are. -/
theorem Chip.translate_lcc (s : Chip) (r p : Nat) : (s.translate r p).lcc = s.lcc := by
  unfold Chip.translate
  split
  · rfl
  · refine (Chip.lcc_of_still (Chip.areaAccess_still _ _ _ _ _ _ _)).trans ?_
    split <;> rfl
end Sys2Proof.Machine
end

