-- ==== Sys2Proof/Laws/Codes.lean ====
section
/-!
SUPPORT. Byte order, slices, bits and checksums: what each helper of Machine/Ops.lean and Machine/Codes.lean gives.
-/
namespace Sys2Proof.Machine

/-! ### Byte order -/

@[simp] theorem le_length : ∀ n v, (le n v).length = n
  | 0, _ => rfl
  | n + 1, v => by simp [le, le_length n]

/-- The little-endian bytes of a number give it back modulo their width. -/
theorem unle_le : ∀ n v, unle (le n v) = v % 256 ^ n
  | 0, v => by simp [le, unle, Nat.mod_one]
  | n + 1, v => by
    simp [le, unle, unle_le n]
    rw [Nat.pow_succ, Nat.mul_comm (256 ^ n) 256, Nat.mod_mul]

@[simp] theorem be_length (n v) : (be n v).length = n := by simp [be]

theorem unbe_be (n v) : unbe (be n v) = v % 256 ^ n := by simp [unbe, be, unle_le]

/-! ### Slices -/

/-- The middle part of a concatenation. -/
theorem slice_mid (a b c : List Byte) (n m : Nat) (h : a.length = n) (g : b.length = m) : slice (a ++ b ++ c) n m = b := by
  subst h g; unfold slice; simp

/-- The last part of a concatenation. -/
theorem slice_end (a b : List Byte) (n m : Nat) (h : a.length = n) (g : b.length = m) : slice (a ++ b) n m = b := by
  have e := slice_mid a b [] n m h g
  rwa [List.append_nil] at e

/-- The first part of a concatenation. -/
theorem slice_start (b c : List Byte) (m : Nat) (g : b.length = m) : slice (b ++ c) 0 m = b := slice_mid [] b c 0 m rfl g

theorem padTo_length (n : Nat) (bs : List Byte) (h : bs.length ≤ n) : (padTo n bs).length = n := by
  unfold padTo; simp; omega

/-! ### Bits -/

theorem bit_testBit (z i : Nat) : bit z i = z.testBit i := by
  unfold bit; simp [Nat.testBit, Nat.shiftRight_eq_div_pow]

/-- A bit set, and every other as it was. -/
theorem bit_setBit (x y i : Nat) : bit (setBit x y true) i = (bit x i || decide (y = i)) := by
  simp [bit_testBit, setBit, Nat.testBit_or, Nat.testBit_two_pow]

/-- The bits of a list set. -/
theorem bit_foldl_setBit (l : List Nat) : ∀ g i, bit (l.foldl (fun g d => setBit g d true) g) i = (bit g i || decide (i ∈ l)) := by
  induction l with
  | nil => simp
  | cons a r ih =>
    intro g i
    simp only [List.foldl_cons, ih, bit_setBit, List.mem_cons]
    rw [Bool.or_assoc]
    congr 1
    by_cases h : a = i <;> by_cases h2 : i ∈ r <;> simp [h, h2, eq_comm]

/-! ### Checksums -/

theorem crcShift_lt (poly : Nat) (hp : poly < 2 ^ 32) : ∀ n c, c < 2 ^ 32 → crcShift poly n c < 2 ^ 32
  | 0, _, h => h
  | n + 1, c, h => by
    unfold crcShift
    refine crcShift_lt poly hp n _ ?_
    split
    · exact Nat.xor_lt_two_pow (by omega) hp
    · omega

theorem crcRun_lt (poly : Nat) (hp : poly < 2 ^ 32) : ∀ bs c, c < 2 ^ 32 → crcRun poly c bs < 2 ^ 32
  | [], _, h => h
  | b :: r, c, h => crcRun_lt poly hp r _ (crcShift_lt poly hp 8 _ (Nat.xor_lt_two_pow h (by have := b.isLt; omega)))

/-- A CRC-32C has 32 bits. -/
theorem crc32c_lt (bs : List Byte) : crc32c bs < 2 ^ 32 :=
  Nat.xor_lt_two_pow (crcRun_lt _ (by decide) _ _ (by decide)) (by decide)

/-- A CRC-32C stored in four bytes reads back. -/
theorem unle_crc32c (bs : List Byte) : unle (le 4 (crc32c bs)) = crc32c bs := by
  rw [unle_le]
  exact Nat.mod_eq_of_lt (crc32c_lt bs)

end Sys2Proof.Machine
end

