-- ==== Sys2Proof/Laws/Memory.lean ====
section
/-!
SUPPORT. The sparse tables and the memories made of them: a read after a write, and the canonical form, which every
memory operation keeps.
-/
namespace Sys2Proof

/-! ### Tables -/

theorem Tab.get_ins_same {α : Type} (d v : α) (k : Nat) (t : Tab α) : Tab.get (Tab.ins t k v) d k = v := by
  induction t with
  | nil => simp [Tab.ins, Tab.get]
  | cons c r ih =>
    obtain ⟨j, a⟩ := c
    unfold Tab.ins
    split
    · simp [Tab.get]
    · split
      · simp [Tab.get]
      · rename_i h; simp [Tab.get, h, ih]

theorem Tab.get_ins_other {α : Type} (d v : α) (k i : Nat) (h : i ≠ k) (t : Tab α) :
    Tab.get (Tab.ins t k v) d i = Tab.get t d i := by
  induction t with
  | nil => simp [Tab.ins, Tab.get, Ne.symm h]
  | cons c r ih =>
    obtain ⟨j, a⟩ := c
    unfold Tab.ins
    split
    · simp [Tab.get, Ne.symm h]
    · split
      · rename_i e; subst e; simp [Tab.get, Ne.symm h]
      · simp only [Tab.get, ih]

theorem Tab.get_del_same {α : Type} (d : α) (k : Nat) (t : Tab α) : Tab.get (Tab.del t k) d k = d := by
  induction t with
  | nil => rfl
  | cons c r ih =>
    obtain ⟨j, a⟩ := c
    unfold Tab.del
    split
    · exact ih
    · rename_i h; simp [Tab.get, h, ih]

theorem Tab.get_del_other {α : Type} (d : α) (k i : Nat) (h : i ≠ k) (t : Tab α) :
    Tab.get (Tab.del t k) d i = Tab.get t d i := by
  induction t with
  | nil => rfl
  | cons c r ih =>
    obtain ⟨j, a⟩ := c
    unfold Tab.del
    split
    · rename_i e; subst e; simp [Tab.get, Ne.symm h, ih]
    · simp only [Tab.get, ih]

theorem Tab.get_set_same {α : Type} [DecidableEq α] (d v : α) (k : Nat) (t : Tab α) : Tab.get (Tab.set t d k v) d k = v := by
  unfold Tab.set
  split
  · rename_i h; rw [Tab.get_del_same, h]
  · exact Tab.get_ins_same d v k t

theorem Tab.get_set_other {α : Type} [DecidableEq α] (d v : α) (k i : Nat) (h : i ≠ k) (t : Tab α) :
    Tab.get (Tab.set t d k v) d i = Tab.get t d i := by
  unfold Tab.set
  split
  · exact Tab.get_del_other d k i h t
  · exact Tab.get_ins_other d v k i h t

theorem Tab.find_ins_same {α : Type} (v : α) (k : Nat) (t : Tab α) : Tab.find (Tab.ins t k v) k = some v := by
  induction t with
  | nil => simp [Tab.ins, Tab.find]
  | cons c r ih =>
    obtain ⟨j, a⟩ := c
    unfold Tab.ins
    split
    · simp [Tab.find]
    · split
      · simp [Tab.find]
      · rename_i h; simp [Tab.find, h, ih]

theorem Tab.find_ins_other {α : Type} (v : α) (k i : Nat) (h : i ≠ k) (t : Tab α) :
    Tab.find (Tab.ins t k v) i = Tab.find t i := by
  induction t with
  | nil => simp [Tab.ins, Tab.find, Ne.symm h]
  | cons c r ih =>
    obtain ⟨j, a⟩ := c
    unfold Tab.ins
    split
    · simp [Tab.find, Ne.symm h]
    · split
      · rename_i e; subst e; simp [Tab.find, Ne.symm h]
      · simp only [Tab.find, ih]

end Sys2Proof

namespace Sys2Proof.Machine

/-! ### Reads after writes -/

@[simp] theorem Memory.read_write_same (d b : Byte) (m : Memory) (a : Nat) : Memory.read d (Memory.write d m a b) a = b :=
  Tab.get_set_same d b a m

theorem Memory.read_write_other (d b : Byte) (m : Memory) (a i : Nat) (h : i ≠ a) :
    Memory.read d (Memory.write d m a b) i = Memory.read d m i := Tab.get_set_other d b a i h m

/-- Bytes outside a written range are unchanged. -/
theorem Memory.read_writeN_outside (d : Byte) (bs : List Byte) : ∀ (m : Memory) (a i : Nat), i < a ∨ a + bs.length ≤ i →
    Memory.read d (Memory.writeN d m a bs) i = Memory.read d m i := by
  induction bs with
  | nil => intro m a i _; rfl
  | cons b r ih =>
    intro m a i h
    have h1 : i < a + 1 ∨ a + 1 + r.length ≤ i := by simp only [List.length_cons] at h; omega
    have h2 : i ≠ a := by simp only [List.length_cons] at h; omega
    show Memory.read d (Memory.writeN d (Memory.write d m a b) (a + 1) r) i = _
    rw [ih _ _ _ h1, Memory.read_write_other d b m a i h2]

/-- A written byte reads back. -/
theorem Memory.read_writeN_inside (d : Byte) (bs : List Byte) : ∀ (m : Memory) (a i : Nat) (h : i < bs.length),
    Memory.read d (Memory.writeN d m a bs) (a + i) = bs[i] := by
  induction bs with
  | nil => intro m a i h; simp at h
  | cons b r ih =>
    intro m a i h
    show Memory.read d (Memory.writeN d (Memory.write d m a b) (a + 1) r) (a + i) = _
    cases i with
    | zero =>
      rw [Memory.read_writeN_outside d r _ (a + 1) (a + 0) (by omega)]
      simp
    | succ i =>
      have h1 : i < r.length := by simpa using h
      have h2 : a + (i + 1) = a + 1 + i := by omega
      rw [h2, ih _ (a + 1) i h1]
      simp

/-- A written range reads back whole. -/
theorem Memory.readN_writeN (d : Byte) (m : Memory) (a : Nat) (bs : List Byte) :
    Memory.readN d (Memory.writeN d m a bs) a bs.length = bs := by
  unfold Memory.readN
  apply List.ext_getElem
  · simp
  · intro i h1 h2
    simp only [List.getElem_map, List.getElem_range]
    exact Memory.read_writeN_inside d bs m a i h2

/-- Part of a written range reads back. -/
theorem Memory.readN_writeN_part (d : Byte) (m : Memory) (a : Nat) (bs : List Byte) (off n : Nat) (h : off + n ≤ bs.length) :
    Memory.readN d (Memory.writeN d m a bs) (a + off) n = slice bs off n := by
  unfold Memory.readN slice
  apply List.ext_getElem
  · simp; omega
  · intro i h1 h2
    simp only [List.getElem_map, List.getElem_range, List.getElem_take, List.getElem_drop]
    have h3 : i < n := by simpa using h1
    rw [Nat.add_assoc, Memory.read_writeN_inside d bs m a (off + i) (by omega)]

/-- A range apart from a written one reads as before. -/
theorem Memory.readN_writeN_apart (d : Byte) (m : Memory) (a b n : Nat) (bs : List Byte) (h : b + n ≤ a ∨ a + bs.length ≤ b) :
    Memory.readN d (Memory.writeN d m a bs) b n = Memory.readN d m b n := by
  unfold Memory.readN
  apply List.map_congr_left
  intro i hi
  have h1 : i < n := List.mem_range.mp hi
  exact Memory.read_writeN_outside d bs m a (b + i) (by omega)

/-! ### The canonical form -/

theorem Memory.rising_weaken (m : Memory) : ∀ lo hi, lo ≤ hi → Memory.rising hi m = true → Memory.rising lo m = true := by
  cases m with
  | nil => intros; rfl
  | cons c r =>
    intro lo hi h k
    simp only [Memory.rising, Bool.and_eq_true, decide_eq_true_eq] at k ⊢
    exact ⟨by omega, k.2⟩

theorem Memory.rising_ins (a : Nat) (b : Byte) (m : Memory) : ∀ lo, lo ≤ a → Memory.rising lo m = true →
    Memory.rising lo (Tab.ins m a b) = true := by
  induction m with
  | nil => intro lo h _; simp [Tab.ins, Memory.rising, h]
  | cons c r ih =>
    intro lo h k
    obtain ⟨j, x⟩ := c
    simp only [Memory.rising, Bool.and_eq_true, decide_eq_true_eq] at k
    unfold Tab.ins
    split
    · rename_i h1
      simp only [Memory.rising, Bool.and_eq_true, decide_eq_true_eq]
      exact ⟨h, by omega, k.2⟩
    · split
      · rename_i h1; subst h1
        simp only [Memory.rising, Bool.and_eq_true, decide_eq_true_eq]
        exact k
      · simp only [Memory.rising, Bool.and_eq_true, decide_eq_true_eq]
        exact ⟨k.1, ih (j + 1) (by omega) k.2⟩

theorem Memory.rising_filter (p : Nat × Byte → Bool) (m : Memory) : ∀ lo, Memory.rising lo m = true →
    Memory.rising lo (m.filter p) = true := by
  induction m with
  | nil => intro lo h; exact h
  | cons c r ih =>
    intro lo h
    simp only [Memory.rising, Bool.and_eq_true, decide_eq_true_eq] at h
    by_cases hp : p c = true
    · rw [List.filter_cons_of_pos hp]
      simp only [Memory.rising, Bool.and_eq_true, decide_eq_true_eq]
      exact ⟨h.1, ih _ h.2⟩
    · rw [List.filter_cons_of_neg hp]
      exact ih lo (Memory.rising_weaken r lo (c.1 + 1) (by omega) h.2)

theorem Memory.del_filter (m : Memory) (a : Nat) : Tab.del m a = m.filter fun c => !(decide (c.1 = a)) := by
  induction m with
  | nil => rfl
  | cons c r ih =>
    obtain ⟨j, x⟩ := c
    unfold Tab.del
    split
    · rename_i h; simp [h, ih]
    · rename_i h; simp [h, ih]

theorem Memory.all_ins (p : Nat × Byte → Bool) (a : Nat) (b : Byte) (h : p (a, b) = true) (m : Memory) :
    m.all p = true → (Tab.ins m a b).all p = true := by
  induction m with
  | nil => intro _; simp [Tab.ins, h]
  | cons c r ih =>
    intro k
    obtain ⟨j, x⟩ := c
    simp only [List.all_cons, Bool.and_eq_true] at k
    unfold Tab.ins
    split
    · simp only [List.all_cons, Bool.and_eq_true]; exact ⟨h, k⟩
    · split
      · rename_i e; subst e; simp only [List.all_cons, Bool.and_eq_true]; exact ⟨h, k.2⟩
      · simp only [List.all_cons, Bool.and_eq_true]; exact ⟨k.1, ih k.2⟩

theorem Memory.filter_wf (d : Byte) (p : Nat × Byte → Bool) (m : Memory) (h : Memory.wf d m = true) :
    Memory.wf d (m.filter p) = true := by
  simp only [Memory.wf, Bool.and_eq_true] at h ⊢
  refine ⟨Memory.rising_filter p m 0 h.1, ?_⟩
  rw [List.all_eq_true] at h ⊢
  exact fun c hc => h.2 c (List.mem_filter.mp hc).1

/-- A write keeps the canonical form. -/
theorem Memory.write_wf (d : Byte) (m : Memory) (a : Nat) (b : Byte) (h : Memory.wf d m = true) :
    Memory.wf d (Memory.write d m a b) = true := by
  unfold Memory.write Tab.set
  split
  · rw [Memory.del_filter]; exact Memory.filter_wf d _ m h
  · rename_i hb
    simp only [Memory.wf, Bool.and_eq_true] at h ⊢
    exact ⟨Memory.rising_ins a b m 0 (Nat.zero_le _) h.1, Memory.all_ins _ a b (by simp [hb]) m h.2⟩

theorem Memory.writeN_wf (d : Byte) (bs : List Byte) : ∀ (m : Memory) (a : Nat), Memory.wf d m = true →
    Memory.wf d (Memory.writeN d m a bs) = true := by
  induction bs with
  | nil => intro m a h; exact h
  | cons b r ih => intro m a h; exact ih _ _ (Memory.write_wf d m a b h)

theorem Memory.sub_wf (d : Byte) (m : Memory) (lo n : Nat) (h : Memory.wf d m = true) : Memory.wf d (Memory.sub m lo n) = true :=
  Memory.filter_wf d _ m h

theorem Memory.clear_wf (d : Byte) (m : Memory) (lo n : Nat) (h : Memory.wf d m = true) :
    Memory.wf d (Memory.clear m lo n) = true := Memory.filter_wf d _ m h

theorem Memory.lay_wf (d : Byte) (m o : Memory) (lo n : Nat) (h : Memory.wf d m = true) :
    Memory.wf d (Memory.lay d m lo n o) = true := by
  have go : ∀ (l : Memory) (acc : Memory), Memory.wf d acc = true →
      Memory.wf d (l.foldl (fun acc c => Memory.write d acc c.1 c.2) acc) = true := by
    intro l
    induction l with
    | nil => intro acc k; exact k
    | cons c r ih => intro acc k; exact ih _ (Memory.write_wf d acc c.1 c.2 k)
  exact go _ _ (Memory.clear_wf d m lo n h)

theorem Memory.empty_wf (d : Byte) : Memory.wf d [] = true := rfl

/-- Every memory of the state after reset is canonical. -/
theorem Memory.reset_wf : Memory.wf 0 State.reset.chip.pgm.frames = true ∧ Memory.wf 0 State.reset.chip.str.stored = true ∧
    Memory.wf 0 State.reset.chip.syz.mirror = true ∧ Memory.wf 0xFF State.reset.chip.cfg.flash = true :=
  ⟨rfl, rfl, rfl, rfl⟩

/-- Programming and erasing the flash keep its canonical form. -/
theorem Chip.flash_wf_write (s : Chip) (a : Nat) (bs : List Byte) (h : Memory.wf 0xFF s.cfg.flash = true) :
    Memory.wf 0xFF (Memory.writeN 0xFF s.cfg.flash a bs) = true := Memory.writeN_wf _ _ _ _ h

end Sys2Proof.Machine
end

