-- ==== Sys2Proof/Laws/Claims.lean ====
section
/-!
SUPPORT. What the shared operations do, said once: a connection set and read back, an admitted command, a packet that its
connection takes, entering a device state, the recorder's ring, and what an operation leaves of the queue and the fuses
(`Lasts`).
-/
namespace Sys2Proof.Machine

/-! ### Sessions and connections -/
theorem conn_setConn_same (s : Chip) (c : Nat) (k : Conn) : (s.setConn c k).conn c = some k := by
  unfold Chip.setConn Chip.conn; simp [Tab.find_ins_same]

theorem conn_setConn_other (s : Chip) (c d : Nat) (k : Conn) (h : d ≠ c) : (s.setConn c k).conn d = s.conn d := by
  unfold Chip.setConn Chip.conn; simp [Tab.find_ins_other, h]

/-- A session with the role is served (17 R413, R414). -/
theorem asRole_grants {s : Chip} {q : Session} {d r : Nat} {f : Chip → Chip} (h : s.grants q d r) : s.asRole q d r f = f s := by
  obtain ⟨a, b, c⟩ := h
  unfold Chip.asRole; simp [a, b, Nat.not_lt.mpr c]

theorem on_congr {s : State} {f g : Chip → Chip} (h : f s.chip = g s.chip) : s.on f = s.on g := by
  unfold State.on; rw [h]

theorem next_on_congr {s : State} {f g : Chip → Chip} (h : f s.chip = g s.chip) :
    (Host.Outcome.next (s.on f) : Host.Outcome State Fault Refusal) = .next (s.on g) := congrArg _ (on_congr h)

theorem establish_established (s : Chip) (c : Nat) (k : Conn) (h : s.conn c = some k) (e : k.st = .established) :
    s.establish c = s := by
  unfold Chip.establish; simp [h, e]

@[simp] theorem hearFrom_glb (s : Chip) (n : Nat) (a : BitVec 128) : (s.hearFrom n a).glb = s.glb := by
  unfold Chip.hearFrom; split <;> rfl
@[simp] theorem hearFrom_now (s : Chip) (n : Nat) (a : BitVec 128) : (s.hearFrom n a).now = s.now := by
  unfold Chip.hearFrom; split <;> rfl
@[simp] theorem hearFrom_xpt (s : Chip) (n : Nat) (a : BitVec 128) : (s.hearFrom n a).xpt = s.xpt := by
  unfold Chip.hearFrom; split <;> rfl

/-- A packet that its connection accepts is heard, and its opcode's effect follows (03 Table 3-19). -/
theorem receive_accepts {s : Chip} {op : Nat} {p : Packet} {k : Conn} (h : s.accepts op p k) (f : Nat → Chip → Chip) :
    s.receive op p f = f p.connId (s.hears p k) := by
  obtain ⟨a, b, c, d, e, g⟩ := h
  have hk : (k.heard p s.now).st = .established := d
  unfold Chip.receive
  simp only [a, b, c, d]
  have : (((s.hearFrom p.port p.src).setConn p.connId (k.heard p s.now)).establish p.connId) = s.hears p k :=
    establish_established _ _ _ (conn_setConn_same _ _ _) hk
  simp [this, g]
  have : (s.hears p k).glb = s.glb := by simp [Chip.hears]
  simp [this, e]

/-- A message packet that its connection takes is heard and placed (04 R92). -/
theorem messagePacket_takes {s : Chip} {op : Nat} {p : Packet} {k : Conn} (h : s.takes op p k) :
    s.messagePacket op p = (s.hears p k).takePacket p.connId op p := by
  obtain ⟨a, b, c⟩ := h
  unfold Chip.messagePacket
  rw [receive_accepts a]
  unfold Chip.ownPacket
  have : (s.hears p k).conn p.connId = some (k.heard p s.now) := conn_setConn_same _ _ _
  have hn : (s.hears p k).now = s.now := by simp [Chip.hears]
  simp [this, b, c, hn]

/-! ### Device states and domains -/
theorem gate_quiet (s : Chip) (ds : List Nat) (b : Bool) :
    (s.gate ds b).quiet = { s.quiet with pws := { s.quiet.pws with gated := ds.foldl (fun g d => setBit g d b) s.quiet.pws.gated } } :=
  rfl

theorem enter_quiet (u : Chip) (d : DevState) (h : u.glb.state ≠ d) :
    (u.enter d).quiet = { u.quiet with glb := { u.glb with state := d } } := by
  unfold Chip.enter; rw [if_neg h, Chip.raise_quiet]; rfl

theorem faultRecord_quiet (s : Chip) (c : Nat) : (s.faultRecord c).quiet = s.quiet := by
  unfold Chip.faultRecord; split
  · rfl
  · exact Chip.raise_quiet ..

theorem faultRecord_glb (s : Chip) (c : Nat) : (s.faultRecord c).glb = s.glb := by
  unfold Chip.faultRecord; split
  · rfl
  · exact Chip.raise_glb ..

theorem faultLines_quiet {u s : Chip} (h : u.quiet = s.quiet) (c : Nat) : (u.faultLines c).quiet = (s.faultLines c).quiet := by
  have e (x : Chip) : (x.faultLines c).quiet = (x.quiet.faultLines c).quiet := rfl
  rw [e, h, ← e]

theorem toFault_quiet (s : Chip) (h : s.glb.state ≠ .fault) (c : Nat) : (s.toFault c).quiet = (s.inFault c).quiet := by
  unfold Chip.toFault
  rw [if_neg h, gate_quiet, enter_quiet, faultLines_quiet (faultRecord_quiet s c)]
  · have g : ((s.faultRecord c).faultLines c).glb = s.glb := faultRecord_glb s c
    rw [g]; rfl
  · show (s.faultRecord c).glb.state ≠ .fault
    rwa [faultRecord_glb]

/-! ### The recorder's ring -/

/-- The ring and the sequence of the next record: only `writeRecord` moves them. -/
def Chip.ringOf (s : Chip) := (s.evr.ring, s.evr.next)

theorem ring_fold {α : Type} (f : Chip → α → Chip) (h : ∀ s a, Chip.ringOf (f s a) = Chip.ringOf s) :
    ∀ (l : List α) (s : Chip), Chip.ringOf (l.foldl f s) = Chip.ringOf s
  | [], _ => rfl
  | a :: r, s => (ring_fold f h r (f s a)).trans (h s a)

theorem ring_modConn (s : Chip) (c : Nat) (f) : Chip.ringOf (s.modConn c f) = Chip.ringOf s := by unfold Chip.modConn; split <;> rfl

theorem ring_alloc (s : Chip) (ag : Agent) (p : Nat) (g c : Option Nat) (n : Nat) : Chip.ringOf (s.alloc ag p g c n).2 = Chip.ringOf s := by
  unfold Chip.alloc; split
  · split <;> rfl
  · rfl

theorem ring_send (s : Chip) (n : Nat) (o : Out) : Chip.ringOf (s.send n o) = Chip.ringOf s := by
  unfold Chip.send; split <;> rfl

theorem ring_solicit (s : Chip) (n : Nat) (a : BitVec 128) : Chip.ringOf (s.solicit n a) = Chip.ringOf s := by
  unfold Chip.solicit; split
  · rfl
  · exact Eq.trans rfl (ring_send s n _)

theorem ring_wire (s : Chip) (c : Nat) (k : Conn) (p : DevPkt) (v : Option Nat) : Chip.ringOf (s.wire c k p v) = Chip.ringOf s := by
  unfold Chip.wire; split
  · exact (ring_send _ _ _).trans (ring_solicit _ _ _)
  · rfl

theorem ring_catchUp (s : Chip) (c : Nat) : Chip.ringOf (s.catchUp c) = Chip.ringOf s := by
  unfold Chip.catchUp
  repeat' split
  · rfl
  · rfl
  · refine (ring_fold _ ?_ _ _).trans rfl
    intro t p; split
    · exact ring_wire _ _ _ _ _
    · rfl

theorem ring_pumpOne (s : Chip) (c : Nat) : Chip.ringOf (s.pumpOne c) = Chip.ringOf s := by
  unfold Chip.pumpOne; dsimp only
  repeat' split
  all_goals first | rfl | exact (ring_catchUp _ _).trans (ring_wire _ _ _ _ _)

theorem ring_pump : ∀ (n : Nat) (s : Chip) (c : Nat), Chip.ringOf (Chip.pump n s c) = Chip.ringOf s
  | 0, _, _ => rfl
  | n + 1, s, c => (ring_pump n (s.pumpOne c) c).trans (ring_pumpOne s c)

theorem ring_pumpAll (s : Chip) (c : Nat) : Chip.ringOf (s.pumpAll c) = Chip.ringOf s := by
  unfold Chip.pumpAll; split
  · exact ring_pump _ _ _
  · rfl

theorem ring_queueTx (s : Chip) (c : Nat) (p : DevPkt) : Chip.ringOf (s.queueTx c p) = Chip.ringOf s := by
  unfold Chip.queueTx
  repeat' split
  · rfl
  · rfl
  · exact ring_pumpAll _ _
  · rename_i e
    exact (ring_pumpAll _ _).trans ((congrArg (fun x => Chip.ringOf x.2) e).symm.trans (ring_alloc _ _ _ _ _ _))
  · rfl

theorem ring_writeRecord (s : Chip) (e : Event) :
    Chip.ringOf (s.writeRecord e) = (Tab.ins s.evr.ring (s.evr.next % 65536) (e.bytes s.evr.next), s.evr.next + 1) := by
  unfold Chip.writeRecord; dsimp only
  have m : ∀ t : Chip, Chip.ringOf t.markDue = Chip.ringOf t := by intro t; unfold Chip.markDue; split <;> rfl
  have n : ∀ (t : Chip) q, Chip.ringOf (t.notifyEvent e q) = Chip.ringOf t := by
    intro t q; unfold Chip.notifyEvent; split
    · rfl
    · refine ring_fold _ ?_ _ _
      intro t x
      split
      · split
        · rw [ring_modConn]; exact ring_queueTx _ _ _
        · rfl
      · rfl
  have a : ∀ (t : Chip) q, Chip.ringOf (t.alertFor e q) = Chip.ringOf t := by intro t q; unfold Chip.alertFor; split <;> rfl
  have c : ∀ (t : Chip) i q, Chip.ringOf (t.clampSeq i q) = Chip.ringOf t := by intro t i q; unfold Chip.clampSeq; split; rfl; split <;> rfl
  rw [m, n, a, c]; rfl

/-! ### The queue and the fuses -/

/-- An operation that keeps the queue and every programmed fuse, and a whole part whole. -/
def Lasts (s t : State) : Prop := t.pending = s.pending ∧ s.otp.kept t.otp ∧ (s.otp.whole → t.otp.whole)

theorem Otp.kept_refl (a : Otp) : a.kept a := by
  unfold Otp.kept; simp

theorem Lasts.refl (s : State) : Lasts s s := ⟨rfl, Otp.kept_refl _, id⟩

theorem Otp.kept_trans {a b c : Otp} (h : a.kept b) (g : b.kept c) : a.kept c := by
  obtain ⟨h1,h2,h3,h4,h5,h6⟩ := h
  obtain ⟨g1,g2,g3,g4,g5,g6⟩ := g
  refine ⟨fun i => ?_, fun i => ?_, fun i => ?_, fun i => g4 (h4 i), g5.trans h5, fun i => ?_⟩
  · rw [g1 (by rw [h1 i]; exact i), h1 i]
  · rw [g2 (by rw [h2 i]; exact i), h2 i]
  · rw [g3 (by rw [h3 i]; exact i), h3 i]
  · have := h6 i; rw [g6 (by rw [this]; exact i), this]

theorem Lasts.trans {s t u : State} (h : Lasts s t) (g : Lasts t u) : Lasts s u :=
  ⟨g.1.trans h.1, Otp.kept_trans h.2.1 g.2.1, fun w => g.2.2 (h.2.2 w)⟩

theorem Lasts.of_chip {s t : State} (h : t.otp = s.otp) (g : t.pending = s.pending) : Lasts s t :=
  ⟨g, by rw [h]; exact Otp.kept_refl _, by rw [h]; exact id⟩

theorem lasts_on (s : State) (f : Chip → Chip) : Lasts s (s.on f) := Lasts.of_chip rfl rfl

theorem lasts_if {s t u : State} {c : Prop} [Decidable c] (h : Lasts s t) (g : Lasts s u) : Lasts s (if c then t else u) := by split <;> assumption

theorem lasts_powerTable (t s) : Lasts s (powerTableEffect t s) := by
  unfold powerTableEffect; split
  · exact Lasts.refl _
  · rename_i h; simp at h; obtain ⟨h1, h2⟩ := h
    split
    · split
      · refine ⟨rfl, ?_, ?_⟩
        · unfold Otp.kept; simp [h1, h2]
        · intro _ h; simp [h1] at h
      · exact lasts_on _ _
    · exact lasts_on _ _

theorem lasts_mac (t s) : Lasts s (macEffect t s) := by
  unfold macEffect; split
  · exact Lasts.refl _
  · rename_i h; simp at h; obtain ⟨h1, h2⟩ := h
    refine ⟨rfl, ?_, ?_⟩
    · unfold Otp.kept; simp [h1, h2]
    · intro _ h; simp [h1] at h

theorem lasts_root (t s) : Lasts s (rootHashEffect t s) := by
  unfold rootHashEffect; split
  · exact Lasts.refl _
  · rename_i h; simp at h; obtain ⟨h1, h2⟩ := h
    refine ⟨rfl, ?_, ?_⟩
    · unfold Otp.kept; simp [h1, h2]
    · intro _ h; simp [h1] at h

theorem lasts_lock (s) : Lasts s (lockEffect s) := by
  unfold lockEffect; split
  · exact Lasts.refl _
  · rename_i h; simp at h; obtain ⟨⟨⟨h1, h2⟩, h3⟩, h4⟩ := h
    refine ⟨rfl, ?_, ?_⟩
    · unfold Otp.kept; simp [h1]
    · intro _ _
      exact ⟨Option.isSome_iff_ne_none.mpr h2, Option.isSome_iff_ne_none.mpr h3, Option.isSome_iff_ne_none.mpr h4, rfl⟩

theorem lasts_disable (s) : Lasts s (disableForeverEffect s) := by
  refine ⟨rfl, ?_, ?_⟩
  · unfold Otp.kept disableForeverEffect; simp
  · intro h; exact h

theorem lasts_asRole (s : State) (q : Session) (d n : Nat) (f : State → State) (h : ∀ s, Lasts s (f s)) : Lasts s (s.asRole q d n f) := by
  unfold State.asRole; exact lasts_if (h s) (lasts_on _ _)

theorem lasts_fuse (a v s) : Lasts s (fuseWrite a v s) := by
  unfold fuseWrite; split
  · dsimp only
    have h1 : Lasts s (if bit v 0 then powerTableEffect (Config.provTable s.chip.sec.prov) s else s) := lasts_if (lasts_powerTable _ _) (Lasts.refl _)
    have h2 := fun x => lasts_if (c := bit v 1 = true) (h1.trans (lasts_mac x _)) h1
    have h3 := fun x y => lasts_if (c := bit v 2 = true) ((h2 x).trans (lasts_root y _)) (h2 x)
    exact lasts_if ((h3 _ _).trans (lasts_lock _)) (h3 _ _)
  · exact lasts_if (lasts_disable _) (Lasts.refl _)

theorem lasts_accept (q a v s) : Lasts s (acceptWrite q a v s).2 := by
  unfold acceptWrite; dsimp only; split
  · exact Lasts.of_chip rfl rfl
  · exact (Lasts.of_chip rfl rfl).trans (lasts_fuse _ _ _)

theorem lasts_writeReg (q a v s) : Lasts s (writeReg q a v s).2 := by
  unfold writeReg; split
  · exact lasts_on _ _
  · split
    · exact lasts_on _ _
    · split
      · exact lasts_on _ _
      · exact lasts_accept _ _ _ _

theorem lasts_readWords (q) : ∀ n a acc s, Lasts s (mgmtReadWords q n a acc s).st
  | 0, _, _, s => Lasts.refl s
  | n+1, a, acc, s => by
    unfold mgmtReadWords; dsimp only
    have h : Lasts s { s with chip := (s.chip.readReg s.otp q a).2 } := Lasts.of_chip rfl rfl
    split
    · exact h.trans (lasts_readWords q n _ _ _)
    · exact h

theorem lasts_writeWords (q) : ∀ ws a d c s, Lasts s (mgmtWriteWords q ws a d c s).st
  | [], _, _, _, s => Lasts.refl s
  | w :: r, a, d, c, s => by
    unfold mgmtWriteWords; dsimp only
    split
    · exact lasts_writeReg _ _ _ _
    · exact (lasts_writeReg _ _ _ _).trans (lasts_writeWords q r _ _ _ _)

theorem lasts_execute (c b s) : Lasts s (mgmtExecute c b s).st := by
  unfold mgmtExecute; dsimp only
  repeat' split
  all_goals first | exact Lasts.refl _ | exact lasts_readWords _ _ _ _ _ | exact lasts_writeWords _ _ _ _ _ _

theorem lasts_one (c m s) : Lasts s (mgmtOne c m s) := by
  unfold mgmtOne; dsimp only
  exact ((lasts_on _ _).trans (lasts_execute _ _ _)).trans (lasts_on _ _)

theorem lasts_run : ∀ n c s, Lasts s (mgmtRun n c s)
  | 0, _, s => Lasts.refl s
  | n+1, c, s => by
    unfold mgmtRun
    split
    · exact Lasts.refl _
    · split
      · exact lasts_if ((lasts_one _ _ _).trans (lasts_run n _ _)) (Lasts.refl _)
      · exact Lasts.refl _

theorem lasts_arrive (op p s) : Lasts s (mgmtArrive op p s) := (lasts_on _ _).trans (lasts_run _ _ _)

theorem lasts_session (op q s) : Lasts s (sessionCommand op q s) := by
  cases q with
  | i2c => exact lasts_on _ _
  | mgmt p => exact lasts_arrive _ _ _

theorem lasts_i2cWords : ∀ ws a s, Lasts s (i2cWords ws a s)
  | [], _, s => Lasts.refl s
  | _ :: r, _, _ => (lasts_writeReg _ _ _ _).trans (lasts_i2cWords r _ _)

theorem lasts_i2cWrite (b p s) : Lasts s (i2cWriteEffect b p s) := by
  unfold i2cWriteEffect; dsimp only
  split
  · exact Lasts.refl _
  · refine lasts_if (Lasts.refl _) (lasts_if (lasts_on _ _) ?_)
    unfold i2cData; exact lasts_if (lasts_i2cWords _ _ _) ((lasts_i2cWords _ _ _).trans (lasts_on _ _))

theorem lasts_i2cRead : ∀ n a acc s, Lasts s (i2cRead n a acc s).2
  | 0, _, _, s => Lasts.refl s
  | n+1, a, acc, s => by
    unfold i2cRead; dsimp only
    exact (Lasts.of_chip rfl rfl : Lasts s { s with chip := (s.chip.readReg s.otp .i2c a).2 }).trans (lasts_i2cRead n _ _ _)

theorem lasts_i2cReadEffect (b p s) : Lasts s (i2cReadEffect b p s) := by
  unfold i2cReadEffect; dsimp only
  split
  · exact Lasts.refl _
  · exact (lasts_i2cRead _ _ _ _).trans (lasts_on _ _)

theorem lasts_tap (i s t) (h : execTapInstruction i s = .next t) : Lasts s t := by
  unfold execTapInstruction at h; dsimp only at h
  split at h
  · split at h
    · cases h
    · injection h with h; subst h; exact lasts_on _ _
  · injection h with h; subst h; exact lasts_on _ _

end Sys2Proof.Machine
end

