-- ==== Sys2Proof/WellFormed.lean ====
section
/-!
DEFINITION. Which commands are well formed: the operands keep the widths that the spec gives their fields
(03 Table 3-3, 3-4; 06 R157; 12 Table 12-4; 13 R320; 17 R409).
-/
namespace Sys2Proof

/-- The header fields of a packet fit their bytes (03 Table 3-3) and its payload the UDP length check (R58). -/
def Packet.wf (p : Packet) : Bool :=
  p.port < 16 && p.sport < 65536 && p.cls < 16 && p.hint < 256 && p.msgId < 65536 && p.index < 256 &&
  p.count < 256 && p.offset < 2 ^ 48 && p.payload.length < 65536

/-- A session names a connection of the table (03 R77). -/
def Session.wf : Session → Bool
  | .i2c => true
  | .mgmt c => c < 16384

/-- A session operation carries a well-formed packet. -/
def SesReq.wf : SesReq → Bool
  | .i2c => true
  | .mgmt p => p.wf

/-- A chain handle fits its fields (16 Table 16-8, Handle). -/
def Handle.wf (h : Handle) : Bool := h.head < 131072 && h.gen < 256

/-- A journal entry's length fits its kind (12 Table 12-4). -/
def JEntry.wf (e : JEntry) : Bool :=
  (e.kind == 1 && 1 ≤ e.data.length && e.data.length ≤ 8192) || (e.kind == 2 && e.data.length == 64) ||
  (e.kind == 3 && e.data.length == 8) || (e.kind == 4 && e.data.length == 52)

/-- What S4 learned of a channel fits its slots, package ranks and byte lanes (10 R256, R265). -/
def ChanTrain.wf (t : ChanTrain) : Bool := t.ch < 12 && (t.dimms.all fun d => d.slot < 2) && t.ranks.length ≤ 8 && t.ranks.all fun r => r.length ≤ 10

/-- What a scan read fits the fields of the records and headers (09 Tables 9-4, 9-5). -/
def ScanInfo.wf (f : ScanInfo) : Bool :=
  (f.recs.getD []).all (fun r => r.type < 256 && r.count ≤ 60 && r.body.length ≤ 960) &&
  f.seals.all (·.length == 4096) && f.found.all fun x => x.present < 2 ^ 32 && x.good < 2 ^ 32 && (x.cols.all fun c => c.1 < 32) && x.nodes.all fun c => c.1 < 512

/-- Symbols of a burst are numbered 0 to 79 (11 R277). -/
def errsWf (errs : List (Nat × Byte)) : Bool := errs.all fun e => e.1 < 80 && e.2 != 0

/-- An agent names a comet of the chip (06 R163). -/
def Agent.wf : Agent → Bool
  | .comet n => n < 256
  | _ => true

/-- A fenced unit of the chip (06 R152, R153). -/
def FencedUnit.wf : FencedUnit → Bool
  | .comet n => n < 256
  | .block b => b < 16

/-- The session that sends a command, where a session does. -/
def Instr.session : Instr → Option Session
  | .write _ => none
  | .readReq _ => none
  | .atomicAdd _ => none
  | .atomicCas _ => none
  | .flush _ => none
  | .ack _ => none
  | .window _ => none
  | .connect _ => none
  | .disconnect _ => none
  | .keepalive _ => none
  | .mgmtRead _ => none
  | .mgmtWrite _ => none
  | .subscribe _ => none
  | .unsubscribe _ => none
  | .hello _ => none
  | .prove _ => none
  | .drop _ => none
  | .neighborSolicitation _ _ => none
  | .arpRequest _ _ => none
  | .icmpEcho _ _ _ _ => none
  | .mldQuery _ => none
  | .pause _ _ => none
  | .discardedFrame _ => none
  | .ackTimerExpiry _ => none
  | .retransmitTimeout _ => none
  | .keepaliveInterval _ => none
  | .keepaliveTimeout _ => none
  | .openingTimeout _ => none
  | .closingTimeout _ => none
  | .connEnd ses _ => some ses
  | .tktMingenWrite ses _ _ => some ses
  | .messageStart _ => none
  | .egressReservationRetry => none
  | .lineOperationAccepted _ _ => none
  | .atomicUnitResult _ _ _ => none
  | .stealRequest _ => none
  | .stealRetry _ => none
  | .stealGrant _ _ => none
  | .urgencyAgeExpiry _ _ => none
  | .urgentTake _ => none
  | .cometFence _ _ => none
  | .cometContextStall _ => none
  | .rehome _ => none
  | .blockHeartbeatLoss _ => none
  | .blockFence _ _ => none
  | .regionHeartbeatLoss _ => none
  | .regionFence _ _ => none
  | .chipAgentFault _ => none
  | .watchdogExpiry _ => none
  | .allocate _ _ _ _ => none
  | .append _ _ _ => none
  | .hand _ _ _ => none
  | .share _ _ _ _ => none
  | .release _ _ => none
  | .free _ _ => none
  | .editClaim ses => some ses
  | .editRelease ses => some ses
  | .editClaimTimeout => none
  | .rgnRead ses _ => some ses
  | .rgnCreate ses _ => some ses
  | .rgnModify ses _ => some ses
  | .rgnRotate ses _ => some ses
  | .rgnRemove ses _ => some ses
  | .refusedCommand ses _ _ => some ses
  | .checkEventIntervalEnd => none
  | .clean ses _ => some ses
  | .invalidate ses _ => some ses
  | .cleanInvalidate ses _ => some ses
  | .preload ses _ => some ses
  | .maintenanceComplete _ _ => none
  | .cacheEnableWrite ses _ => some ses
  | .lockWaysWrite ses _ => some ses
  | .cacheFillReturn _ _ => none
  | .writeThroughDrain _ => none
  | .fetchComplete _ _ _ _ _ => none
  | .destageChoose _ _ => none
  | .stripeWaitExpiry _ => none
  | .stripeSealed _ => none
  | .stripeWriteAbandoned _ => none
  | .evictionConfirmed _ => none
  | .coldHoldExpiry _ => none
  | .mapNodeLoaded _ _ _ => none
  | .drivePresenceChange _ _ => none
  | .perstDelayExpiry => none
  | .driveLinkChange _ _ _ _ _ => none
  | .pcieAerError _ _ => none
  | .linkRetrainTimeout _ => none
  | .nvmeCommandComplete _ _ _ => none
  | .nvmeCommandTimeout _ _ => none
  | .controllerReadyTimeout _ => none
  | .nvmeAsyncEvent _ _ => none
  | .smartPoll _ => none
  | .driveReady _ _ => none
  | .setScanComplete _ _ => none
  | .readyWaitExpiry _ => none
  | .journalPositionReplace _ => none
  | .rebuildDelayExpiry _ => none
  | .rebuild ses _ _ _ => some ses
  | .rebuildForce ses _ _ _ => some ses
  | .rebuildComplete _ => none
  | .form ses _ => some ses
  | .checkpointWritten => none
  | .patrolVisit _ _ _ _ => none
  | .dimmTempPoll _ => none
  | .mr4Poll _ => none
  | .refreshDue _ _ _ => none
  | .refreshForced _ _ => none
  | .writeQueueAgeExpiry _ => none
  | .rdWindowEnd => none
  | .rdSpacingExpiry _ _ _ => none
  | .frequencyChange ses _ => some ses
  | .channelFrequencyDone _ => none
  | .readProbe ses _ => some ses
  | .pattern ses _ => some ses
  | .patternFull ses _ => some ses
  | .eyeSweep ses _ => some ses
  | .caSweep ses _ => some ses
  | .marginHelperDone _ _ => none
  | .repairEnd _ _ => none
  | .scrubRead _ _ => none
  | .remapClear ses _ => some ses
  | .journal _ _ => none
  | .journalAck _ _ _ _ => none
  | .heartbeat _ _ _ _ _ _ => none
  | .mirrorWrite _ _ => none
  | .mirrorFetch _ _ _ _ => none
  | .fetchResp _ _ _ _ _ => none
  | .sealNoteRelease _ _ => none
  | .sealNoteEclipse _ => none
  | .sealNoteSealed _ _ _ => none
  | .roleStart _ _ _ _ => none
  | .roleJoin _ _ => none
  | .roleCaughtUp _ => none
  | .roleTakeover _ => none
  | .roleSwitchGo _ _ => none
  | .roleRefuse _ _ => none
  | .heartbeatInterval => none
  | .heartbeatLoss => none
  | .syzRetransmitTimeout => none
  | .syzLinkChange _ _ => none
  | .soloWaitExpiry _ => none
  | .reservationCheck _ => none
  | .fenceLimitExpiry => none
  | .preemptComplete => none
  | .sealSearchComplete _ => none
  | .sealWaitExpiry => none
  | .takeoverActive => none
  | .replayComplete => none
  | .eclipseTimeout => none
  | .joinWaitExpiry _ => none
  | .twinFenceInChange _ => none
  | .switchover ses => some ses
  | .railSample _ => none
  | .pwrFail => none
  | .pwrGoodIn => none
  | .aonResetRelease _ => none
  | .startPulse _ => none
  | .seqSyncRise => none
  | .sequenceFault => none
  | .resetStretchExpiry _ => none
  | .e2LimitExpiry => none
  | .e2Complete => none
  | .e3Complete => none
  | .drainComplete => none
  | .sealWritten => none
  | .downSequenceEnd => none
  | .inputReturned => none
  | .drainRateSecond => none
  | .sfdpReadComplete _ => none
  | .imageReadComplete _ => none
  | .sramInitComplete _ => none
  | .trainingComplete _ => none
  | .hostLinkChange _ _ => none
  | .portWaitExpiry => none
  | .maintenanceModeAlternate => none
  | .restart ses => some ses
  | .clampClr ses => some ses
  | .stageBegin ses => some ses
  | .stageWrite ses => some ses
  | .stageCommit ses => some ses
  | .stageAbort ses => some ses
  | .stageOperationComplete => none
  | .stageTimeout => none
  | .flashRecordWritten => none
  | .challengeExpiry ses => some ses
  | .lockoutExpiry _ => none
  | .i2cRoleTimeout => none
  | .powerTable ses _ => some ses
  | .mac ses _ => some ses
  | .rootHash ses _ => some ses
  | .lock ses => some ses
  | .unlock ses => some ses
  | .disableForever ses => some ses
  | .ticketKeyLoad ses _ => some ses
  | .ticketKeyClear ses _ => some ses
  | .attestationGo ses => some ses
  | .attestationDone => none
  | .recorderBlockCopy => none
  | .archiveRead ses _ => some ses
  | .archiveReadDone _ => none
  | .floodWindowEnd => none
  | .alertClear ses => some ses
  | .evrCursorWrite ses _ => some ses
  | .latchingRead ses _ => some ses
  | .clearingRead ses _ => some ses
  | .i2cWrite _ _ => none
  | .i2cRead _ _ => none
  | .i2cTimeout => none
  | .registerWrite ses _ _ => some ses
  | .alwaysOnSupplyLoss => none
  | .driveShutdownComplete _ => none
  | .drvPerstPulseExpiry _ => none
  | .rdThrottleMinExpiry _ _ _ => none
  | .tapInstruction _ => none
  | .backgroundEraseComplete _ => none
  | .returnStableWaitExpiry => none
  | .minOffExpiry => none

/-- The operands of a command fit the fields the spec gives them. -/
def Instr.wf : Instr → Bool
  | .write p => p.wf
  | .readReq p => p.wf
  | .atomicAdd p => p.wf
  | .atomicCas p => p.wf
  | .flush p => p.wf
  | .ack p => p.wf
  | .window p => p.wf
  | .connect p => p.wf
  | .disconnect p => p.wf
  | .keepalive p => p.wf
  | .mgmtRead p => p.wf
  | .mgmtWrite p => p.wf
  | .subscribe p => p.wf
  | .unsubscribe p => p.wf
  | .hello q => q.wf
  | .prove q => q.wf
  | .drop q => q.wf
  | .neighborSolicitation port _ => port < 16
  | .arpRequest port _ => port < 16
  | .icmpEcho port _ _ _ => port < 16
  | .mldQuery port => port < 16
  | .pause port quanta => port < 16 && quanta < 65536
  | .discardedFrame _ => true
  | .ackTimerExpiry c => c < 16384
  | .retransmitTimeout c => c < 16384
  | .keepaliveInterval c => c < 16384
  | .keepaliveTimeout c => c < 16384
  | .openingTimeout c => c < 16384
  | .closingTimeout c => c < 16384
  | .connEnd ses c => ses.wf && c < 16384
  | .tktMingenWrite ses g _ => ses.wf && g < 64
  | .messageStart comet => comet < 256
  | .egressReservationRetry => true
  | .lineOperationAccepted bank reqs => bank < 64 && (reqs.all fun r => r.conn < 16384 && r.arr < 4 && errsWf r.errs)
  | .atomicUnitResult bank line errs => bank < 64 && line < 2 ^ 41 && errsWf errs
  | .stealRequest comet => comet < 256
  | .stealRetry comet => comet < 256
  | .stealGrant _ arbiter => arbiter < 16
  | .urgencyAgeExpiry c _ => c < 16384
  | .urgentTake comet => comet < 256
  | .cometFence comet _ => comet < 256
  | .cometContextStall comet => comet < 256
  | .rehome u => u.wf
  | .blockHeartbeatLoss b => b < 16
  | .blockFence b _ => b < 16
  | .regionHeartbeatLoss r => r < 4
  | .regionFence r _ => r < 4
  | .chipAgentFault _ => true
  | .watchdogExpiry _ => true
  | .allocate ag pool group _ => ag.wf && pool < 4 && group < 64
  | .append ag h _ => ag.wf && h.wf
  | .hand ag h heir => ag.wf && h.wf && heir.wf
  | .share ag h sharers last => ag.wf && h.wf && sharers.all Agent.wf && last.wf
  | .release ag h => ag.wf && h.wf
  | .free ag h => ag.wf && h.wf
  | .editClaim ses => ses.wf
  | .editRelease ses => ses.wf
  | .editClaimTimeout => true
  | .rgnRead ses idx => ses.wf && idx < 65536
  | .rgnCreate ses idx => ses.wf && idx < 65536
  | .rgnModify ses idx => ses.wf && idx < 65536
  | .rgnRotate ses idx => ses.wf && idx < 65536
  | .rgnRemove ses idx => ses.wf && idx < 65536
  | .refusedCommand ses idx code => ses.wf && idx < 65536 && code < 16
  | .checkEventIntervalEnd => true
  | .clean ses m => ses.wf && m.bank < 256 && m.set < 4096 && m.way < 16 && m.base < 2 ^ 64 && m.len < 2 ^ 64
  | .invalidate ses m => ses.wf && m.bank < 256 && m.set < 4096 && m.way < 16 && m.base < 2 ^ 64 && m.len < 2 ^ 64
  | .cleanInvalidate ses m =>
    ses.wf && m.bank < 256 && m.set < 4096 && m.way < 16 && m.base < 2 ^ 64 && m.len < 2 ^ 64
  | .preload ses m => ses.wf && m.bank < 256 && m.set < 4096 && m.way < 16 && m.base < 2 ^ 64 && m.len < 2 ^ 64
  | .maintenanceComplete arr errs => (arr.all fun e => e.1 < 2 ^ 41 && 1 ≤ e.2 && e.2 ≤ 3) && errs.all fun e => e.1 < 2 ^ 41 && errsWf e.2
  | .cacheEnableWrite ses _ => ses.wf
  | .lockWaysWrite ses n => ses.wf && n < 16
  | .cacheFillReturn bank errs => bank < 64 && errsWf errs
  | .writeThroughDrain bank => bank < 64
  | .fetchComplete page bad fixed _ errs => page < 2 ^ 31 && bad.all (· < 16) && fixed.all (· < 16) && errs.all fun e => e.1 / 1024 == page && errsWf e.2
  | .destageChoose set errs => set < 4 && errs.all fun e => errsWf e.2
  | .stripeWaitExpiry set => set < 4
  | .stripeSealed set => set < 4
  | .stripeWriteAbandoned set => set < 4
  | .evictionConfirmed page => page < 2 ^ 31
  | .coldHoldExpiry page => page < 2 ^ 31
  | .mapNodeLoaded level idx tries => level < 4 && idx < 2 ^ 30 && tries.all fun t => t.all fun e => e.1 < 512 && e.2 < 2 ^ 64
  | .drivePresenceChange d _ => d < 32
  | .perstDelayExpiry => true
  | .driveLinkChange d _ _ rate _ => d < 32 && rate < 3
  | .pcieAerError d _ => d < 32
  | .linkRetrainTimeout d => d < 32
  | .nvmeCommandComplete d cid _ => d < 32 && cid < 65536
  | .nvmeCommandTimeout d cid => d < 32 && cid < 65536
  | .controllerReadyTimeout d => d < 32
  | .nvmeAsyncEvent d _ => d < 32
  | .smartPoll _ => true
  | .driveReady d info => d < 32 && info.warn < 256
  | .setScanComplete set f => set < 4 && f.wf
  | .readyWaitExpiry set => set < 4
  | .journalPositionReplace set => set < 4
  | .rebuildDelayExpiry set => set < 4
  | .rebuild ses set pos d => ses.wf && set < 4 && pos < 32 && d < 32
  | .rebuildForce ses set pos d => ses.wf && set < 4 && pos < 32 && d < 32
  | .rebuildComplete set => set < 4
  | .form ses set => ses.wf && set < 4
  | .checkpointWritten => true
  | .patrolVisit set _ _ _ => set < 4
  | .dimmTempPoll _ => true
  | .mr4Poll _ => true
  | .refreshDue ch rank _ => ch < 12 && rank < 16
  | .refreshForced ch rank => ch < 12 && rank < 16
  | .writeQueueAgeExpiry ch => ch < 12
  | .rdWindowEnd => true
  | .rdSpacingExpiry ch c _ => ch < 12 && c < 16384
  | .frequencyChange ses target => ses.wf && target < 4
  | .channelFrequencyDone ranks => ranks.length ≤ 8 && ranks.all fun r => r.length ≤ 10
  | .readProbe ses m => ses.wf && m.ch < 12 && m.lane < 16 && m.rank < 16
  | .pattern ses m => ses.wf && m.ch < 12 && m.lane < 16 && m.rank < 16
  | .patternFull ses m => ses.wf && m.ch < 12 && m.lane < 16 && m.rank < 16
  | .eyeSweep ses m => ses.wf && m.ch < 12 && m.lane < 16 && m.rank < 16
  | .caSweep ses m => ses.wf && m.ch < 12 && m.lane < 16 && m.rank < 16
  | .marginHelperDone ch _ => ch < 12
  | .repairEnd line _ => line < 2 ^ 41
  | .scrubRead ch errs => ch < 12 && errsWf errs
  | .remapClear ses _ => ses.wf
  | .journal h es => h.link < 4 && es.all JEntry.wf
  | .journalAck h _ _ credit => h.link < 4 && credit < 65536
  | .heartbeat h _ _ _ _ _ => h.link < 4
  | .mirrorWrite h es => h.link < 4 && es.all JEntry.wf
  | .mirrorFetch h addr _ tag => h.link < 4 && addr < 2 ^ 47 && tag < 65536
  | .fetchResp h tag _ _ _ => h.link < 4 && tag < 65536
  | .sealNoteRelease h _ => h.link < 4
  | .sealNoteEclipse h => h.link < 4
  | .sealNoteSealed h _ _ => h.link < 4
  | .roleStart h _ _ _ => h.link < 4
  | .roleJoin h _ => h.link < 4
  | .roleCaughtUp h => h.link < 4
  | .roleTakeover h => h.link < 4
  | .roleSwitchGo h _ => h.link < 4
  | .roleRefuse h _ => h.link < 4
  | .heartbeatInterval => true
  | .heartbeatLoss => true
  | .syzRetransmitTimeout => true
  | .syzLinkChange link _ => link < 4
  | .soloWaitExpiry _ => true
  | .reservationCheck _ => true
  | .fenceLimitExpiry => true
  | .preemptComplete => true
  | .sealSearchComplete blocks => blocks.all (·.length == 4096)
  | .sealWaitExpiry => true
  | .takeoverActive => true
  | .replayComplete => true
  | .eclipseTimeout => true
  | .joinWaitExpiry _ => true
  | .twinFenceInChange _ => true
  | .switchover ses => ses.wf
  | .railSample codes => codes.length == 17 && codes.all (· < 4096)
  | .pwrFail => true
  | .pwrGoodIn => true
  | .aonResetRelease straps => straps < 4
  | .startPulse _ => true
  | .seqSyncRise => true
  | .sequenceFault => true
  | .resetStretchExpiry j => j < 8
  | .e2LimitExpiry => true
  | .e2Complete => true
  | .e3Complete => true
  | .drainComplete => true
  | .sealWritten => true
  | .downSequenceEnd => true
  | .inputReturned => true
  | .drainRateSecond => true
  | .sfdpReadComplete _ => true
  | .imageReadComplete slot => slot < 2
  | .sramInitComplete _ => true
  | .trainingComplete l => l.all ChanTrain.wf
  | .hostLinkChange port _ => port < 16
  | .portWaitExpiry => true
  | .maintenanceModeAlternate => true
  | .restart ses => ses.wf
  | .clampClr ses => ses.wf
  | .stageBegin ses => ses.wf
  | .stageWrite ses => ses.wf
  | .stageCommit ses => ses.wf
  | .stageAbort ses => ses.wf
  | .stageOperationComplete => true
  | .stageTimeout => true
  | .flashRecordWritten => true
  | .challengeExpiry ses => ses.wf
  | .lockoutExpiry _ => true
  | .i2cRoleTimeout => true
  | .powerTable ses _ => ses.wf
  | .mac ses _ => ses.wf
  | .rootHash ses _ => ses.wf
  | .lock ses => ses.wf
  | .unlock ses => ses.wf
  | .disableForever ses => ses.wf
  | .ticketKeyLoad ses slot => ses.wf && slot < 4
  | .ticketKeyClear ses slot => ses.wf && slot < 4
  | .attestationGo ses => ses.wf
  | .attestationDone => true
  | .recorderBlockCopy => true
  | .archiveRead ses _ => ses.wf
  | .archiveReadDone _ => true
  | .floodWindowEnd => true
  | .alertClear ses => ses.wf
  | .evrCursorWrite ses _ => ses.wf
  | .latchingRead ses addr => ses.wf && addr < 2 ^ 32 && addr % 4 == 0
  | .clearingRead ses addr => ses.wf && addr < 2 ^ 32 && addr % 4 == 0
  | .i2cWrite _ _ => true
  | .i2cRead addrBytes _ => addrBytes.length ≤ 4
  | .i2cTimeout => true
  | .registerWrite ses addr _ => ses.wf && addr < 2 ^ 32 && addr % 4 == 0
  | .alwaysOnSupplyLoss => true
  | .driveShutdownComplete d => d < 32
  | .drvPerstPulseExpiry d => d < 32
  | .rdThrottleMinExpiry ch c _ => ch < 12 && c < 16384
  | .tapInstruction _ => true
  | .backgroundEraseComplete _ => true
  | .returnStableWaitExpiry => true
  | .minOffExpiry => true

end Sys2Proof
end

