-- ==== Sys2Proof/Laws/PerInstr.lean ====
section
/-!
SUPPORT. Statements for every command, by constructor: a well-formed command of a session names a session of the device.
-/
set_option Elab.async false
namespace Sys2Proof.Laws.WellFormed

/-- A well-formed command that a session sends names the I2C target or a connection of the table (15 R375, 03 R77). -/
def Statement (i : Instr) : Prop := i.wf = true → ∀ q, i.session = some q → q.wf = true

/-- A command that no session sends. -/
theorem of_none {i : Instr} (h : i.session = none) : Statement i := by
  intro _ q hq; rw [h] at hq; cases hq

/-- A command of a session whose well-formedness implies the session's. -/
theorem of_some {i : Instr} {q : Session} (h : i.session = some q) (g : i.wf = true → q.wf = true) : Statement i := by
  intro w r hr; rw [h] at hr; cases hr; exact g w

theorem write (p : Packet) : Statement (.write p) := of_none rfl
theorem readReq (p : Packet) : Statement (.readReq p) := of_none rfl
theorem atomicAdd (p : Packet) : Statement (.atomicAdd p) := of_none rfl
theorem atomicCas (p : Packet) : Statement (.atomicCas p) := of_none rfl
theorem flush (p : Packet) : Statement (.flush p) := of_none rfl
theorem ack (p : Packet) : Statement (.ack p) := of_none rfl
theorem window (p : Packet) : Statement (.window p) := of_none rfl
theorem connect (p : Packet) : Statement (.connect p) := of_none rfl
theorem disconnect (p : Packet) : Statement (.disconnect p) := of_none rfl
theorem keepalive (p : Packet) : Statement (.keepalive p) := of_none rfl
theorem mgmtRead (p : Packet) : Statement (.mgmtRead p) := of_none rfl
theorem mgmtWrite (p : Packet) : Statement (.mgmtWrite p) := of_none rfl
theorem subscribe (p : Packet) : Statement (.subscribe p) := of_none rfl
theorem unsubscribe (p : Packet) : Statement (.unsubscribe p) := of_none rfl
theorem hello (q : SesReq) : Statement (.hello q) := of_none rfl
theorem prove (q : SesReq) : Statement (.prove q) := of_none rfl
theorem drop (q : SesReq) : Statement (.drop q) := of_none rfl
theorem neighborSolicitation (port : Nat) (target : BitVec 128) : Statement (.neighborSolicitation port target) :=
  of_none rfl
theorem arpRequest (port : Nat) (target : BitVec 32) : Statement (.arpRequest port target) := of_none rfl
theorem icmpEcho (port : Nat) (src : BitVec 128) (head : BitVec 32) (data : List Byte) :
    Statement (.icmpEcho port src head data) := of_none rfl
theorem mldQuery (port : Nat) : Statement (.mldQuery port) := of_none rfl
theorem pause (port : Nat) (quanta : Nat) : Statement (.pause port quanta) := of_none rfl
theorem discardedFrame (f : Frame) : Statement (.discardedFrame f) := of_none rfl
theorem ackTimerExpiry (c : Nat) : Statement (.ackTimerExpiry c) := of_none rfl
theorem retransmitTimeout (c : Nat) : Statement (.retransmitTimeout c) := of_none rfl
theorem keepaliveInterval (c : Nat) : Statement (.keepaliveInterval c) := of_none rfl
theorem keepaliveTimeout (c : Nat) : Statement (.keepaliveTimeout c) := of_none rfl
theorem openingTimeout (c : Nat) : Statement (.openingTimeout c) := of_none rfl
theorem closingTimeout (c : Nat) : Statement (.closingTimeout c) := of_none rfl
theorem connEnd (ses : Session) (c : Nat) : Statement (.connEnd ses c) :=
  of_some rfl fun h => by simp only [Instr.wf, Bool.and_eq_true] at h; exact h.1
theorem tktMingenWrite (ses : Session) (g : Nat) (v : Word) : Statement (.tktMingenWrite ses g v) :=
  of_some rfl fun h => by simp only [Instr.wf, Bool.and_eq_true] at h; exact h.1
theorem messageStart (comet : Nat) : Statement (.messageStart comet) := of_none rfl
theorem egressReservationRetry : Statement .egressReservationRetry := of_none rfl
theorem lineOperationAccepted (bank : Nat) (reqs : List LineReq) : Statement (.lineOperationAccepted bank reqs) :=
  of_none rfl
theorem atomicUnitResult (bank : Nat) (line : Nat) (errs : List (Nat × Byte)) : Statement (.atomicUnitResult bank line errs) :=
  of_none rfl
theorem stealRequest (comet : Nat) : Statement (.stealRequest comet) := of_none rfl
theorem stealRetry (comet : Nat) : Statement (.stealRetry comet) := of_none rfl
theorem stealGrant (level : StealLevel) (arbiter : Nat) : Statement (.stealGrant level arbiter) := of_none rfl
theorem urgencyAgeExpiry (c : Nat) (psn : BitVec 32) : Statement (.urgencyAgeExpiry c psn) := of_none rfl
theorem urgentTake (comet : Nat) : Statement (.urgentTake comet) := of_none rfl
theorem cometFence (comet : Nat) (cause : Nat) : Statement (.cometFence comet cause) := of_none rfl
theorem cometContextStall (comet : Nat) : Statement (.cometContextStall comet) := of_none rfl
theorem rehome (u : FencedUnit) : Statement (.rehome u) := of_none rfl
theorem blockHeartbeatLoss (b : Nat) : Statement (.blockHeartbeatLoss b) := of_none rfl
theorem blockFence (b : Nat) (cause : Nat) : Statement (.blockFence b cause) := of_none rfl
theorem regionHeartbeatLoss (r : Nat) : Statement (.regionHeartbeatLoss r) := of_none rfl
theorem regionFence (r : Nat) (cause : Nat) : Statement (.regionFence r cause) := of_none rfl
theorem chipAgentFault (agent : ChipAgent) : Statement (.chipAgentFault agent) := of_none rfl
theorem watchdogExpiry (cause : WdtCause) : Statement (.watchdogExpiry cause) := of_none rfl
theorem allocate (ag : Agent) (pool : Nat) (group : Nat) (n : Nat) : Statement (.allocate ag pool group n) :=
  of_none rfl
theorem append (ag : Agent) (h : Handle) (n : Nat) : Statement (.append ag h n) := of_none rfl
theorem hand (ag : Agent) (h : Handle) (heir : Agent) : Statement (.hand ag h heir) := of_none rfl
theorem share (ag : Agent) (h : Handle) (sharers : List Agent) (last : Agent) : Statement (.share ag h sharers last) :=
  of_none rfl
theorem release (ag : Agent) (h : Handle) : Statement (.release ag h) := of_none rfl
theorem free (ag : Agent) (h : Handle) : Statement (.free ag h) := of_none rfl
theorem editClaim (ses : Session) : Statement (.editClaim ses) := of_some rfl fun h => h
theorem editRelease (ses : Session) : Statement (.editRelease ses) := of_some rfl fun h => h
theorem editClaimTimeout : Statement .editClaimTimeout := of_none rfl
theorem rgnRead (ses : Session) (idx : Nat) : Statement (.rgnRead ses idx) :=
  of_some rfl fun h => by simp only [Instr.wf, Bool.and_eq_true] at h; exact h.1
theorem rgnCreate (ses : Session) (idx : Nat) : Statement (.rgnCreate ses idx) :=
  of_some rfl fun h => by simp only [Instr.wf, Bool.and_eq_true] at h; exact h.1
theorem rgnModify (ses : Session) (idx : Nat) : Statement (.rgnModify ses idx) :=
  of_some rfl fun h => by simp only [Instr.wf, Bool.and_eq_true] at h; exact h.1
theorem rgnRotate (ses : Session) (idx : Nat) : Statement (.rgnRotate ses idx) :=
  of_some rfl fun h => by simp only [Instr.wf, Bool.and_eq_true] at h; exact h.1
theorem rgnRemove (ses : Session) (idx : Nat) : Statement (.rgnRemove ses idx) :=
  of_some rfl fun h => by simp only [Instr.wf, Bool.and_eq_true] at h; exact h.1
theorem refusedCommand (ses : Session) (idx : Nat) (code : Nat) : Statement (.refusedCommand ses idx code) :=
  of_some rfl fun h => by simp only [Instr.wf, Bool.and_eq_true] at h; exact h.1.1
theorem checkEventIntervalEnd : Statement .checkEventIntervalEnd := of_none rfl
theorem clean (ses : Session) (m : MaintReq) : Statement (.clean ses m) :=
  of_some rfl fun h => by simp only [Instr.wf, Bool.and_eq_true] at h; exact h.1.1.1.1.1
theorem invalidate (ses : Session) (m : MaintReq) : Statement (.invalidate ses m) :=
  of_some rfl fun h => by simp only [Instr.wf, Bool.and_eq_true] at h; exact h.1.1.1.1.1
theorem cleanInvalidate (ses : Session) (m : MaintReq) : Statement (.cleanInvalidate ses m) :=
  of_some rfl fun h => by simp only [Instr.wf, Bool.and_eq_true] at h; exact h.1.1.1.1.1
theorem preload (ses : Session) (m : MaintReq) : Statement (.preload ses m) :=
  of_some rfl fun h => by simp only [Instr.wf, Bool.and_eq_true] at h; exact h.1.1.1.1.1
theorem maintenanceComplete (arr : List (Nat × Nat)) (errs : List (Nat × List (Nat × Byte))) :
    Statement (.maintenanceComplete arr errs) := of_none rfl
theorem cacheEnableWrite (ses : Session) (en : Bool) : Statement (.cacheEnableWrite ses en) := of_some rfl fun h => h
theorem lockWaysWrite (ses : Session) (n : Nat) : Statement (.lockWaysWrite ses n) :=
  of_some rfl fun h => by simp only [Instr.wf, Bool.and_eq_true] at h; exact h.1
theorem cacheFillReturn (bank : Nat) (errs : List (Nat × Byte)) : Statement (.cacheFillReturn bank errs) :=
  of_none rfl
theorem writeThroughDrain (bank : Nat) : Statement (.writeThroughDrain bank) := of_none rfl
theorem fetchComplete (page : Nat) (bad fixed : List Nat) (time : Nat) (errs : List (Nat × List (Nat × Byte))) :
    Statement (.fetchComplete page bad fixed time errs) := of_none rfl
theorem destageChoose (set : Nat) (errs : List (Nat × List (Nat × Byte))) : Statement (.destageChoose set errs) := of_none rfl
theorem stripeWaitExpiry (set : Nat) : Statement (.stripeWaitExpiry set) := of_none rfl
theorem stripeSealed (set : Nat) : Statement (.stripeSealed set) := of_none rfl
theorem stripeWriteAbandoned (set : Nat) : Statement (.stripeWriteAbandoned set) := of_none rfl
theorem evictionConfirmed (page : Nat) : Statement (.evictionConfirmed page) := of_none rfl
theorem coldHoldExpiry (page : Nat) : Statement (.coldHoldExpiry page) := of_none rfl
theorem mapNodeLoaded (level : Nat) (idx : Nat) (tries : List NodeWords) : Statement (.mapNodeLoaded level idx tries) := of_none rfl
theorem drivePresenceChange (d : Nat) (present : Bool) : Statement (.drivePresenceChange d present) := of_none rfl
theorem perstDelayExpiry : Statement .perstDelayExpiry := of_none rfl
theorem driveLinkChange (d : Nat) (up : Bool) (width : Nat) (rate : Nat) (flit : Bool) : Statement (.driveLinkChange d up width rate flit) :=
  of_none rfl
theorem pcieAerError (d : Nat) (k : AerKind) : Statement (.pcieAerError d k) := of_none rfl
theorem linkRetrainTimeout (d : Nat) : Statement (.linkRetrainTimeout d) := of_none rfl
theorem nvmeCommandComplete (d : Nat) (cid : Nat) (st : NvmeStatus) : Statement (.nvmeCommandComplete d cid st) :=
  of_none rfl
theorem nvmeCommandTimeout (d : Nat) (cid : Nat) : Statement (.nvmeCommandTimeout d cid) := of_none rfl
theorem controllerReadyTimeout (d : Nat) : Statement (.controllerReadyTimeout d) := of_none rfl
theorem nvmeAsyncEvent (d : Nat) (warning : Nat) : Statement (.nvmeAsyncEvent d warning) := of_none rfl
theorem smartPoll (warnings : List (Nat × Nat)) : Statement (.smartPoll warnings) := of_none rfl
theorem driveReady (d : Nat) (info : DriveInfo) : Statement (.driveReady d info) := of_none rfl
theorem setScanComplete (set : Nat) (info : ScanInfo) : Statement (.setScanComplete set info) := of_none rfl
theorem readyWaitExpiry (set : Nat) : Statement (.readyWaitExpiry set) := of_none rfl
theorem journalPositionReplace (set : Nat) : Statement (.journalPositionReplace set) := of_none rfl
theorem rebuildDelayExpiry (set : Nat) : Statement (.rebuildDelayExpiry set) := of_none rfl
theorem rebuild (ses : Session) (set : Nat) (pos : Nat) (d : Nat) : Statement (.rebuild ses set pos d) :=
  of_some rfl fun h => by simp only [Instr.wf, Bool.and_eq_true] at h; exact h.1.1.1
theorem rebuildForce (ses : Session) (set : Nat) (pos : Nat) (d : Nat) : Statement (.rebuildForce ses set pos d) :=
  of_some rfl fun h => by simp only [Instr.wf, Bool.and_eq_true] at h; exact h.1.1.1
theorem rebuildComplete (set : Nat) : Statement (.rebuildComplete set) := of_none rfl
theorem form (ses : Session) (set : Nat) : Statement (.form ses set) :=
  of_some rfl fun h => by simp only [Instr.wf, Bool.and_eq_true] at h; exact h.1
theorem checkpointWritten : Statement .checkpointWritten := of_none rfl
theorem patrolVisit (set : Nat) (slot : Nat) (finding : PatrolFinding) (lapEnd : Option Nat) : Statement (.patrolVisit set slot finding lapEnd) :=
  of_none rfl
theorem dimmTempPoll (readings : List (Nat × Nat × Int)) : Statement (.dimmTempPoll readings) := of_none rfl
theorem mr4Poll (doubled : List (Nat × Nat)) : Statement (.mr4Poll doubled) := of_none rfl
theorem refreshDue (ch : Nat) (rank : Nat) (elapsed : Nat) : Statement (.refreshDue ch rank elapsed) := of_none rfl
theorem refreshForced (ch : Nat) (rank : Nat) : Statement (.refreshForced ch rank) := of_none rfl
theorem writeQueueAgeExpiry (ch : Nat) : Statement (.writeQueueAgeExpiry ch) := of_none rfl
theorem rdWindowEnd : Statement .rdWindowEnd := of_none rfl
theorem rdSpacingExpiry (ch : Nat) (c : Nat) (bank : Nat) : Statement (.rdSpacingExpiry ch c bank) := of_none rfl
theorem frequencyChange (ses : Session) (target : Nat) : Statement (.frequencyChange ses target) :=
  of_some rfl fun h => by simp only [Instr.wf, Bool.and_eq_true] at h; exact h.1
theorem channelFrequencyDone (ranks : List (List LaneEye)) : Statement (.channelFrequencyDone ranks) := of_none rfl
theorem readProbe (ses : Session) (m : MarginReq) : Statement (.readProbe ses m) :=
  of_some rfl fun h => by simp only [Instr.wf, Bool.and_eq_true] at h; exact h.1.1.1
theorem pattern (ses : Session) (m : MarginReq) : Statement (.pattern ses m) :=
  of_some rfl fun h => by simp only [Instr.wf, Bool.and_eq_true] at h; exact h.1.1.1
theorem patternFull (ses : Session) (m : MarginReq) : Statement (.patternFull ses m) :=
  of_some rfl fun h => by simp only [Instr.wf, Bool.and_eq_true] at h; exact h.1.1.1
theorem eyeSweep (ses : Session) (m : MarginReq) : Statement (.eyeSweep ses m) :=
  of_some rfl fun h => by simp only [Instr.wf, Bool.and_eq_true] at h; exact h.1.1.1
theorem caSweep (ses : Session) (m : MarginReq) : Statement (.caSweep ses m) :=
  of_some rfl fun h => by simp only [Instr.wf, Bool.and_eq_true] at h; exact h.1.1.1
theorem marginHelperDone (ch : Nat) (r : MarginResult) : Statement (.marginHelperDone ch r) := of_none rfl
theorem repairEnd (line : Nat) (stored : Bool) : Statement (.repairEnd line stored) := of_none rfl
theorem scrubRead (ch : Nat) (errs : List (Nat × Byte)) : Statement (.scrubRead ch errs) :=
  of_none rfl
theorem remapClear (ses : Session) (mask : Nat) : Statement (.remapClear ses mask) := of_some rfl fun h => h
theorem journal (h : SyzHead) (es : List JEntry) : Statement (.journal h es) := of_none rfl
theorem journalAck (h : SyzHead) (pos : Nat) (cum : BitVec 32) (credit : Nat) : Statement (.journalAck h pos cum credit) :=
  of_none rfl
theorem heartbeat (h : SyzHead) (state : Nat) (role : Nat) (caughtUp : Bool) (eclipse : Bool) (pos : Nat) : Statement (.heartbeat h state role caughtUp eclipse pos) :=
  of_none rfl
theorem mirrorWrite (h : SyzHead) (es : List JEntry) : Statement (.mirrorWrite h es) := of_none rfl
theorem mirrorFetch (h : SyzHead) (addr : Nat) (size : Nat) (tag : Nat) : Statement (.mirrorFetch h addr size tag) :=
  of_none rfl
theorem fetchResp (h : SyzHead) (tag : Nat) (source : Nat) (mask : Nat) (data : List Byte) : Statement (.fetchResp h tag source mask data) :=
  of_none rfl
theorem sealNoteRelease (h : SyzHead) (pos : Nat) : Statement (.sealNoteRelease h pos) := of_none rfl
theorem sealNoteEclipse (h : SyzHead) : Statement (.sealNoteEclipse h) := of_none rfl
theorem sealNoteSealed (h : SyzHead) (last : Nat) (seq : Nat) : Statement (.sealNoteSealed h last seq) := of_none rfl
theorem roleStart (h : SyzHead) (m : RoleMsg) (state : Nat) (caughtUp : Bool) : Statement (.roleStart h m state caughtUp) :=
  of_none rfl
theorem roleJoin (h : SyzHead) (m : RoleMsg) : Statement (.roleJoin h m) := of_none rfl
theorem roleCaughtUp (h : SyzHead) : Statement (.roleCaughtUp h) := of_none rfl
theorem roleTakeover (h : SyzHead) : Statement (.roleTakeover h) := of_none rfl
theorem roleSwitchGo (h : SyzHead) (last : Nat) : Statement (.roleSwitchGo h last) := of_none rfl
theorem roleRefuse (h : SyzHead) (causes : Nat) : Statement (.roleRefuse h causes) := of_none rfl
theorem heartbeatInterval : Statement .heartbeatInterval := of_none rfl
theorem heartbeatLoss : Statement .heartbeatLoss := of_none rfl
theorem syzRetransmitTimeout : Statement .syzRetransmitTimeout := of_none rfl
theorem syzLinkChange (link : Nat) (up : Bool) : Statement (.syzLinkChange link up) := of_none rfl
theorem soloWaitExpiry (hs : List Holder) : Statement (.soloWaitExpiry hs) := of_none rfl
theorem reservationCheck (hs : List Holder) : Statement (.reservationCheck hs) := of_none rfl
theorem fenceLimitExpiry : Statement .fenceLimitExpiry := of_none rfl
theorem preemptComplete : Statement .preemptComplete := of_none rfl
theorem sealSearchComplete (blocks : List (List Byte)) : Statement (.sealSearchComplete blocks) := of_none rfl
theorem sealWaitExpiry : Statement .sealWaitExpiry := of_none rfl
theorem takeoverActive : Statement .takeoverActive := of_none rfl
theorem replayComplete : Statement .replayComplete := of_none rfl
theorem eclipseTimeout : Statement .eclipseTimeout := of_none rfl
theorem joinWaitExpiry (hs : List Holder) : Statement (.joinWaitExpiry hs) := of_none rfl
theorem twinFenceInChange (asserted : Bool) : Statement (.twinFenceInChange asserted) := of_none rfl
theorem switchover (ses : Session) : Statement (.switchover ses) := of_some rfl fun h => h
theorem railSample (codes : List Nat) : Statement (.railSample codes) := of_none rfl
theorem pwrFail : Statement .pwrFail := of_none rfl
theorem pwrGoodIn : Statement .pwrGoodIn := of_none rfl
theorem aonResetRelease (straps : Nat) : Statement (.aonResetRelease straps) := of_none rfl
theorem startPulse (us : Nat) : Statement (.startPulse us) := of_none rfl
theorem seqSyncRise : Statement .seqSyncRise := of_none rfl
theorem sequenceFault : Statement .sequenceFault := of_none rfl
theorem resetStretchExpiry (j : Nat) : Statement (.resetStretchExpiry j) := of_none rfl
theorem e2LimitExpiry : Statement .e2LimitExpiry := of_none rfl
theorem e2Complete : Statement .e2Complete := of_none rfl
theorem e3Complete : Statement .e3Complete := of_none rfl
theorem drainComplete : Statement .drainComplete := of_none rfl
theorem sealWritten : Statement .sealWritten := of_none rfl
theorem downSequenceEnd : Statement .downSequenceEnd := of_none rfl
theorem inputReturned : Statement .inputReturned := of_none rfl
theorem drainRateSecond : Statement .drainRateSecond := of_none rfl
theorem sfdpReadComplete (ok : Bool) : Statement (.sfdpReadComplete ok) := of_none rfl
theorem imageReadComplete (slot : Nat) : Statement (.imageReadComplete slot) := of_none rfl
theorem sramInitComplete (fails : List SramFail) : Statement (.sramInitComplete fails) := of_none rfl
theorem trainingComplete (rs : List ChanTrain) : Statement (.trainingComplete rs) := of_none rfl
theorem hostLinkChange (port : Nat) (up : Bool) : Statement (.hostLinkChange port up) := of_none rfl
theorem portWaitExpiry : Statement .portWaitExpiry := of_none rfl
theorem maintenanceModeAlternate : Statement .maintenanceModeAlternate := of_none rfl
theorem restart (ses : Session) : Statement (.restart ses) := of_some rfl fun h => h
theorem clampClr (ses : Session) : Statement (.clampClr ses) := of_some rfl fun h => h
theorem stageBegin (ses : Session) : Statement (.stageBegin ses) := of_some rfl fun h => h
theorem stageWrite (ses : Session) : Statement (.stageWrite ses) := of_some rfl fun h => h
theorem stageCommit (ses : Session) : Statement (.stageCommit ses) := of_some rfl fun h => h
theorem stageAbort (ses : Session) : Statement (.stageAbort ses) := of_some rfl fun h => h
theorem stageOperationComplete : Statement .stageOperationComplete := of_none rfl
theorem stageTimeout : Statement .stageTimeout := of_none rfl
theorem flashRecordWritten : Statement .flashRecordWritten := of_none rfl
theorem challengeExpiry (ses : Session) : Statement (.challengeExpiry ses) := of_some rfl fun h => h
theorem lockoutExpiry (src : Option (BitVec 128)) : Statement (.lockoutExpiry src) := of_none rfl
theorem i2cRoleTimeout : Statement .i2cRoleTimeout := of_none rfl
theorem powerTable (ses : Session) (t : PowerTable) : Statement (.powerTable ses t) := of_some rfl fun h => h
theorem mac (ses : Session) (m : BitVec 48) : Statement (.mac ses m) := of_some rfl fun h => h
theorem rootHash (ses : Session) (h : BitVec 384) : Statement (.rootHash ses h) := of_some rfl fun h => h
theorem lock (ses : Session) : Statement (.lock ses) := of_some rfl fun h => h
theorem unlock (ses : Session) : Statement (.unlock ses) := of_some rfl fun h => h
theorem disableForever (ses : Session) : Statement (.disableForever ses) := of_some rfl fun h => h
theorem ticketKeyLoad (ses : Session) (slot : Nat) : Statement (.ticketKeyLoad ses slot) :=
  of_some rfl fun h => by simp only [Instr.wf, Bool.and_eq_true] at h; exact h.1
theorem ticketKeyClear (ses : Session) (slot : Nat) : Statement (.ticketKeyClear ses slot) :=
  of_some rfl fun h => by simp only [Instr.wf, Bool.and_eq_true] at h; exact h.1
theorem attestationGo (ses : Session) : Statement (.attestationGo ses) := of_some rfl fun h => h
theorem attestationDone : Statement .attestationDone := of_none rfl
theorem recorderBlockCopy : Statement .recorderBlockCopy := of_none rfl
theorem archiveRead (ses : Session) (partner : Bool) : Statement (.archiveRead ses partner) := of_some rfl fun h => h
theorem archiveReadDone (words : Option (List Word)) : Statement (.archiveReadDone words) := of_none rfl
theorem floodWindowEnd : Statement .floodWindowEnd := of_none rfl
theorem alertClear (ses : Session) : Statement (.alertClear ses) := of_some rfl fun h => h
theorem evrCursorWrite (ses : Session) (v : Word) : Statement (.evrCursorWrite ses v) := of_some rfl fun h => h
theorem latchingRead (ses : Session) (addr : Nat) : Statement (.latchingRead ses addr) :=
  of_some rfl fun h => by simp only [Instr.wf, Bool.and_eq_true] at h; exact h.1.1
theorem clearingRead (ses : Session) (addr : Nat) : Statement (.clearingRead ses addr) :=
  of_some rfl fun h => by simp only [Instr.wf, Bool.and_eq_true] at h; exact h.1.1
theorem i2cWrite (bytes : List Byte) (pec : Option Byte) : Statement (.i2cWrite bytes pec) := of_none rfl
theorem i2cRead (addrBytes : List Byte) (words : Nat) : Statement (.i2cRead addrBytes words) := of_none rfl
theorem i2cTimeout : Statement .i2cTimeout := of_none rfl
theorem registerWrite (ses : Session) (addr : Nat) (v : Word) : Statement (.registerWrite ses addr v) :=
  of_some rfl fun h => by simp only [Instr.wf, Bool.and_eq_true] at h; exact h.1.1
theorem alwaysOnSupplyLoss : Statement .alwaysOnSupplyLoss := of_none rfl
theorem driveShutdownComplete (d : Nat) : Statement (.driveShutdownComplete d) := of_none rfl
theorem drvPerstPulseExpiry (d : Nat) : Statement (.drvPerstPulseExpiry d) := of_none rfl
theorem rdThrottleMinExpiry (ch : Nat) (c : Nat) (bank : Nat) : Statement (.rdThrottleMinExpiry ch c bank) :=
  of_none rfl
theorem tapInstruction (t : TapInstr) : Statement (.tapInstruction t) := of_none rfl
theorem backgroundEraseComplete (a : StoreArea) : Statement (.backgroundEraseComplete a) := of_none rfl
theorem returnStableWaitExpiry : Statement .returnStableWaitExpiry := of_none rfl
theorem minOffExpiry : Statement .minOffExpiry := of_none rfl

end Sys2Proof.Laws.WellFormed
end

