-- ==== Sys2Proof/Machine/Balls.lean ====
section
/-!
DEFINITION. The ball map (18 R437 to R444), the class of each signal ball (18 R449), and the level that the state of the
machine gives each ball it drives itself (13 R325, R329; 16 R397; 18 R450).
-/
namespace Sys2Proof.Machine

/-! ### Balls by content -/

/-- A signal of a DDR5 channel (18 Table 18-3); the first argument names subchannel B. -/
inductive DdrSignal where
  | dq (b : Bool) (n : Nat)
  | dqs (b : Bool) (n : Nat) (neg : Bool)
  | ca (b : Bool) (n : Nat)
  | par (b : Bool)
  | cs (b : Bool) (n : Nat)
  | ck (b : Bool) (n : Nat) (neg : Bool)
  | alertN
  | resetN
  deriving DecidableEq, Repr

/-- The three kinds of SerDes lane (18 R442). -/
inductive LaneKind where
  | host
  | syz
  | pcie
  deriving DecidableEq, Repr

/-- What a ball carries: a supply, or a signal (18 Tables 18-3 to 18-6). -/
inductive Ball where
  | vss | avss | vdd | vddSds | vddhSds | vddq | vddAon | vddioAon | avddAdc | vddio18 | vddioSb | vddio33
  | railEn (k : Nat) | rstOutN (j : Nat) | railSns (k : Nat) | vinSns
  | pwrGoodIn | pwrFailN | seqSync | twinFenceOut | twinFenceIn | alertN | i2cScl | i2cSda | addrSel (i : Nat) | refclkAon
  | xspiIo (i : Nat) | xspiDqs | xspiClk | xspiCsN | xspiResetN
  | tck | tms | tdi | tdo | trstN
  | refclkCore (neg : Bool)
  | dimmScl (i : Nat) | dimmSda (i : Nat)
  | drvPerstN (d : Nat) | drvPrsntN (d : Nat)
  | ddr (ch : Nat) (sig : DdrSignal)
  | tx (kind : LaneKind) (lane : Nat) (neg : Bool)
  | rx (kind : LaneKind) (lane : Nat) (neg : Bool)
  | pcieRefclk (r : Nat) (neg : Bool)
  deriving DecidableEq, Repr

/-! ### The grid (18 R437, R438) -/

/-- The letters of a row name. -/
def rowLetters : List Char :=
  ['A', 'B', 'C', 'D', 'E', 'F', 'G', 'H', 'J', 'K', 'L', 'M', 'N', 'P', 'T', 'U', 'V', 'W', 'Y']

/-- The name of a row by its index, 1 to 71. -/
def rowName (i : Nat) : List Char :=
  let l := rowLetters.getD ((i - 1) % 19) 'A'
  if i ≤ 19 then [l] else [rowLetters.getD ((i - 1) / 19 - 1) 'A', l]

/-- A position of the depopulated centre. -/
def inCentre (row col : Nat) : Bool := 25 ≤ row && row ≤ 47 && 25 ≤ col && col ≤ 47

/-- A position of a corner that carries no ball: its distances from the corner, each counted from 1, sum to 6 or less. -/
def inCorner (row col : Nat) : Bool := Nat.min row (72 - row) + Nat.min col (72 - col) ≤ 6

/-- A grid position carries a ball. -/
def hasBall (row col : Nat) : Bool :=
  1 ≤ row && row ≤ 71 && 1 ≤ col && col ≤ 71 && !inCentre row col && !inCorner row col

/-! ### DDR5 strips (18 R440, R441) -/

/-- Region, distance from the package edge and place along the band of a position, where it lies in a band
(18 Tables 18-1, 18-2). -/
def bandPlace (row col : Nat) : Option (Nat × Nat × Nat) :=
  if row ≤ 12 && 13 ≤ col && col ≤ 59 then some (0, row - 1, col - 13)
  else if 60 ≤ col && 13 ≤ row && row ≤ 59 then some (1, 71 - col, row - 13)
  else if 60 ≤ row && 13 ≤ col && col ≤ 59 then some (2, 71 - row, 59 - col)
  else if col ≤ 12 && 13 ≤ row && row ≤ 59 then some (3, col - 1, 59 - row)
  else none

/-- The row and column of a strip position (18 Table 18-2). -/
def stripBall (r s k d : Nat) : Nat × Nat :=
  match r with
  | 0 => (1 + 4 * s + d, 13 + k)
  | 1 => (13 + k, 71 - 4 * s - d)
  | 2 => (71 - 4 * s - d, 59 - k)
  | _ => (59 - k, 1 + 4 * s + d)

/-- A column of a byte group: lower nibble, strobes, upper nibble. -/
def byteColumn (ch : Nat) (b : Bool) (l c d : Nat) : Ball :=
  if c == 0 then .ddr ch (.dq b (8 * l + d))
  else if c == 1 then .ddr ch (.dqs b (2 * l + d / 2) (d % 2 == 1))
  else .ddr ch (.dq b (8 * l + 4 + d))

/-- What a strip position carries (18 Table 18-3). -/
def stripBallAt (ch k d : Nat) : Ball :=
  if k == 15 || k == 43 then .vss
  else if [3, 7, 11, 31, 35, 39].contains k then (if d == 3 then .vddq else .vss)
  else if k < 19 then byteColumn ch false (k / 4) (k % 4) d
  else if 28 ≤ k then byteColumn ch true ((k - 28) / 4) (k % 4) d
  else match k with
    | 19 => .ddr ch (.ca false d)
    | 20 => if d == 3 then .ddr ch (.par false) else .ddr ch (.ca false (4 + d))
    | 21 => .ddr ch (.cs false d)
    | 22 => .ddr ch (.ck false (d / 2) (d % 2 == 1))
    | 23 => if d == 0 then .ddr ch .alertN else if d == 3 then .ddr ch .resetN else .vss
    | 24 => .ddr ch (.ck true (d / 2) (d % 2 == 1))
    | 25 => .ddr ch (.cs true d)
    | 26 => if d == 3 then .ddr ch (.par true) else .ddr ch (.ca true (4 + d))
    | _ => .ddr ch (.ca true d)

/-! ### Lane fields (18 R442) -/

/-- Region, depth and place along the band of a position, where it lies in a lane field (18 Tables 18-1, 18-4). -/
def lanePlace (row col : Nat) : Option (Nat × Nat × Nat) :=
  if 13 ≤ row && row ≤ 24 && 13 ≤ col && col ≤ 47 then some (0, row - 13, col - 13)
  else if 48 ≤ col && col ≤ 59 && 13 ≤ row && row ≤ 47 then some (1, 59 - col, row - 13)
  else if 48 ≤ row && row ≤ 59 && 25 ≤ col && col ≤ 59 then some (2, 59 - row, 59 - col)
  else if 13 ≤ col && col ≤ 24 && 25 ≤ row && row ≤ 59 then some (3, col - 13, 59 - row)
  else none

/-- The lane whose column a place along the band is; none for a ground column. -/
def laneOf (r k : Nat) : Option (LaneKind × Nat) :=
  if 1 ≤ k && k ≤ 4 then some (.host, 4 * r + (k - 1))
  else if 6 ≤ k && k ≤ 9 then some (.syz, 4 * r + (k - 6))
  else if 11 ≤ k && (k - 11) % 3 ≤ 1 && k ≤ 33 then some (.pcie, 16 * r + (k - 11) / 3 * 2 + (k - 11) % 3)
  else none

/-- What a lane field position carries (18 Table 18-4). -/
def laneBallAt (r e k : Nat) : Ball :=
  if e ≤ 5 then
    match laneOf r k with
    | some (kind, n) =>
      if e == 1 || e == 2 then .tx kind n (e == 2) else if e == 4 || e == 5 then .rx kind n (e == 5) else .vss
    | none => if k == 10 && (e == 1 || e == 2) then .pcieRefclk r (e == 2) else .vss
  else if e == 6 then .vddSds
  else if e == 7 then (if k ≤ 11 then .vddhSds else if k ≤ 16 then .vddSds else .vss)
  else if k % 7 == 0 then .vss
  else .vdd

/-! ### Corner fields (18 R443) -/

/-- The balls of corner NW: rows F to L. -/
def cornerNw (row col : Nat) : Ball :=
  match row with
  | 6 => .railEn (col - 1)
  | 7 => if col ≤ 4 then .railEn (col + 11) else .rstOutN (col - 5)
  | 8 => .railSns (col - 1)
  | 9 => if col ≤ 4 then .railSns (col + 11)
    else if col == 5 then .vinSns else if col ≤ 9 then .avss else if col ≤ 11 then .avddAdc else .vss
  | 10 => [.pwrGoodIn, .pwrFailN, .seqSync, .twinFenceOut, .twinFenceIn, .alertN, .i2cScl, .i2cSda, .addrSel 0, .addrSel 1,
      .refclkAon].getD (col - 1) .vss
  | 11 => if col ≤ 6 then .vddAon else if col ≤ 10 then .vddioAon else .vss
  | _ => .vss

/-- The balls of corner NE: rows F to M, `c` counted from column 60. -/
def cornerNe (row c : Nat) : Ball :=
  match row with
  | 6 => if c ≤ 7 then .xspiIo c else [.xspiDqs, .xspiClk, .xspiCsN, .xspiResetN].getD (c - 8) .vss
  | 7 => [.tck, .tms, .tdi, .tdo, .trstN, .refclkCore false, .refclkCore true, .vddio18, .vddio18, .vddio18,
      .vddio18].getD c .vss
  | 8 => if c ≤ 7 then (if c % 2 == 0 then .dimmScl (c / 2) else .dimmSda (c / 2)) else if c ≤ 9 then .vddioSb else .vss
  | 9 => .vdd
  | 10 => .vdd
  | 11 => .vdd
  | 12 => if c ≤ 3 then .vdd else .vss
  | _ => .vss

/-- The balls of corners SW and SE: rows CC to CJ, `c` counted from the field's first column, drive ports from `d0`. -/
def cornerSouth (d0 row c : Nat) : Ball :=
  match row with
  | 66 => .drvPerstN (d0 + c)
  | 65 => if c ≤ 3 then .drvPerstN (d0 + 12 + c) else .drvPrsntN (d0 + c - 4)
  | 64 => if c ≤ 7 then .drvPrsntN (d0 + 8 + c) else .vddio33
  | 63 => if c ≤ 3 then .vdd else .vss
  | 62 => .vdd
  | 61 => .vdd
  | 60 => .vdd
  | _ => .vss

/-- What a position of the grid carries (18 R438 to R443); none where it carries no ball. -/
def ballAt (row col : Nat) : Option Ball :=
  if !hasBall row col then none
  else match bandPlace row col with
    | some (r, x, k) => some (stripBallAt (3 * r + x / 4) k (x % 4))
    | none =>
      match lanePlace row col with
      | some (r, e, k) => some (laneBallAt r e k)
      | none =>
        if row ≤ 12 then some (if col ≤ 12 then cornerNw row col else cornerNe row (col - 60))
        else some (if col ≤ 12 then cornerSouth 0 row (col - 1) else cornerSouth 16 row (col - 60))

/-! ### The variant (18 R444) -/

/-- A signal that a disabled resource of the SL4804 owns. -/
def Ball.disabled (b : Ball) : Bool :=
  match b with
  | .ddr ch _ => 3 ≤ ch
  | .tx .pcie n _ => 16 ≤ n
  | .rx .pcie n _ => 16 ≤ n
  | .tx _ n _ => 4 ≤ n
  | .rx _ n _ => 4 ≤ n
  | .pcieRefclk r _ => 1 ≤ r
  | .dimmScl i => 1 ≤ i
  | .dimmSda i => 1 ≤ i
  | .drvPerstN d => 8 ≤ d
  | .drvPrsntN d => 8 ≤ d
  | _ => false

/-- A ball that is no connect on the SL4804: a signal of a disabled resource, a VDDQ ball of channels 3 to 11, or a SerDes
supply ball of the lane fields of regions 1 to 3. -/
def noConnect (row col : Nat) : Bool :=
  match ballAt row col with
  | none => false
  | some .vddq => (match bandPlace row col with
    | some p => p.1 != 0
    | none => false)
  | some .vddSds => (match lanePlace row col with
    | some p => p.1 != 0
    | none => false)
  | some .vddhSds => (match lanePlace row col with
    | some p => p.1 != 0
    | none => false)
  | some b => b.disabled

/-! ### Signal classes (18 R449) -/

/-- The classes of 18 Table 18-8, and those of the high-speed interfaces and clocks. -/
inductive SignalClass where
  | aonInput | aonPushPull | aonOpenDrain | i2c | sense | lvcmos18 | dimmSideband | driveSideband | highSpeed | clock | supply
  deriving DecidableEq, Repr

/-- The class of a ball. -/
def Ball.class (b : Ball) : SignalClass :=
  match b with
  | .pwrGoodIn => .aonInput | .pwrFailN => .aonInput | .twinFenceIn => .aonInput | .addrSel _ => .aonInput
  | .railEn _ => .aonPushPull | .rstOutN _ => .aonPushPull
  | .seqSync => .aonOpenDrain | .alertN => .aonOpenDrain | .twinFenceOut => .aonOpenDrain
  | .i2cScl => .i2c | .i2cSda => .i2c
  | .railSns _ => .sense | .vinSns => .sense
  | .xspiIo _ => .lvcmos18 | .xspiDqs => .lvcmos18 | .xspiClk => .lvcmos18 | .xspiCsN => .lvcmos18 | .xspiResetN => .lvcmos18
  | .tck => .lvcmos18 | .tms => .lvcmos18 | .tdi => .lvcmos18 | .tdo => .lvcmos18 | .trstN => .lvcmos18
  | .dimmScl _ => .dimmSideband | .dimmSda _ => .dimmSideband
  | .drvPerstN _ => .driveSideband | .drvPrsntN _ => .driveSideband
  | .ddr _ _ => .highSpeed | .tx _ _ _ => .highSpeed | .rx _ _ _ => .highSpeed
  | .refclkAon => .clock | .refclkCore _ => .clock | .pcieRefclk _ _ => .clock
  | .vss => .supply | .avss => .supply | .vdd => .supply | .vddSds => .supply | .vddhSds => .supply | .vddq => .supply
  | .vddAon => .supply | .vddioAon => .supply | .avddAdc => .supply | .vddio18 => .supply | .vddioSb => .supply
  | .vddio33 => .supply

/-- The internal pull of a ball (18 Table 18-8): up, down or none. -/
def Ball.pull (b : Ball) : Option Bool := match b with
  | .addrSel _ => some false
  | .tck => some false
  | .trstN => some false
  | .xspiDqs => some false
  | .tms => some true
  | .tdi => some true
  | .drvPrsntN _ => some true
  | _ => none

/-- A ball that the board may drive while its supply is below tolerance. -/
def Ball.failSafe (b : Ball) : Bool :=
  match b.class with
  | .aonInput => true
  | .aonOpenDrain => true
  | .i2c => true
  | .driveSideband => (match b with
    | .drvPrsntN _ => true
    | _ => false)
  | _ => false

/-! ### Levels that the machine drives -/

/-- The level of a ball that the state drives by itself: high, low, or none where the chip leaves the line to others. A unit
whose always-on island is in reset leaves every such ball to the board's pulls: the fence then reads as asserted (18 R450).
A ball of a resource that the SL4804 disables is no connect there (00 R3, 18 R444). -/
def Chip.ballLevel (s : Chip) (b : Ball) : Option Bool :=
  if !s.glb.aonUp || (s.glb.sl4804 && b.disabled) then none
  else match b with
    | .railEn k => some (s.pws.rails.getD k Rail.blank).enabled
    | .rstOutN j => some !(s.pws.outs.getD j RstOut.blank).low
    | .seqSync => if s.pws.holding then some false else none
    | .twinFenceOut => if s.syz.fenceOut then none else some false
    | .alertN => if s.flt.alert then some false else none
    | .drvPerstN d => some !(s.drive d).perst
    | _ => none

/-! ### Sense codes (18 R451, Table 18-9) -/

/-- The code of a voltage at a sense ball, in steps of 0.5 mV, rounded down; the voltage in 0.1 mV. -/
def senseCode (tenths : Nat) : Nat := tenths / 5

end Sys2Proof.Machine
end

