-- ==== Sys2Proof/Tests/Slice0.lean ====
section
/-!
SUPPORT. Tests: what an ill-formed command is refused for, one step of commands with the result the spec gives, and for each
statement with hypotheses a state and operands that meet them, clause by clause.
-/
set_option Elab.async false
namespace Sys2Proof.Tests
open Sys2Proof Sys2Proof.Machine

/-! ### Small states -/

/-- A chip in a device state with every domain powered, host ports 0 and 1 up and its service addresses held. -/
def on (d : DevState) : Chip :=
  { Chip.reset with
    glb := { Glb.reset with state := d, aonUp := true }, pws := { Pws.reset with gated := 0 },
    hpx := { Hpx.reset with enabled := 3, up := 3, service := true } }

def up : Chip := on .active

/-- A chip with no command waiting. -/
def st (c : Chip) : State := { State.reset with chip := c }

/-- An established DATA connection of host 7 that has received PSN 0 and may send 256 packets. -/
def data0 : Conn :=
  { Chip.admitted.blankConn with
    st := .established, host := 7, adv := [(0, 256, 1048576)], wp := 256, ka := 1000, hostWp := 256, hostWb := 1048576, frontier := 1 }

def mgmt0 : Conn := { data0 with mgmt := true }

def withConn (c : Chip) (k : Conn) : Chip := c.setConn 5 k

/-- The I2C session with a role. -/
def asI2c (c : Chip) (role : Nat) : Chip := { c with sec := { c.sec with i2c := { c.sec.i2c with role } } }

/-- A single-packet message with PSN 1 on connection 5. -/
def pkt (cls : Nat) (payload : List Byte) : Packet :=
  { port := 0, src := 7, sport := 4000, cls, flags := 3, conn := 5, hint := 15, psn := 1, msgId := 9, index := 0, count := 1,
    key := 0x00010001, offset := 0, opField := BitVec.ofNat 32 payload.length, payload }

def zeroBytes (n : Nat) : List Byte := List.replicate n 0

/-- A position held by a ready drive. -/
def posOf (d : Nat) : Position := { drive := some d, ready := true, lost := false, errors := [] }

/-- Stripe set 0: four drives in two copies, READY, with 1,000 segments. -/
def set0 : StripeSet :=
  { StripeSet.blank with
    cfg := { on := true, layout := 0, n := 4, mask := 15, fg := [0, 1, 2, 3] }, st := .ready, z := 32768 + 1000 * 4352,
    pos := [posOf 0, posOf 1, posOf 2, posOf 3], jpos := [0, 1], jlive := [0, 1], scanned := true }

/-- A chip with set 0 and drives 0 to 3 ready. -/
def withSet (c : Chip) (t : StripeSet) : Chip :=
  let d : Drive := { Drive.blank with present := true, perst := false, up := true, ready := true, width := 4, size := 8388608 }
  { c with str := { c.str with sets := [(0, t)], drives := [(0, d), (1, d), (2, d), (3, d)] } }

/-- A power table that R323 admits. -/
def table0 : PowerTable :=
  let rail : RailCfg × RailBounds :=
    ({ monEn := true, uvFault := 500, uvWarn := 600, ovWarn := 800, ovFault := 900, offLevel := 100, filt := 4, actUv := 0,
       actOv := 0, dram := false, upState := 0, downState := 0 },
     { uvFault := (400, 550), uvWarn := (560, 700), ovWarn := (710, 850), ovFault := (860, 1000), filt := (1, 16), maskUv := 1,
       maskOv := 1 })
  { rails := List.replicate 17 rail, resets := List.replicate 8 RstOut.blank.cfg, master := true }

/-- A READ_REQ of 64 bytes of region 1 with PSN 1, complete and ready at comet 0. -/
def msg0 : Msg :=
  { op := 2, id := 9, first := 1, count := 1, bitmap := 1, parts := [], start := 0, len := 64, flags := 3, opField := 0,
    key := 0x00010001, resp := 64, hint := 15, arrived := 0, checked := true, region := 1, old := false, base := 0,
    pair := false, mirror := false, comet := 0, charge := 0, chains := [], egress := [], needCells := [], st := .complete,
    guarded := false, waited := false, ready := some 0, urgent := false, started := false, parked := false, stalls := [],
    done := 0, busy := 0, got := [], held := 0, holds := 0, posted := 0, bad := none, lost := 0, pos := 0, owed := 0,
    dup := none, prior := [], stored := false, probed := false, ddl := none, pairWaits := 0 }

/-- A chip whose connection 5 holds one message. -/
def withMsg (c : Chip) (m : Msg) : Chip := withConn c { data0 with msgs := [m] }

/-- A chip whose page 0 is CLEAN in frame 0. -/
def withPage (c : Chip) : Chip :=
  { c with pgm := { c.pgm with pages := [(0, { Page.blank with st := .clean, frame := some 0 })] } }

/-- A chip whose bank 0 is given. -/
def withBank (c : Chip) (k : Bank) : Chip := { c with lcc := { c.lcc with banks := [(0, k)] } }

/-- Channels 0 and 1 in use, with one DIMM of two package ranks each. -/
def withDram (c : Chip) (k : Channel) : Chip :=
  { c with dmc := { c.dmc with
      chans := [(0, { k with used := true, spd := 2 }), (1, { Channel.blank with used := true, spd := 2 })], map := [0, 1],
      pop := some { dimms := 1, ranks := 2, stack := 1, width := 4, density := 0, capGiB := 32 } } }

/-- A unit with its twin on link 0. -/
def twin (d : DevState) (role : TwinRole) (pair : PairState) : Chip :=
  { on d with syz := { Syz.reset with role, pair, links := 1, partner := some 9, rxKnown := true, rxSeq := 4 } }

/-- A frame with the next link sequence. -/
def frame0 : SyzHead := { link := 0, sender := 9, seq := 5, epoch := 1 }

theorem witness_HostPortCommandsComplete :
    (st up).chip.hostTakes 1 = true ∧
    (∀ n ∈ [0, 999, 1000, 1001],
      let s := { up with hpx := { up.hpx with echoes := [(1, n)] } }
      s.hostTakes 1 = true ∧ s.hpx.echoSec = s.now / 1000000000 ∧ Tab.get s.hpx.echoes 0 1 = n) ∧
    { up.hpx with echoSec := 7 }.echoSec ≠ up.now / 1000000000 ∧
    (let a := { up with hpx := { up.hpx with addr := [(1, { PortAddr.blank with v6 := 5, v4 := 6 })] } }
     a.hostTakes 1 = true ∧ a.ownV6 5 = true ∧ a.ownV6 6 = false ∧ a.ownV4 6 = true ∧ a.ownV4 5 = false) ∧
    (let p := { up with hpx := { up.hpx with pauseEn := 2 } }
     p.hostOn = true ∧ p.portUp 1 = true ∧ bit p.hpx.pauseEn 1 = true) ∧
    (let f : Frame := { host := true, port := 1, fecOk := false, fcsOk := true, length := 64, vlan := none, pfc := false,
                        etherType := 0x86DD, dstOk := true, v6 := true, extended := false, fragment := false, udp := true,
                        dport := 0, cksumZero := false, cksumOk := true, src := 7, sport := 1, bytes := [] }
     f.host = true ∧ up.hostOn = true ∧ up.portUp f.port = true ∧ up.hostDiscard f = some 1) ∧
    ({ up with hpx := { up.hpx with service := false } }.hostTakes 1 = false ∧ (on .umbra).glb.state = .umbra ∧ (zeroBytes 3).length ≤ 1024) := by decide

theorem witness_MessagePacketsComplete :
    (withConn up data0).takes 0x01 (pkt 1 (zeroBytes 64)) data0 ∧
    (withConn up data0).takes 0x02 (pkt 1 (be 4 64 ++ be 2 64 ++ [0, 0])) data0 ∧
    (withConn up data0).takes 0x04 (pkt 1 (zeroBytes 8)) data0 ∧
    (withConn up data0).takes 0x05 (pkt 1 (zeroBytes 16)) data0 ∧
    (withConn up data0).takes 0x07 (pkt 1 []) data0 ∧
    (withConn up data0).takes 0x12 (pkt 1 (zeroBytes 4)) data0 := by decide

theorem witness_ControlPacketsComplete :
    (withConn up data0).accepts 0x09 (pkt 1 (zeroBytes 16)) data0 ∧
    (withConn up data0).accepts 0x0B (pkt 1 (zeroBytes 16)) data0 ∧
    (withConn up data0).accepts 0x13 (pkt 1 []) data0 := by decide

/-- A CONNECT with a ticket in slot 0; the signature's verdict is the crypto's own (`Config.ecdsaVerify`). -/
def connectPacket : Packet := 
  pkt 1 (be 2 0x5654 ++ [1] ++ zeroBytes 6 ++ [1] ++ zeroBytes 2 ++ be 16 7 ++ zeroBytes 116)

def keyed : Chip := { up with sec := { up.sec with keys := [(0, [])] } }

theorem keyed_freeId : keyed.freeId = some 0 := by
  unfold Chip.freeId
  rw [List.range_succ_eq_map, List.find?_cons_of_pos]
  decide

theorem witness_ConnectAdmits
    (h : Config.ecdsaVerify [] (connectPacket.payload.take 32) (slice connectPacket.payload 32 96) = true) :
    keyed.hostTakes connectPacket.port = true ∧ connectPacket.cls = 1 ∧ keyed.connectStatus connectPacket = 0 ∧
    (keyed.xpt.conns.find? fun e => e.2.st == .opening && e.2.host == connectPacket.src && e.2.sport == connectPacket.sport &&
      e.2.nonce == slice connectPacket.payload 128 8) = none ∧ keyed.freeId = some 0 := by
  refine ⟨by decide, by decide, ?_, by decide, keyed_freeId⟩
  have f : Tab.find keyed.sec.keys (fieldBe connectPacket.payload 3 1) = some [] := by decide
  have b : badConnect connectPacket.payload = false := by decide +kernel
  unfold Chip.connectStatus
  simp only [f, b, h]
  decide

/-- A device packet sent and not acknowledged. -/
def sent : DevPkt := DevPkt.make 5 0x14 0 0 0 0 []

theorem witness_ConnectionCommandsComplete :
    (let k := { data0 with cum := 1 }
     (withConn up k).conn 5 = some k ∧ k.ackDue = true) ∧
    (let k := { data0 with held := [sent], expiries := 6 }
     (withConn up k).conn 5 = some k ∧ k.held ≠ [] ∧ k.expiries < 7) ∧
    (∀ st ∈ [ConnState.opening, .established], ∀ greeting ∈ [false, true],
      let k := { data0 with st, wait := if greeting then [DevPkt.make 5 0x14 0 0 0 0 [1]] else [] }
      (withConn up k).conn 5 = some k ∧ k.live = true ∧ k.greeting = greeting ∧ k.st = st ∧ (withConn up k).hostOn = true ∧
      (withConn up k).noticed = false) ∧
    (let k := { data0 with st := .opening }
     let s0 := withConn up k
     let s := { s0 with glb := { s0.glb with activeAt := some 0 } }
     s.conn 5 = some k ∧ s.noticed = true) ∧
    (let k := { data0 with st := .closing }
     (withConn up k).conn 5 = some k ∧ k.st = .closing) ∧
    (let s := asI2c (withConn up data0) 2
     s.conn 5 = some data0 ∧ data0.st = .established ∧ data0.idle ∧ s.bpm.owed = [] ∧ s.grants .i2c 23 2) ∧ 63 < 64 := by
  decide

theorem witness_EndedConnectionStopsSending :
    (withConn up data0).conn 5 = some data0 ∧ data0.st ≠ .aborting := by decide

/-! ### Management, security, recorder, staging -/

theorem witness_MgmtPacketsComplete :
    ∀ op ∈ [0x01, 0x02, 0x04, 0x05, 0x10, 0x11, 0x12], (withConn up mgmt0).takes 0x20 (withOp op (pkt 2 (zeroBytes 8))) mgmt0 := by
  decide

theorem witness_MgmtRequestsAnswered :
    (mgmtCountOk 0x01 256 = true ∧ ([] : List Byte).length = mgmtLen 0x01 256 ∧ 1 % 4 ≠ 0) ∧
    (((withConn up mgmt0).readReg Otp.blank (.mgmt 5) 0).1 = some 0xB0481000) := by decide

/-- A maker's credential for serial 41, from generation 0 on: an unsigned body of Table 15-2. -/
def cred0 : List Byte := [0x56, 0x43, 1, 3, 41] ++ zeroBytes 7 ++ [255, 255, 255, 255] ++ zeroBytes 208

/-- The part of a credential's check that is the crypto's own is left to it (`Config.rootVerify`). -/
theorem witness_SessionCommandsComplete_hello
    (h : Config.rootVerify 0 (cred0.take 128) (slice cred0 128 96) = true) :
    let s := { up with sec := { up.sec with i2cData := bytesWords 56 cred0 ++ zeros 8 } }
    let otp := { Otp.blank with rootHash := some 0 }
    s.glb.aonUp = true ∧ s.regOn 0x1000040 = true ∧ s.sec.i2cBusy = false ∧ s.sec.locked.contains none = false ∧
    cred0 = (wordsBytes s.sec.i2cData).take 224 ∧ leField cred0 2 1 ≠ 0 ∧ s.credStatus otp cred0 = 0 := by
  refine ⟨by decide, by decide, by decide, by decide, by decide +kernel, by decide, ?_⟩
  unfold Chip.credStatus
  simp only [h]
  decide +kernel

theorem witness_SessionCommandsComplete_prove
    (h : Config.ecdsaVerify (slice cred0 32 96) (up.proofMessage .i2c 3 3) (zeroBytes 96) = true) :
    let s := { up with sec := { up.sec with i2c := { up.sec.i2c with challenge := some 3, cred := cred0 } } }
    s.glb.aonUp = true ∧ s.regOn 0x1000040 = true ∧ s.sec.i2cBusy = false ∧ s.sec.locked.contains none = false ∧
    s.sec.i2c.challenge = some 3 ∧ 3 = leField s.sec.i2c.cred 3 1 ∧
    Config.ecdsaVerify (slice s.sec.i2c.cred 32 96) (s.proofMessage .i2c 3 3) ((wordsBytes s.sec.i2cData).take 96) = true ∧
    s.rolesFull .i2c = false := by
  refine ⟨by decide, by decide, by decide, by decide, rfl, by decide, ?_, by decide⟩
  have e : (wordsBytes up.sec.i2cData).take 96 = zeroBytes 96 := by decide +kernel
  exact (congrArg (Config.ecdsaVerify _ _) e).trans h

theorem witness_SessionCommandsComplete :
    (let s := asI2c up 3
     s.glb.aonUp = true ∧ s.regOn 0x1000040 = true ∧ s.sec.i2cBusy = false ∧ s.sec.i2c.role ≠ 0) ∧
    (let s := withConn { up with sec := { up.sec with mgmt := [(5, { SesState.blank with challenge := some 0 })] } } mgmt0
     (s.ses (.mgmt 5)).challenge.isSome = true) := by decide

theorem witness_ProvisioningCompletes :
    (asI2c up 3).grants .i2c 23 3 ∧ Otp.blank.provisioned = false ∧ Otp.blank.powerTable = none ∧ tableOk table0 = true ∧
    Otp.blank.mac = none ∧ Otp.blank.rootHash = none ∧
    (let o := { Otp.blank with powerTable := some table0, mac := some 1, rootHash := some 2 }
     o.provisioned = false ∧ o.powerTable.isSome = true ∧ o.mac.isSome = true ∧ o.rootHash.isSome = true) := by decide

theorem witness_SecurityCommandsComplete (h : Config.onCurve (zeroBytes 96) = true) :
    ((asI2c (on .maintenance) 3).grants .i2c 23 3 ∧ Otp.blank.debugOff = false ∧ (on .maintenance).glb.state = .maintenance) ∧
    ((asI2c (on .fault) 3).grants .i2c 23 3 ∧ (on .fault).glb.state = .fault) ∧
    (∀ n, TapInstr.extest ≠ .debug n) ∧ up.sec.unlocked = false ∧
    ((asI2c up 2).grants .i2c 23 2 ∧ 3 < 4 ∧ (asI2c up 2).logRoom = true ∧
      Config.onCurve (wordsBytes (asI2c up 2).sec.tktData) = true) ∧
    ((asI2c up 1).grants .i2c 23 1 ∧ up.sec.attBusy = false ∧ { Otp.blank with identity := some 3 }.identity = some 3 ∧
      up.sec.idFail = false ∧ { up.sec with attBusy := true }.attBusy = true) := by
  refine ⟨by decide, by decide, (by intro n h; cases h), by decide, ⟨by decide, by decide, by decide, ?_⟩, by decide⟩
  have e : wordsBytes (asI2c up 2).sec.tktData = zeroBytes 96 := by decide
  rw [e]; exact h

theorem witness_DebugTapRefusedWhenUnlocked : { up with sec := { up.sec with unlocked := true } }.sec.unlocked = true := by decide

theorem witness_RecorderCommandsComplete :
    (let s := withSet { up with evr := { up.evr with due := [0], next := 65536 } } set0
     s.archiveSet = some 0 ∧ s.evr.due = [0] ∧ s.evr.next ≤ 65536 + 4096 * 0) ∧
    (let s := withSet { up with evr := { up.evr with due := [0], next := 65537 } } set0
     s.archiveSet = some 0 ∧ s.evr.due = [0] ∧ 65536 + 4096 * 0 < s.evr.next) ∧
    ((asI2c up 1).grants .i2c 23 1 ∧ (asI2c up 1).evr.archBusy = false ∧ (asI2c up 1).archiveSet = none) ∧
    (let s := asI2c (withSet up set0) 1
     s.grants .i2c 23 1 ∧ s.grants .i2c 24 1 ∧ s.evr.archBusy = false ∧ s.archiveSet = some 0 ∧
     ((s.set 0).jlive.findSome? fun p => ((s.set 0).pos[p]?).bind (·.drive)) = some 0) ∧
    { up.evr with archBusy := true }.archBusy = true ∧
    (let v := { up.evr with isSet := true, flood := [(8, 64, 0, 0, 0, 0)] }
     v.isSet = true ∧ ∀ e ∈ v.flood, e.2.2.1 = 0) := by decide

theorem witness_RegisterAccessesComplete :
    (let s := asI2c up 2
     s.sesLive .i2c = true ∧ s.regOn 0x200010 = true ∧ s.regValue Otp.blank .i2c 0x200010 = some (s.par 0x200010) ∧
     s.roleStops .i2c 0x200010 0 (s.par 0x200010) = false) ∧
    (up.sesLive .i2c = true ∧ latchAddrs.contains 0x1100000 = true ∧ up.regOn 0x1100000 = true) ∧
    (let s := asI2c up 1
     s.sesLive .i2c = true ∧ s.isCounter 0x20 = true ∧ 0x20 % 4 = 0 ∧ latchAddrs.contains 0x20 = false ∧ latchOf 0x20 = none ∧
     s.regOn 0x20 = true ∧ 1 ≤ (s.ses .i2c).role) ∧
    (up.glb.aonUp = true ∧ up.pecOn = false ∧ (zeroBytes 8).length = 8 ∧ (zeroBytes 4).length = 4 ∧
     (up.readReg Otp.blank .i2c (fieldBe (zeroBytes 4) 0 4)).1 = some 0xB0481000) := by decide

/-- The shortest image that R363 admits, but for its signature: generation 2, no section, 1,536 bytes. -/
def head0 : List Byte := le 4 0x4C50534F ++ [1, 255, 0xB0, 0] ++ le 4 2 ++ le 4 1536 ++ zeroBytes 44
def sign0 : List Byte := le 4 0x4E474953 ++ le 4 1280 ++ zeroBytes 244
def image0 : List Byte :=
  head0 ++ le 4 (crc32c (head0 ++ zeroBytes 1024)) ++ zeroBytes 1024 ++ zeroBytes 192 ++ sign0 ++ le 4 (crc32c sign0)

def flash0 : Memory :=
  Memory.writeN 0xFF (Memory.writeN 0xFF [] (slotBase 1) ([0x7F, 0, 0, 0] ++ le 4 2)) (imageBase 1) image0

/-- A chip whose inactive slot 1 is WRITING generation 2 and holds `image0`; the I2C session stages it. -/
def staged : Chip :=
  { asI2c up 2 with cfg := { up.cfg with
      flashOk := true, active := some 0, gen := 1, owner := some .i2c, ofs := 1536, nextOfs := 1536,
      flash := flash0 } }

def part0 : Otp := { Otp.blank with rootHash := some (Config.sha384 (zeroBytes 96)), provisioned := true }

theorem zeroBytes_length (n : Nat) : (zeroBytes n).length = n := by simp [zeroBytes]
theorem head0_length : head0.length = 60 := by decide
theorem sign0_length : sign0.length = 252 := by simp only [sign0, List.length_append, le_length, zeroBytes_length]
theorem image0_length : image0.length = 1536 := by
  simp only [image0, List.length_append, le_length, zeroBytes_length, head0_length, sign0_length]

/-- The header and the directory of the image. -/
theorem image0_head : slice image0 0 1088 = head0 ++ le 4 (crc32c (head0 ++ zeroBytes 1024)) ++ zeroBytes 1024 := by
  unfold image0
  rw [List.append_assoc, List.append_assoc]
  exact slice_start _ _ _ (by simp only [List.length_append, le_length, zeroBytes_length, head0_length])

/-- The signature block of the image. -/
theorem image0_sign : slice image0 1280 256 = sign0 ++ le 4 (crc32c sign0) := by
  unfold image0
  rw [List.append_assoc]
  exact slice_end _ _ _ _ (by simp only [List.length_append, le_length, zeroBytes_length, head0_length]) (by simp only [List.length_append, le_length, sign0_length])

theorem staged_flash : staged.cfg.flash = flash0 := by simp only [staged]

theorem image_bytes {s : Chip} (f : s.cfg.flash = flash0) (off n : Nat) (h : off + n ≤ 1536) : s.imageBytes 1 off n = slice image0 off n := by
  unfold Chip.imageBytes Chip.flashRead
  rw [f, flash0]
  exact Memory.readN_writeN_part 0xFF _ _ _ off n (by rw [image0_length]; exact h)

theorem image_slot {s : Chip} (f : s.cfg.flash = flash0) : s.slotHead 1 = [0x7F, 0, 0, 0, 2, 0, 0, 0] ++ List.replicate 24 0xFF := by
  unfold Chip.slotHead Chip.flashRead
  rw [f, flash0, Memory.readN_writeN_apart _ _ _ _ _ _ (.inl (by decide))]
  decide +kernel

theorem image_len {s : Chip} (f : s.cfg.flash = flash0) : s.imageLen 1 = 1536 := by
  unfold Chip.imageLen; rw [image_bytes f _ _ (by decide)]; decide +kernel

theorem image_sections {s : Chip} (f : s.cfg.flash = flash0) : s.sections 1 = [] := by
  unfold Chip.sections
  rw [List.filterMap_eq_nil_iff]
  intro i hi
  have h : i < 64 := List.mem_range.mp hi
  rw [image_bytes f _ _ (by omega)]
  have z : ∀ j < 64, (slice image0 (64 + 16 * j) 16).all (· == 0) = true := by decide +kernel
  exact if_pos (z i h)

theorem image_whole {s : Chip} (f : s.cfg.flash = flash0) : s.imageWhole 1 1536 = true := by
  unfold Chip.imageWhole
  rw [image_len f, image_sections f]
  dsimp only
  rw [image_bytes f 0 1088 (by decide), image_bytes f (1536 - 256) 256 (by decide), image0_head,
    (image0_sign : slice image0 (1536 - 256) 256 = _)]
  have a : leField (head0 ++ le 4 (crc32c (head0 ++ zeroBytes 1024)) ++ zeroBytes 1024) 60 4 = crc32c (head0 ++ zeroBytes 1024) := by
    unfold leField; rw [slice_mid _ _ _ _ _ head0_length (le_length _ _), unle_crc32c]
  have b : (head0 ++ le 4 (crc32c (head0 ++ zeroBytes 1024)) ++ zeroBytes 1024).take 60 ++
      (head0 ++ le 4 (crc32c (head0 ++ zeroBytes 1024)) ++ zeroBytes 1024).drop 64 = head0 ++ zeroBytes 1024 := by
    have h : (head0 ++ le 4 (crc32c (head0 ++ zeroBytes 1024))).length = 64 := by
      simp only [List.length_append, le_length, head0_length]
    rw [← h, List.drop_left, List.append_assoc, ← head0_length, List.take_left]
  have c : leField (sign0 ++ le 4 (crc32c sign0)) 252 4 = crc32c ((sign0 ++ le 4 (crc32c sign0)).take 252) := by
    unfold leField
    rw [slice_end _ _ _ _ sign0_length (le_length _ _), unle_crc32c, ← sign0_length, List.take_left]
  have d : leField (head0 ++ le 4 (crc32c (head0 ++ zeroBytes 1024)) ++ zeroBytes 1024) 16 2 = 0 := by decide +kernel
  have e : leField (sign0 ++ le 4 (crc32c sign0)) 0 4 = 0x4E474953 := by decide +kernel
  have g : leField (sign0 ++ le 4 (crc32c sign0)) 4 4 = 1280 := by decide +kernel
  rw [a, b, c, d, e, g]
  simp

theorem image_passes {s : Chip} (f : s.cfg.flash = flash0)
    (h : Config.ecdsaVerify (zeroBytes 96) (image0.take 1280) (zeroBytes 96) = true) :
    s.imageFails part0 1 1536 = none := by
  have a : s.imageSuits 1 = true := by
    unfold Chip.imageSuits; rw [image_bytes f 0 8 (by decide)]; cases s.glb.sl4804 <;> decide +kernel
  have c : s.imageSigned part0 1 = true := by
    unfold Chip.imageSigned Chip.signedBytes
    rw [image_len f]
    dsimp only
    rw [image_bytes f (1536 - 256) 256 (by decide), image_bytes f 0 (1536 - 256) (by decide),
      (image0_sign : slice image0 (1536 - 256) 256 = _)]
    have k : slice (sign0 ++ le 4 (crc32c sign0)) 8 96 = zeroBytes 96 := by decide +kernel
    have g : slice (sign0 ++ le 4 (crc32c sign0)) 104 96 = zeroBytes 96 := by decide +kernel
    have w : slice image0 0 (1536 - 256) = image0.take 1280 := rfl
    rw [k, g, w, h]
    simp [part0]
  unfold Chip.imageFails
  simp [a, image_whole f, c]

/-- Each command of a staging: BEGIN and ABORT, a WRITE of the last block, COMMIT of an image whose signature is good. -/
theorem witness_StagingCommandsComplete
    (h : Config.ecdsaVerify (zeroBytes 96) (image0.take 1280) (zeroBytes 96) = true) :
    staged.grants .i2c 23 2 ∧ staged.mayStage .i2c = true ∧ staged.cfg.busy = false ∧ staged.inactive = 1 ∧
    staged.cfg.owner = some .i2c ∧ staged.slotState 1 = 1 ∧
    (staged.cfg.ofs % 256 = 0 ∧ staged.cfg.ofs = staged.cfg.nextOfs ∧ staged.cfg.ofs < 4194304 ∧ staged.cfg.window.length = 64) ∧
    staged.imageFails part0 1 staged.cfg.nextOfs = none ∧ staged.activeGen < staged.slotField 1 4 := by
  have g : staged.slotField 1 4 = 2 := by unfold Chip.slotField; rw [image_slot staged_flash]; decide
  have e : staged.slotState 1 = 1 := by unfold Chip.slotState; rw [image_slot staged_flash]; decide
  refine ⟨by decide, by decide, rfl, rfl, rfl, e, by decide, ?_, ?_⟩
  · exact image_passes staged_flash h
  · rw [g]
    have a : staged.activeGen = 1 := rfl
    rw [a]; decide

/-! ### Comets, fences, chains -/

theorem sort_of_one {α : Type} {l : List α} {x : α} {le : α → α → Bool} (h : l = [x]) : l.mergeSort le = [x] := by
  rw [h]; exact List.mergeSort_singleton _

theorem sort_of_none {α : Type} {l : List α} {le : α → α → Bool} (h : l = []) : l.mergeSort le = [] := by
  rw [h]; exact List.mergeSort_nil

theorem prey_of_one {s : Chip} {level : StealLevel} {n c : Nat} {m : Msg} (u : m.urgent = true)
    (h : (s.allMsgs.filter fun x => s.inScope level n x.2.comet && s.stealable level x.2) = [(c, m)]) :
    s.prey level n = some (c, m) := by
  unfold Chip.prey; rw [sort_of_one h]; simp [u]

/-- An urgent message at comet 1, and comet 0 that asks to steal. -/
def stealing : Chip :=
  let s := withMsg up { msg0 with comet := 1, urgent := true }
  { s with cmt := { s.cmt with stealing := [0] } }

theorem stealing_prey : stealing.prey .block 0 = some (5, { msg0 with comet := 1, urgent := true }) :=
  prey_of_one rfl (by decide)

theorem stealing_thief : stealing.thief 0 = true := by
  unfold Chip.thief Chip.queuedAt Chip.readyAt; rw [sort_of_none (by decide)]; decide

/-- The message of connection 5 waits at comet 0 for its first context. -/
theorem queued_ready : (withMsg up msg0).readyAt 0 = [(5, msg0)] := by
  unfold Chip.readyAt; exact sort_of_one (by decide)

/-- The message of connection 5 holds a context at its start stage. -/
def atStage : Chip := withMsg up { msg0 with stalls := [atStart] }

theorem atStage_ready : atStage.readyAt 0 = [(5, { msg0 with stalls := [atStart] })] := by
  unfold Chip.readyAt; exact sort_of_one (by decide)

theorem witness_CometCommandsComplete :
    ((withMsg up msg0).cometOk 0 = true ∧
      ((withMsg up msg0).readyAt 0).find? (fun x => x.2.stalls.contains atStart && !(withMsg up msg0).stillWaits x.1 x.2) = none ∧
      (withMsg up msg0).contexts 0 < 16 ∧ (withMsg up msg0).recordsWaiting 0 = [] ∧ (withMsg up msg0).urgentNear 0 = [] ∧
      ((withMsg up msg0).queuedAt 0).head? = some (5, msg0) ∧
      msg0.op = 0x02 ∧ (withMsg up msg0).offline ((withMsg up msg0).region msg0.region) = none ∧
      (withMsg up msg0).late msg0 = false ∧ msg0.needCells = [] ∧
      (withMsg up msg0).conn 5 = some { data0 with msgs := [msg0] }) ∧
    (atStage.readyAt 0).find? (fun x => x.2.stalls.contains atStart && !atStage.stillWaits x.1 x.2) =
      some (5, { msg0 with stalls := [atStart] }) ∧
    (let m := { msg0 with needCells := [1] }
     let s := { withMsg up m with bpm := { up.bpm with waiting := [(5, 1)] } }
     s.firstServed s.bpm.waiting = some (5, m) ∧ (s.conn 5).isSome = true ∧ (s.reserve 0 m).isSome = true ∧ m.parked = false) ∧
    (stealing.thief 0 = true ∧ up.cmt.stealing.contains 0 = false) ∧
    (stealing.levelOn .block = true ∧
      (((stealing.arbiterComets .block 0).filter (stealing.arbiterPtr .block 0 ≤ ·) ++
        (stealing.arbiterComets .block 0).filter (· < stealing.arbiterPtr .block 0)).find? (stealing.mayGrant .block)) = some 0 ∧
      stealing.prey .block 0 = some (5, { msg0 with comet := 1, urgent := true })) ∧
    ((withMsg up msg0).msg 5 1 = some msg0 ∧ msg0.ready.isSome = true ∧ msg0.started = false) ∧
    (stealing.cometOk 0 = true ∧ stealing.contexts 0 < 16 ∧ stealing.recordsWaiting 0 = [] ∧
      stealing.urgentNear 0 = [(5, { msg0 with comet := 1, urgent := true })] ∧ ({ msg0 with comet := 1 } : Msg).comet ≠ 0) ∧
    (let s := { up with cmt := { up.cmt with fenced := [15], rehome := [.comet 15] } }
     s.cmt.rehome.contains (.comet 15) = true ∧ (s.heirs (.comet 15)).isEmpty = false) := by
  have g : stealing.mayGrant .block 0 = true := by
    unfold Chip.mayGrant; rw [stealing_thief, stealing_prey]; decide
  have l : (stealing.arbiterComets .block 0).filter (stealing.arbiterPtr .block 0 ≤ ·) ++
      (stealing.arbiterComets .block 0).filter (· < stealing.arbiterPtr .block 0) = 0 :: rangeFrom 1 15 := by decide
  refine ⟨⟨by decide, ?_, by decide, ?_, ?_, ?_, rfl, by decide, by decide, rfl, rfl⟩, ?_, by decide, ⟨stealing_thief, by decide⟩,
    ⟨by decide, ?_, stealing_prey⟩, by decide, ⟨by decide, by decide, ?_, ?_, by decide⟩, by decide⟩
  · rw [queued_ready]; decide
  · unfold Chip.recordsWaiting; exact sort_of_none (by decide)
  · unfold Chip.urgentNear; exact sort_of_none (by decide)
  · unfold Chip.queuedAt; rw [queued_ready]; decide
  · rw [atStage_ready]; decide
  · rw [l]; exact List.find?_cons_of_pos g
  · unfold Chip.recordsWaiting; exact sort_of_none (by decide)
  · unfold Chip.urgentNear; exact sort_of_one (by decide)

theorem witness_FencesContain :
    (up.cometOk 255 = true ∧ 240 / 16 = 255 / 16 ∧ up.cometOk 240 = true) ∧
    (bit up.cmt.fencedBlocks 15 = false ∧ bit up.cmt.fencedRegions (15 / 4) = false ∧ 15 < up.nBlocks ∧ 12 / 4 = 15 / 4 ∧
      bit up.cmt.fencedBlocks 12 = false) := by decide

theorem witness_FaultsStopTheUnit :
    up.glb.state ≠ .fault ∧ bit up.cmt.fencedRegions 3 = false ∧ 3 < up.nRegions ∧ up.glb.state ≠ .eclipse ∧
    up.glb.sl4804 = false ∧
    (∀ d ∈ [DevState.active, .eclipse],
      let s := { on d with glb := { (on d).glb with sl4804 := true } }
      s.glb.state ≠ .fault ∧ bit s.cmt.fencedRegions 0 = false ∧ 0 < s.nRegions ∧ s.glb.sl4804 = true) := by decide

/-- A host-ingress chain of two cells that comet 0 owns. -/
def chain0 : Chain :=
  { gen := 1, pool := 0, cells := [0, 1], owner := .comet 0, sharers := [], last := none, rel := 0, deferred := false,
    group := some 0, comet := some 0 }

def pooled (ch : Chain) : Chip :=
  { up with bpm := { up.bpm with gens := [(0, 1)], cells := [(0, true), (1, true)], chains := [(0, ch)] } }

theorem witness_ChainOperationsComplete :
    (up.allocFits 3 none (agentComet .xpt) 1 = true ∧
      freeCells up.bpm.cells (up.bpm.sizes.getD 3 0) (up.bpm.base 3) 1 = [up.bpm.base 3]) ∧
    (let h : Handle := { head := 0, gen := 1 }
     (pooled chain0).fresh? h = true ∧ (pooled chain0).chain h = some chain0 ∧ chain0.ownedBy (.comet 0) = true ∧
     (pooled chain0).allocFits chain0.pool chain0.group chain0.comet 1 = true ∧
     Tab.get (pooled chain0).bpm.cells false h.head = true ∧ walk (pooled chain0).bpm.cells chain0.cells = chain0.cells ∧
     chain0.sharers = []) ∧
    (let h : Handle := { head := 0, gen := 1 }
     let ch := { chain0 with sharers := [.comet 0, .xpt], last := some .xpt, rel := 1 }
     (pooled ch).fresh? h = true ∧ (pooled ch).chain h = some ch ∧ ch.sharers.contains (.comet 0) = true ∧
     ch.last ≠ some (.comet 0) ∧ ch.deferred = false) := by decide

/-! ### Regions, lines, cache, pages -/

def editing : Chip := let s := asI2c up 2; { s with rgn := { s.rgn with path := 1 } }

theorem witness_EditWindowCommandsComplete :
    ((asI2c up 2).grants .i2c 23 2 ∧ (asI2c up 2).rgn.path = 0) ∧
    (let s := withConn { up with sec := { up.sec with mgmt := [(5, { SesState.blank with role := 2 })] } } mgmt0
     s.grants (.mgmt 5) 23 2 ∧ s.rgn.path = 0) ∧
    (editing.grants .i2c 23 2 ∧ editing.ownsEdit .i2c = true ∧ editing.rgn.busy = false ∧ editing.glb.state = .active ∧
      65535 < 65536 ∧ 5 < 6 ∧ 15 < 16) := by decide

theorem witness_EditsCommit :
    (editing.grants .i2c 23 2 ∧ editing.ownsEdit .i2c = true ∧ editing.rgn.busy = false ∧ editing.glb.state = .active ∧
      editing.logRoom = true ∧ 65535 < 65536 ∧ (editing.region 65535).live = false) ∧
    (let s := { editing with rgn := { editing.rgn with table := [(65535, { Region.blank with live := true, gen := 0xFFFF })] } }
     s.grants .i2c 23 2 ∧ s.ownsEdit .i2c = true ∧ s.rgn.busy = false ∧ s.logRoom = true ∧ (s.region 65535).live = true) := by
  decide

/-- A started message of an opcode, and the request of its first line operation. -/
def running (op : Nat) : Msg := { msg0 with op, started := true, len := 8 }
def req0 : LineReq := { hub := 0, conn := 5, psn := 1, idx := 0, errs := [], arr := 0 }

/-- Five symbols of two devices in error, a pattern that Table 11-1 guarantees to be detected. -/
def errs0 : List (Nat × Byte) := [(0, 1), (4, 1), (8, 1), (12, 1), (30, 1)]

theorem errs0_uncorrectable : classify false false errs0 = .uncorrectable ∧ classify false false [(0, 1)] = .corrected := by
  decide +kernel

/-- A repair of line 0 that the stored copy or zeros may serve, or that they have failed. -/
def repair0 (tried : Bool) : Repair := { line := 0, first := true, tried }

theorem witness_LineOperationsComplete :
    (∀ op ∈ [0x01, 0x02, 0x04, 0x05], ∀ busy ∈ [false, true],
      let s := withBank (withMsg up (running op)) { Bank.blank with repairs := if busy then [repair0 false] else [] }
      0 < s.nBanks ∧ s.msg req0.conn req0.psn.toNat = some (running op) ∧ s.mayIssue req0.conn (running op) req0.idx = true ∧
      s.bankOf ((running op).line req0.idx) = 0 ∧ s.lineHeld 0 ((running op).line req0.idx) req0.conn req0.psn.toNat = false ∧
      (s.bank 0).queue = [] ∧ (running op).op = op ∧
      (((s.modMsg req0.conn req0.psn.toNat fun x => { x with parked := false }).translate (s.server 0 / 16)
        (pageOfLine ((running op).line req0.idx))).underRepair 0 (running op) req0.idx = busy)) ∧
    (let s := withPage (withBank (withMsg up (running 4)) { Bank.blank with atomic := [(0, 5, 1, true)] })
     ((s.bank 0).atomic.find? fun (a : Nat × Nat × Nat × Bool) => a.1 == 0) = some (0, 5, 1, true) ∧ s.msg 5 1 = some (running 4) ∧
     (s.page (pageOfLine 0)).resident = true ∧ s.inThrottle 0 = false ∧ s.halted 0 = false ∧ (s.bank 0).readLeft 0 = true ∧
     ((s.readBack 0).readBurst 0 []).1 = .good ∧ ((s.readBack 0).readBurst 0 errs0).1 = .uncorrectable ∧
     s.repairRoom 0 0 = true) := by decide +kernel

def miss0 : Miss := { line := 0, set := 0, way := 0, data := zeroBytes 64, mask := 0, install := true, locked := false }

theorem witness_CacheCommandsComplete :
    ((asI2c up 2).grants .i2c 23 2 ∧ (asI2c up 2).lcc.busy = false ∧
      ∀ op ∈ [1, 2, 3, 4], ((asI2c up 2).maintGiven MaintReq.zero).maintRefused op MaintReq.zero = (op == 4)) ∧
    (let s := asI2c (on .eclipse) 2
     s.grants .i2c 23 2 ∧ s.lcc.busy = false ∧
      ∀ op ∈ [1, 2, 3, 4], (s.maintGiven MaintReq.zero).maintRefused op MaintReq.zero = true) ∧
    (let s := (asI2c up 2).setLockWays 8
     let m := { MaintReq.zero with len := 2 ^ 41 }
     (s.maintGiven m).maintRefused 4 m = false ∧ s.grants .i2c 23 2 ∧ s.lcc.busy = false) ∧
    (∀ op ∈ [1, 2, 3],
      let s := { up with lcc := { up.lcc with busy := true, op := op } }
      s.lcc.busy = true ∧ s.lcc.op = op ∧ s.lcc.todo = none ∧ (s.lcc.banks.all fun e => e.2.marks == 0) = true ∧
      (s.maintInvalidate s.lcc.req).lcc.todo = none) ∧
    ((asI2c up 2).par 0x6E0000 % 2 = 1 ∧ (asI2c up 2).lcc.cleared = true) ∧
    (let s := (asI2c up 2).setPar 0x6E0000 0
     s.par 0x6E0000 % 2 = 0 ∧ s.lcc.cleared = true ∧ s.grants .i2c 23 2) ∧ 8 ≤ 8 ∧
    (let s := withBank up { Bank.blank with miss := some miss0, wtb := [.write 0 (.conn 5) false] }
     (s.bank 0).miss = some miss0 ∧ s.inThrottle miss0.line = false ∧ s.halted miss0.line = false ∧
     (s.bank 0).readLeft miss0.line = true ∧ ((s.readBack miss0.line).readBurst miss0.line []).1 = .good ∧
     (s.bank 0).wtb = [.write 0 (.conn 5) false] ∧ s.classFull 0 3 = false) := by decide +kernel

/-- Page 0 FETCHING, its leaf DATA, in a unit whose pair is in a state. -/
def fetching (p : PairState) : Chip :=
  { up with
    pgm := { up.pgm with pages := [(0, { Page.blank with st := .fetching, frame := some 0, issued := some 0 })],
                         leaves := [(0, { Leaf.zero with kind := 1 })] },
    syz := { up.syz with pair := p } }

/-- A page EVICTING, its region pinned or not. -/
def evicting (pin : Bool) : Chip :=
  { up with
    pgm := { up.pgm with pages := [(0, { Page.blank with st := .evicting, frame := some 0, pinned := pin })] } }

/-- Page 0 FETCHING from a single-parity stripe whose position 1 is lost, with another page's column on it: CLEAN in a frame, or
FREE. -/
def rowFetch (p : PairState) (given : Bool) : Chip :=
  let s := fetching p
  let t := { set0 with
    cfg := { set0.cfg with layout := 2 }, pos := [posOf 0, { posOf 1 with ready := false, lost := true }, posOf 2, posOf 3] }
  let other := if given then [(1, { Page.blank with st := .clean, frame := some 1 })] else []
  { s with
    str := { s.str with sets := [(0, t)] },
    pgm := { s.pgm with
      leaves := [(0, { Leaf.zero with kind := 1 }), (1, { Leaf.zero with kind := 1, col := 1 }), (2, { Leaf.zero with kind := 1, col := 2 })],
      pages := s.pgm.pages ++ other } }

theorem witness_PageCommandsComplete :
    (∀ p ∈ [PairState.noTwin, .paired],
      let s := withSet (fetching p) { set0 with cfg := { set0.cfg with layout := 2 } }
      let unread := (List.range 16).filter fun i => (s.leaf 0).kind != 0 && [15].contains i
      (s.page 0).st = .fetching ∧ (s.page 0).issued.isSome = true ∧ unread = [15] ∧ s.fetchRows 0 [15] = [] ∧
      (unread.any fun i => (s.askSectors [(0, 15)]).askWaits (sectorAddr 0 i) 4096) = (p == .paired)) ∧
    (∀ p ∈ [PairState.noTwin, .paired], ∀ given ∈ [false, true],
      let s := rowFetch p given
      let others := ((s.fetchRows 0 [15]).flatMap (s.rowAsks 0)).filter fun x => x.1 != 0
      (s.page 0).st = .fetching ∧ (s.page 0).issued.isSome = true ∧ s.fetchRows 0 [15] ≠ [] ∧
      (others.any fun x => (s.askSectors others).askWaits (sectorAddr x.1 x.2) 4096) = (p == .paired && !given) ∧
      (p = .noTwin ∨ given = true → (decide (((fetchCompleteEffect 0 [15] [] 0 [] (s.askSectors others)).page 0).st = .fetching) = (p == .paired)))) ∧
    (let s0 := withSet (fetching .noTwin) set0
     let s := { s0 with str := { s0.str with locks := [(0, 0, 0, { cls := 4, cmd := .flush, use := .none, again := false })] } }
     (s.page 0).st = .fetching ∧ (s.page 0).issued.isSome = true ∧ s.fetchRows 0 [] = [] ∧ s.inRepair 0 = true) ∧
    (∀ pin ∈ [false, true], ((evicting pin).page 0).st = .evicting ∧ (evicting pin).pinnedPage 0 = pin) ∧
    (∀ busy ∈ [false, true],
      let s := withBank (withPage up) { Bank.blank with atomic := if busy then [(0, 5, 1, true)] else [] }
      (s.page 0).st = .clean ∧ s.classOf 0 = 2 ∧ (s.page 0).pinned = false ∧ s.atomicOn 0 = busy) := by decide +kernel

theorem witness_RepairsComplete :
    let s (tried hot : Bool) (p : PairState) : Chip :=
      let s0 := withPage (withBank up { Bank.blank with repairs := [repair0 tried] })
      let s1 := if hot then { s0 with pgm := { s0.pgm with pages :=
        [(0, { Page.blank with st := .dirty, frame := some 0, charged := true })] } } else s0
      { s1 with
        pgm := { s1.pgm with leaves := [(0, { Leaf.zero with kind := 1 })] },
        rgn := { s1.rgn with table := [(1, { Region.blank with live := true, base := 0, len := 1048576, pair := true })] },
        syz := { s1.syz with pair := p } }
    (∀ tried ∈ [false, true], ∀ hot ∈ [false, true], ∀ p ∈ [PairState.noTwin, .paired],
      (((s tried hot p).bank ((s tried hot p).bankOf 0)).repairs.find? fun x => x.line == 0) = some (repair0 tried) ∧
      ((s tried hot p).page (pageOfLine 0)).resident = true ∧ (s tried hot p).askWaits (0 * 64) 64 = false) ∧
    ((s false false .noTwin).ownSource 0 true true).isSome = true ∧ (s false false .noTwin).ownSource 0 true false = none ∧
    ((s true true .paired).asked (0 * 64) 64).isNone = true ∧ (s true true .paired).twinAsked 0 = true ∧
    (s true true .noTwin).twinAsked 0 = false ∧ (s true true .noTwin).twinSource 0 true = none ∧
    (let y := (s true true .paired).syz
     let u := { s true true .paired with syz := { y with tags := [
       { tag := 1, addr := 0, size := 64, answer := some (2, 2 ^ 64 - 1, zeroBytes 64) }] } }
     (u.asked (0 * 64) 64).isSome = true ∧ u.askWaits (0 * 64) 64 = false ∧ (u.twinSource 0 false).isSome = true) := by decide +kernel

/-! ### Destaging, drives, stripe sets -/

/-- Set 0 and a charged DIRTY page 0 of it in frame 0. -/
def dirty (t : StripeSet) : Chip :=
  let s := withSet up t
  { s with pgm := { s.pgm with pages := [(0, { Page.blank with st := .dirty, frame := some 0, charged := true })] } }

theorem dirty_order (t : StripeSet) : (dirty t).destageOrder = [0] := by
  have h : (dirty t).flashPages = [] := by
    unfold Chip.flashPages
    rw [show ((dirty t).xpt.conns.flatMap fun e => e.2.flushes.map fun f => (f, e.2.covered)) = [] from rfl, List.mergeSort_nil]
    rfl
  unfold Chip.destageOrder
  rw [h, show ((dirty t).pgm.pages.filter fun e => e.2.charged) =
    [(0, { Page.blank with st := .dirty, frame := some 0, charged := true })] from rfl, List.mergeSort_singleton]
  rfl

/-- Set 0 and two charged DIRTY pages of it. -/
def dirty2 : Chip :=
  let s := withSet up set0
  { s with pgm := { s.pgm with pages :=
    [(0, { Page.blank with st := .dirty, frame := some 0, charged := true }),
     (1, { Page.blank with st := .dirty, frame := some 1, charged := true, since := 1 })] } }

theorem dirty2_order : dirty2.destageOrder = [0, 1] := by
  have h : dirty2.flashPages = [] := by
    unfold Chip.flashPages
    rw [show (dirty2.xpt.conns.flatMap fun e => e.2.flushes.map fun f => (f, e.2.covered)) = [] from rfl, List.mergeSort_nil]
    rfl
  unfold Chip.destageOrder
  rw [h, show (dirty2.pgm.pages.filter fun e => e.2.charged) =
    [(0, { Page.blank with st := .dirty, frame := some 0, charged := true }),
     (1, { Page.blank with st := .dirty, frame := some 1, charged := true, since := 1 })] from rfl]
  simp [List.mergeSort, List.MergeSort.Internal.splitInTwo, List.merge]
  rfl

def column (p : Nat) : Column := { page := p, lost := 0, bytes := [], old := none }
def stripe0 : Stripe :=
  { seq := 1, slot := 0, map := false, cols := [column 1], nodes := [], ecl := false, present := [0, 1, 2, 3], since := 0,
    failed := false, pend := [], clean := false, commit := some 1, chain := none }

def ckpt0 : JRec := { type := 3, count := 0, seq := 4, stripe := 7, slot := 0, body := [] }

/-- The stripe of one column is full once it takes page 0; without one, page 0 is its first column, and it waits for the next
page that can be taken or, where there is none, for its time. -/
theorem witness_DestageCommandsComplete :
    (let s := dirty { set0 with opened := some stripe0 }
     s.setWrites 0 = true ∧ s.mayDestage 0 = true ∧ (s.set 0).journalFull = false ∧
     s.destageOrder.find? (s.takeable 0) = some 0 ∧ (s.destageRead 0 []).1 = false ∧ (s.destageRead 0 [(0, errs0)]).1 = true ∧
     (s.set 0).colsNow ≤ (((((s.destageRead 0 []).2.takePage 0 0 []).set 0).opened.map fun x => x.cols.length).getD 0)) ∧
    (let s := dirty set0
     s.setWrites 0 = true ∧ s.mayDestage 0 = true ∧ (s.set 0).journalFull = false ∧ (s.destageRead 0 []).1 = false ∧
     (((((s.destageRead 0 []).2.takePage 0 0 []).set 0).opened.map fun x => x.cols.length).getD 0) < (s.set 0).colsNow ∧
     s.destageOrder.find? (s.takeable 0) = some 0 ∧
     s.destageOrder.any (((s.destageRead 0 []).2.takePage 0 0 []).takeable 0) = false) ∧
    (let s := dirty2
     s.setWrites 0 = true ∧ s.mayDestage 0 = true ∧ (s.set 0).journalFull = false ∧ (s.destageRead 0 []).1 = false ∧
     (((((s.destageRead 0 []).2.takePage 0 0 []).set 0).opened.map fun x => x.cols.length).getD 0) < (s.set 0).colsNow ∧
     s.destageOrder.find? (s.takeable 0) = some 0 ∧
     s.destageOrder.any (((s.destageRead 0 []).2.takePage 0 0 []).takeable 0) = true) ∧
    (let s := withSet up { set0 with opened := some stripe0 }
     (s.set 0).opened = some stripe0 ∧ stripe0.cols ≠ [] ∧ s.setWrites 0 = true ∧ s.mayDestage 0 = true ∧
     (s.set 0).journalFull = false) ∧
    (let s := withSet up { set0 with writing := [stripe0] }
     ((s.set 0).writing.find? fun y => y.pend.isEmpty && !y.failed && s.committed 0 y) = some stripe0) ∧
    (let x := { stripe0 with failed := true }
     ((withSet up { set0 with writing := [x] }).set 0).writing = [x] ∧ x.failed = true) ∧
    (let s0 := withSet up { set0 with jrecs := [ckpt0] }
     let s := { s0 with str := { s0.str with ckptRun := some 7, ckptRec := true } }
     s.str.ckptRun = some 7 ∧ s.str.ckptRec = true ∧ s.mapSet = some 0 ∧
     ((s.set 0).jrecs.filter (·.type == 3)).getLast? = some ckpt0 ∧ s.recordDone 0 ckpt0.seq = true) ∧
    (let g := { up.pgm with mapReads := [nodeKey 2 1] }
     2 < 3 ∧ g.mapReads.contains (nodeKey 2 1) = true ∧
     (([[(0, 1)], []] : List NodeWords).find? fun ws => ws.all fun e => wordGood e.2) = some [] ∧
     (([[(0, 1)]] : List NodeWords).find? fun ws => ws.all fun e => wordGood e.2) = none) ∧
    ((withSet up set0).mapSet = some 0 ∧ (withSet up set0).setUp 0 = true) := by
  have a : (dirty { set0 with opened := some stripe0 }).destageOrder = [0] := dirty_order _
  have b : (dirty set0).destageOrder = [0] := dirty_order _
  refine ⟨?_, ?_, ?_, by decide, by decide, by decide, by decide, by decide +kernel, by decide⟩
  · dsimp only; rw [a]; decide +kernel
  · dsimp only; rw [b]; decide +kernel
  · dsimp only; rw [dirty2_order]; decide +kernel

def info0 (l : Option Label) : DriveInfo :=
  { multiPort := true, reservations := true, nsOk := true, lba4k := true, queues := 4, serial := 1, size := 8388608, label := l,
    warn := 0 }

def label0 : Label :=
  { setId := 1, set := 0, gen := 1, layout := 0, n := 4, pos := 0, fg := [0, 1, 2, 3], serials := [1, 2, 3, 4], z := 8388608 }

/-- A drive command of class 2. -/
def cmd0 (cmd : NvmeCmd) (use : CmdUse) : DriveCmd := { cls := 2, cmd, use, again := false }

/-- A present drive 0 with one command outstanding. -/
def driven (c : DriveCmd) : Chip :=
  let k := { Drive.blank with present := true, cmds := [(0, c)] }
  { up with str := { up.str with drives := [(0, k)], sets := [(0, set0)] } }

theorem witness_DriveCommandsComplete :
    (up.portUsed 30 = true ∧ (up.drive 30).present = false) ∧
    (31 < up.nDrives ∧ up.portUsed 31 = false ∧ (up.drive 31).present = false) ∧
    (let s := withSet up set0
     s.portUsed 2 = true ∧ (s.drive 2).present = true ∧ (s.drive 2).perst = false ∧ (s.drive 2).pulse = false ∧
     (if s.bifurcated 2 then 2 else 4) ≤ 4 ∧ 3 < (if s.bifurcated 2 then 2 else 4) ∧ (s.drive 2).ready = true ∧
     s.drivesOn = true ∧ 0 < 255 ∧ 255 < 256) ∧
    (let k := { Drive.blank with present := true, perst := false }
     let s := { up with str := { up.str with drives := [(0, k)] } }
     (s.drive 0).present = true ∧ (s.drive 0).up = false ∧ (s.drive 0).lost = false ∧ (s.drive 0).ready = false ∧
     (s.drive 0).perst = false) ∧
    (∀ c ∈ [cmd0 (.read 8 1) .none, cmd0 (.write 8 1 []) (.stripe 1), cmd0 (.acquire 7) .none],
      let s := driven c
      (s.drive 0).present = true ∧ ((s.drive 0).cmds.find? fun (e : Nat × DriveCmd) => e.1 == 0) = some (0, c) ∧
      c.again = false ∧ ((s.drive 0).cmds.any fun e => e.1 == 0) = true ∧ (s.drive 0).resets = [] ∧ c.cmd ≠ .flush ∧
      ((s.modDrive 0 fun k => { k with cmds := k.cmds.filter (·.1 != 0) }).memberOf 0) = some (0, 0)) ∧
    (let k := { Drive.blank with present := true, perst := false, up := true }
     let s := { up with str := { up.str with drives := [(0, k)] } }
     (s.drive 0).present = true ∧ (s.drive 0).perst = false ∧ (s.drive 0).pulse = false ∧ (s.drive 0).up = true ∧
     (s.drive 0).refused = false ∧ (s.drive 0).ready = false ∧ s.portUsed 0 = true ∧ s.setUpOn = true) ∧
    driveRefusal (info0 none) = none ∧ (info0 none).label = none ∧ driveRefusal (info0 (some label0)) = none ∧
    (info0 (some label0)).label = some label0 ∧ driveRefusal { info0 none with queues := 3 } = some 3 := by decide

theorem witness_SetCommandsComplete :
    (let s := withSet up { set0 with scanned := false, z := 32768 + 4 * 4352 }
     (s.set 0).cfg.on = true ∧ (s.set 0).scanned = false ∧ (s.set 0).missing.length ≤ (s.set 0).cfg.tolerance ∧
     s.drivesOn = true ∧ s.inFlight (.scan 0) = false ∧ (s.set 0).slotScan = false ∧
     s.scanSegs 0 { recs := some [], seals := [], used := [], found := [] } = [] ∧
     (let f : ScanInfo := { recs := none, seals := [], used := [], found := [] }
      s.scanSegs 0 f ≠ [] ∧ (s.scanReads 0 (s.scanSegs 0 f)).inFlight (.scan 0) = true)) ∧
    (let s := withSet up { set0 with st := .waiting }
     (s.set 0).cfg.on = true ∧ (s.set 0).st = .waiting ∧ (s.set 0).presentPos ≠ []) ∧
    (let s := withSet up { set0 with jlive := [0] }
     (s.set 0).jlive = [0] ∧ s.setUp 0 = true ∧ s.drivesOn = true ∧ (s.set 0).jcopy = none ∧
     ((s.set 0).presentPos.filter fun p => p != 0 && (s.set 0).cfg.fg.getD p 0 != (s.set 0).cfg.fg.getD 0 0) = [1, 2, 3]) ∧
    (let t := { set0 with pos := [posOf 0, posOf 1, posOf 2, { posOf 9 with lost := true }], st := .degraded }
     let s := asI2c ((withSet up t).setPar 0x900304 8) 2
     (s.set 0).st = .degraded ∧ (s.set 0).rbState ≠ 1 ∧ s.ecl.step < 4 ∧ s.drivesOn = true ∧ (s.set 0).missing = [3] ∧
     ((bitsOf s.nDrives (s.par 0x900304)).filter (s.spareFits 0)) = [3] ∧ s.grants .i2c 23 2 ∧ (s.set 0).cfg.on = true ∧
     bit (s.set 0).cfg.mask 3 = true ∧ (s.set 0).missing.contains 3 = true ∧ s.spareFits 0 3 = true) ∧
    (let s := withSet up { set0 with rbState := 1 }
     (s.set 0).rbState = 1 ∧ (s.set 0).rebuildLeft = [] ∧ (s.set 0).rbRead = none ∧ s.str.locks = []) ∧
    (let s := asI2c (withSet up set0) 2
     let marked := s.setPar 0x900300 0
     s.grants .i2c 23 2 ∧ s.formRefused 0 (marked.clampSet 0 1 (marked.pendingCfg 0)).1 = false) ∧
    (∀ dead ∈ [[], List.range 256],
      let s := withSet up { set0 with segs := [(0, { st := .full, next := 256, superseded := 0, closed := true, dead := dead })] }
      s.setUp 0 = true ∧ s.ecl.step < 4 ∧ s.drivesOn = true ∧ (s.set 0).visit = none ∧
      (s.set 0).patrolNext = (if dead = [] then some 0 else none)) := by decide +kernel

/-! ### DRAM -/

theorem witness_RefreshCommandsComplete :
    (let s := withDram up Channel.blank
     s.chanOn 0 = true ∧ ((s.par 0xAE000C : Int) - 1) < (s.par 0xAE000C : Int) ∧ 1 < s.packRanks ∧
     (s.chan 0).selfRef = false ∧ (s.chan 0).stopped = false ∧ s.class1Waits 0 1 = false ∧ s.soonFor 0 1 = false ∧
     0 < s.nChans ∧ s.domainOn (16 + 0 / 3) = true ∧
     Tab.get (s.chan 0).debt 0 1 + 3899 < (s.chan 0).trefi 1 ∧ (s.chan 0).trefi 1 ≤ Tab.get (s.chan 0).debt 0 1 + 3900 ∧
     Tab.get (s.chan 0).debt 0 1 + 15599 < 4 * (s.chan 0).trefi 1 ∧ 4 * (s.chan 0).trefi 1 ≤ Tab.get (s.chan 0).debt 0 1 + 15600) := by
  decide

theorem witness_ThrottleCommandsComplete :
    let r : ChanReq := { cls := 3, fl := 7, tag := .conn 5, write := false, awaited := false, sweep := false }
    let x : Throttle := { conn := 5, bank := 3, minOver := false, held := [r], windowOver := false }
    let s := withDram up { Channel.blank with throttles := [x] }
    ((s.chan 0).throttles.find? fun t => t.conn == 5 && t.bank == 3) = some x ∧ x.held = r :: [] := by decide

/-- A byte lane with eyes of a width. -/
def lane0 (n : Nat) : LaneEye := { rdDelay := 0, wrDelay := 0, rdEye := n, wrEye := n, rdVref := 0, wrVref := 0 }

theorem witness_FrequencyChangeCompletes :
    (∀ d ∈ [DevState.active, .umbra], ∀ target ∈ [2, 3],
      let s := asI2c (withDram (on d) Channel.blank) 2
      s.grants .i2c 23 2 ∧ s.dmc.freqBusy = false ∧ s.dmc.map ≠ [] ∧ s.glb.state = d ∧
      (decide (Nat.min (target % 4) s.speedLimit = target % 4) = (target == 2))) ∧
    (∀ i ∈ [0, 1], ∀ stop ∈ [false, true],
      let s0 := withDram up Channel.blank
      let s := { s0 with dmc := { s0.dmc with freqBusy := true, freqChan := i, freqStop := stop } }
      s.dmc.freqBusy = true ∧ s.dmc.freqStop = stop ∧ (decide (s.dmc.map.length ≤ s.dmc.freqChan + 1) = (i == 1)) ∧
      (decide (s.dmc.freqChan + 1 < s.dmc.map.length) = (i == 0)) ∧
      (let least := s.par 0xAE0004
       (([[lane0 least, lane0 (least - 1)]].findSome? fun r => r.findIdx? fun l => !s.lanePasses l) = some 1 ∧
        ([[lane0 least]].findSome? fun r => r.findIdx? fun l => !s.lanePasses l) = none))) := by decide

theorem witness_MarginHelpersComplete :
    (let m : MarginReq := { ch := 11, lane := 15, rank := 15 }
     ∀ d ∈ [DevState.maintenance, .active, .umbra, .eclipse], ∀ role ∈ [0, 2, 3],
       let s := asI2c (on d) role
       s.sesLive .i2c = true ∧ s.domainOn (16 + m.ch / 3) = true ∧ m.ch < s.nChans ∧ (s.chan m.ch).mgBusy = false ∧ m.lane < 16 ∧
       m.rank < 16 ∧ s.glb.state = d ∧ (s.ses .i2c).role = role) ∧
    ((withDram up { Channel.blank with mgBusy := true }).chan 0).mgBusy = true := by decide

/-- A chip whose channel 0 is scrubbed at its first line, its frame 0 with or without a page. -/
def scrubbing (page : Bool) : Chip := let s := withDram up Channel.blank; if page then withPage s else s

/-- A mirror frame's line of channel 0, for a unit without a page in frame 0. -/
theorem witness_ScrubCommandsComplete :
    (∀ page ∈ [false, true],
      let s := scrubbing page
      s.chanOn 0 = true ∧ s.par 0xB00008 % 2 = 1 ∧ s.ecl.step < 4 ∧ (s.chan 0).scrubs = true ∧ (s.chan 0).scrubAt = 0 ∧
      (s.payRewrite 0).pageInFrame ((s.payRewrite 0).heldLine 0 (s.frameNo 0 0 * 1024) / 1024) = (if page then some 0 else none)) ∧
    (let s := asI2c (on .maintenance) 3
     s.grants .i2c 23 3 ∧ s.glb.state = .maintenance) := by decide +kernel

/-- What a scrub read of line 0 gives: one line that a page holds, with room for its repair or none, and one of no page, in a mirror
frame or unused. -/
theorem witness_ScrubCommandsComplete_reads :
    (let s := (scrubbing true).payRewrite 0
     let sent := s.enqueue { cls := 5, fl := 0, tag := .mei, write := false, awaited := false, sweep := false }
     (sent.readBurst 0 errs0).1 = .uncorrectable ∧ (sent.readBurst 0 [(0, 1)]).1 = .corrected ∧ (sent.readBurst 0 []).1 = .good ∧
     s.repairRoom (s.bankOf 0) 0 = true ∧
     (withBank s { Bank.blank with repairs := (List.range 8).map fun i => { repair0 false with line := 512 * (i + 1) } }).repairRoom
       (s.bankOf 0) 0 = false) ∧
    (let s := (scrubbing false).payRewrite 0
     let sent := s.enqueue { cls := 5, fl := 0, tag := .mei, write := false, awaited := false, sweep := false }
     (sent.freeBurst 0 0 errs0).1 = .uncorrectable ∧ (sent.freeBurst 0 0 [(0, 1)]).1 = .corrected ∧ (sent.freeBurst 0 0 []).1 = .good ∧
     s.areaOf 0 = some (0, 0) ∧ ({ s with pgm := { s.pgm with total := 4 } }).areaOf 0 = none) := by decide +kernel

/-! ### The twin -/

def join0 : RoleMsg :=
  { lastRole := 2, sealed := false, ringKept := false, mode := 0, refuse := 0, ring := 16, mirror := 0, pos := 0, writer := 9 }

theorem witness_ActiveTwinFramesComplete :
    (let s := twin .active .active .paired
     s.syzTakes frame0 = true ∧ s.foreign frame0 = false ∧ (s.covered 5).syz.role = .active ∧ s.tells frame0 ∧
     s.glb.state = .active ∧ s.syz.role = .active) ∧
    (twin .eclipse .active .paired).tells frame0 ∧
    (let s := twin .umbra .umbra .noTwin
     s.syzTakes frame0 = true ∧ s.foreign frame0 = false ∧ (s.covered 5).syz.role ≠ .active ∧ s.tells frame0 ∧ s.syz.role = .umbra) ∧
    (let s := twin .active .active .catchingUp
     s.tells frame0 ∧ s.syz.role = .active ∧ s.syz.pair = .catchingUp) := by decide

theorem witness_ActiveTwinFramesComplete_join :
    ∀ d ∈ [DevState.active, .start], ∀ p ∈ [PairState.noTwin, .solo], ∀ mode ∈ [0, 1],
      let s := twin d .active p
      s.tells frame0 ∧ s.syz.role = .active ∧ s.glb.state = d ∧ s.syz.pair = p ∧
      (decide ((s.hearing frame0).joinCauses { join0 with mode } = 0) = (mode == 0)) := by decide

theorem witness_StandbyTwinFramesComplete :
    (twin .umbra .umbra .noTwin).tells frame0 ∧ (twin .umbra .umbra .noTwin).glb.state = .umbra ∧
    (twin .umbra .umbra .noTwin).syz.release ≤ 0 ∧
    (let s0 := twin .umbra .umbra .noTwin
     let s := { s0 with syz := { s0.syz with compat := true } }
     s.tells frame0 ∧ s.syz.compat = true ∧ s.syz.refuse = 0 ∧ (s.hearing frame0).endCopy.joined = true) := by decide

/-- The frame before the next one is missing. -/
theorem witness_FramesAheadWaitForTheirTurn : (twin .umbra .umbra .noTwin).ahead { frame0 with seq := 6 } := by decide

theorem witness_DuplicateFramesAreAnsweredOnly :
    let s := twin .umbra .umbra .noTwin
    s.syzTakes { frame0 with seq := 4 } = true ∧ s.foreign { frame0 with seq := 4 } = false ∧ s.syz.rxKnown = true ∧
    notAfter 4 s.syz.rxSeq = true ∧
    (let t := { s with syz := { s.syz with rxHeld := [(7, .eclipse)] } }
     t.syzTakes { frame0 with seq := 7 } = true ∧ t.foreign { frame0 with seq := 7 } = false ∧ t.syz.rxKnown = true ∧
     (t.syz.rxHeld.any fun e => e.1 == 7) = true) := by decide

def held0 : SyzFrame := { seq := 4, op := 0x47, link := 0, retry := false, es := [], body := [], chains := [], turn := 0 }

theorem witness_TwinTimersComplete :
    (twin .active .active .paired).syzOn 0x42 = true ∧
    (∀ p ∈ [PairState.paired, .catchingUp],
      (twin .active .active p).glb.state = .active ∧ (twin .active .active p).syz.role = .active ∧
      (twin .active .active p).syz.pair = p) ∧
    (let s0 := twin .umbra .umbra .noTwin
     let s := { s0 with syz := { s0.syz with caughtUp := true, eclSeen := true, held := [held0] } }
     s.glb.state = .umbra ∧ s.syz.caughtUp = true ∧ s.syz.eclSeen = true ∧ oldestSent s.syz.held = some held0) ∧
    (∀ d ∈ [DevState.active, .start], ∀ links ∈ [0, 1],
      let s0 := twin d .active .noTwin
      let s := { s0 with syz := { s0.syz with links } }
      3 < s.nLinks ∧ bit s.cmt.fencedRegions 3 = false ∧ s.domainOn 21 = true ∧ s.glb.state ≠ .maintenance ∧
      s.glb.state ≠ .off ∧ bit s.syz.links 3 ≠ true ∧ s.glb.state = d ∧ s.syz.links = links) ∧
    bit (twin .active .active .noTwin).syz.links 0 ≠ false ∧
    (let s0 := withSet (twin .active .active .inDoubt) set0
     let hs : List Holder := [⟨0, some 0⟩, ⟨1, some 0⟩, ⟨2, some 0⟩, ⟨3, some 0⟩]
     s0.glb.state = .active ∧ s0.syz.pair = .inDoubt ∧
     (∀ x ∈ hs, s0.memberDrives.contains x.drive = true → x.key = none ∨ x.key = some s0.sec.writer) ∧
     (s0.mapSet = some 0 ∧ 0 ∈ s0.memberDrives ∧ ((s0.holds 0).any fun x => x.1 == 0) = true) ∧
     (∀ d ∈ s0.memberDrives, ∃ x ∈ hs, x.drive = d ∧ x.key = some s0.sec.writer)) ∧
    (let s0 := withSet (twin .active .active .inDoubt) set0
     let x : Holder := ⟨3, some 9⟩
     x ∈ [x] ∧ s0.memberDrives.contains x.drive = true ∧ x.key.isSome = true ∧ x.key ≠ some s0.sec.writer) := by decide

theorem witness_TakeoverStepsComplete :
    (let s := twin .takeover .active .noTwin
     s.glb.state = .takeover ∧ s.syz.preDone = false ∧ s.syz.sealDone = false ∧ s.allMembers = true) ∧
    (let s := withSet (twin .takeover .active .noTwin) { set0 with pos := [posOf 9] }
     s.glb.state = .takeover ∧ s.syz.preDone = false ∧ s.allMembers = false) ∧
    (let s0 := twin .takeover .active .noTwin
     let s := { s0 with syz := { s0.syz with preDone := true, sealDone := true, replaying := true } }
     s.glb.state = .takeover ∧ s.syz.preDone = true ∧ s.syz.sealDone = true ∧ s.hpx.up ≠ 0 ∧
     (s.setPar 0xC00134 1).par 0xC00134 ≠ 0 ∧ s.syz.replaying = true) := by decide

/-- A starting unit that decides its role from the reservations, and what they say, drive 3's as given. -/
def joining : Chip := let s := withSet (on .start) set0; { s with cfg := { s.cfg with phase := 2 } }
def holders (key : BitVec 64) : List Holder := [⟨0, none⟩, ⟨1, some 0⟩, ⟨2, none⟩, ⟨3, some key⟩]

theorem witness_RoleDecided :
    (∀ d ∈ [DevState.start, .active, .umbra], ∀ last ∈ [TwinRole.none, .active],
      let s0 := twin d .none .noTwin
      let s := { s0 with syz := { s0.syz with last } }
      s.syzTakes frame0 = true ∧ (s.syz.rxKnown && s.syz.rxSeq == frame0.seq.toNat) = false ∧ s.glb.state = d ∧
      s.cfg.roleDone = false ∧ s.foreign frame0 = false ∧ s.syz.last = last ∧ s.syz.sealedSelf = false) ∧
    (let s := twin .start .none .noTwin
     let h := { frame0 with seq := 4 }
     s.syzTakes h = true ∧ (s.syz.rxKnown && s.syz.rxSeq == h.seq.toNat) = true) ∧
    (let s0 := twin .start .none .noTwin
     let s := { s0 with cfg := { s0.cfg with roleDone := true } }
     s.syzTakes frame0 = true ∧ s.glb.state = .start ∧ s.cfg.roleDone = true) ∧
    (let s0 := twin .umbra .umbra .noTwin
     let s := { s0 with syz := { s0.syz with join := 2 } }
     s.syzTakes frame0 = true ∧ s.foreign frame0 = false ∧ s.glb.state = .umbra ∧ s.syz.join = 2) ∧
    (joining.glb.state = .start ∧ joining.cfg.roleDone = false ∧ joining.syz.started = false ∧ 2 ≤ joining.cfg.phase ∧
      joining.mapSet = some 0) := by decide

/-- The map set's drives, and what their reservations may say: no holder but this unit, or another. -/
theorem witness_RoleDecided_reservations :
    ((List.range joining.nDrives).filter fun d => (joining.drive d).ready && bit (joining.set 0).cfg.mask d) = [0, 1, 2, 3] ∧
    (∀ key, ∀ d ∈ [0, 1, 2, 3], ∃ x ∈ holders key, x.drive = d) ∧
    (∀ x ∈ holders 0, x.drive ∈ [0, 1, 2, 3] → x.key = none ∨ x.key = some joining.sec.writer) ∧
    (∃ x ∈ holders 9, x.drive ∈ [0, 1, 2, 3] ∧ x.key ≠ none ∧ x.key ≠ some joining.sec.writer) := by
  refine ⟨by decide, ?_, by decide, ⟨3, some 9⟩, by decide, by decide, by decide, by decide⟩
  intro key d h
  have : d = 0 ∨ d = 1 ∨ d = 2 ∨ d = 3 := by simpa using h
  rcases this with rfl | rfl | rfl | rfl <;> simp [holders]

/-! ### Eclipse, power, the always-on island -/

/-- A unit in a step of Eclipse. -/
def step0 (n : Nat) (e : Ecl → Ecl) : Chip := { on .eclipse with ecl := e { Ecl.reset with step := n } }

theorem witness_EclipseCommandsComplete :
    (let s := step0 2 id
     s.glb.state = .eclipse ∧ s.ecl.step = 2 ∧ (s.giveUp (s.allMsgs.filter fun x => s.readWaits x.2)).unfinished = [] ∧
     ((s.giveUp (s.allMsgs.filter fun x => s.readWaits x.2)).lcc.banks.any fun e => !e.2.wtb.isEmpty) = false) ∧
    ((step0 3 id).glb.state = .eclipse ∧ (step0 3 id).ecl.step = 3) ∧
    ((step0 4 id).glb.state = .eclipse ∧ (step0 4 id).ecl.step = 4 ∧ (step0 4 id).drainLeft = []) ∧
    (∀ kind ∈ [1, 2], ∀ back ∈ [false, true],
      let s0 := step0 5 fun e => { e with kind }
      let s := { s0 with pws := { s0.pws with returned := back } }
      s.glb.state = .eclipse ∧ s.ecl.step = 5 ∧ s.ecl.waiting = false ∧ s.cfg.pend = [] ∧ s.inFlight .deviceSeal = false ∧
      s.ecl.kind = kind ∧ s.pws.returned = back ∧ s.eligible = true) ∧
    (let s0 := step0 5 fun e => { e with kind := 1 }
     let s := { s0 with pws := { s0.pws with rails := List.replicate 17 { Rail.blank with code := 9 } } }
     s.inputRises = true ∧ s.pws.returned = false ∧ s.eligible = true ∧ s.ecl.kind ≠ 2) ∧
    (let s := step0 5 fun e => { e with kind := 1, lostRegion := true }
     s.ecl.kind ≠ 2 ∧ s.eligible = false) ∧
    (let s := step0 5 fun e => { e with waiting := true }
     s.glb.state = .eclipse ∧ s.ecl.step = 5 ∧ s.ecl.waiting = true) ∧
    (∀ others ∈ [false, true],
      let d : Drive := { Drive.blank with present := true, ready := true }
      let s0 := step0 6 id
      let s := { s0 with str := { s0.str with drives := if others then [(0, d), (31, d)] else [(31, d)] } }
      s.glb.state = .eclipse ∧ s.ecl.step = 6 ∧ s.shutting.contains 31 = true ∧
      ((s.modDrive 31 fun k => { k.held with shut := true }).shutting = if others then [0] else [])) ∧
    (let s := asI2c (twin .active .active .paired) 1
     s.grants .i2c 23 1 ∧ s.glb.state = .active ∧ s.syz.pair = .paired) ∧
    (let s := asI2c (twin .active .active .solo) 1
     s.grants .i2c 23 1 ∧ s.syz.pair ≠ .paired) ∧
    (let r : UrgentRun := { start := 0, second := 0, bytes := 0, seals := 1, secBytes := 65536, secSeals := 1 }
     { up.pgm with run := some r }.run = some r ∧ r.secSeals ≠ 0) := by
  refine ⟨by decide, by decide, by decide, by decide, by decide, by decide, by decide, by decide, by decide, by decide, by decide⟩

/-- A unit in a state of a sequence. -/
def seq0 (dir state : Nat) : Chip := { up with pws := { up.pws with dir, state } }

theorem witness_PowerCommandsComplete :
    (∀ d ∈ [DevState.sealed, .fault, .active, .umbra, .maintenance, .start],
      (on d).glb.aonUp = true ∧ (on d).glb.state = d ∧ (on d).cfg.begun = false ∧ (on d).pws.dir = 0 ∧ (on d).pws.dir ≠ 3) ∧
    (150 ≤ 150 ∧ 150 ≤ 600 ∧ 800 ≤ 800 ∧ 2000 ≤ 2000 ∧ 2000 < 2001 ∧ 49999 < 50000) ∧
    (∀ d ∈ [1, 2], ∀ n ∈ [0, 1, 14, 15],
      (seq0 d n).pws.holding = false ∧ (seq0 d n).pws.abandon = false ∧ (seq0 d n).pws.dir = d ∧ (seq0 d n).pws.state = n) ∧
    (let o := { RstOut.blank with counting := true }
     let s := { up with pws := { up.pws with outs := List.replicate 8 o } }
     s.pws.outs[7]? = some o ∧ o.counting = true) ∧
    (∀ d ∈ [DevState.eclipse, .fault], ∀ lost ∈ [false, true],
      let s := { on d with pws := { (on d).pws with ended := true }, ecl := { Ecl.reset with lostRegion := lost } }
      let u := { s with pws := { s.pws with ended := false } }.gate (List.range 24) true
      s.pws.ended = true ∧ u.glb.state = d ∧ u.ecl.lostRegion = lost) ∧
    (up.glb.state ≠ .eclipse ∧ up.glb.state ≠ .sealed ∧ (on .sealed).glb.state = .sealed ∧ (step0 4 id).glb.state = .eclipse ∧
      (step0 4 id).ecl.step < 5) ∧
    (let s := { on .sealed with pws := { up.pws with minOff := true } }
     s.glb.state = .sealed ∧ s.pws.minOff = true) := by decide

theorem witness_PowerCommandsComplete_return :
    (∀ d ∈ [DevState.sealed, .fault], ∀ off ∈ [0, 2 ^ 50],
      let s := { on d with now := 2 ^ 50, pws := { (on d).pws with offAt := off } }
      s.glb.aonUp = true ∧ s.pws.dir = 0 ∧ s.glb.state = d ∧
      (decide (s.pws.offAt + s.par 0xD00008 * 1000000 ≤ s.now) = (off == 0))) ∧
    ((seq0 2 3).glb.state ≠ .eclipse ∧ (seq0 2 3).glb.state ≠ .sealed ∧ (seq0 2 3).pws.dir = 2) ∧
    (∀ lostRegion ∈ [false, true],
      let s := step0 5 fun e => { e with kind := 1, waiting := true, lostRegion }
      let u := step0 6 fun e => { e with kind := 1, lostRegion }
      s.glb.state = .eclipse ∧ s.ecl.kind = 1 ∧ s.ecl.step = 5 ∧ s.ecl.waiting = true ∧ s.eligible = !lostRegion ∧
      u.ecl.step = 6 ∧ u.pws.offDone = false) := by decide

theorem witness_AlwaysOnIslandCompletes : State.reset.chip.glb.aonUp = false := rfl

/-! ### Start and store -/

/-- A start in a phase. -/
def phase0 (n : Nat) : Chip := { on .start with cfg := { Cfg.reset with begun := true, phase := n, flashOk := true } }

/-- The image's verdict rests on its signature where it is good (`Config.ecdsaVerify`); an erased slot fails by itself. -/
theorem witness_StartCommandsComplete
    (h : Config.ecdsaVerify (zeroBytes 96) (image0.take 1280) (zeroBytes 96) = true) :
    ((phase0 0).glb.state = .start ∧ (phase0 0).cfg.begun = true ∧ (phase0 0).cfg.phase = 0) ∧
    (let s := { phase0 1 with cfg := { (phase0 1).cfg with cands := [1], flash := flash0 } }
     s.glb.state = .start ∧ s.cfg.phase = 1 ∧ s.cfg.cands.head? = some 1 ∧ s.imageFails part0 1 1536 = none) ∧
    (let s := { phase0 1 with cfg := { (phase0 1).cfg with cands := [0] } }
     s.cfg.cands.head? = some 0 ∧ s.imageFails Otp.blank 0 (s.slotField 0 8) = some 0) ∧
    ((phase0 3).cfg.phase = 3 ∧ 0 < (phase0 3).nRegions) ∧
    ((phase0 4).cfg.phase = 4 ∧ (phase0 4).cfg.dramDone = false) ∧
    ((phase0 2).portThere 1 = true ∧ (phase0 2).portUp 1 = true) ∧
    (let s := { phase0 2 with hpx := { (phase0 2).hpx with up := 1 } }
     s.portThere 1 = true ∧ s.portUp 1 = false) ∧
    (let s := { on .maintenance with hpx := Hpx.reset }
     s.glb.state = .maintenance ∧ s.portUp 0 = false) ∧
    (∀ d ∈ [DevState.start, .maintenance, .umbra, .active], (asI2c (on d) 2).grants .i2c 23 2 ∧ (asI2c (on d) 2).glb.state = d ∧
      (asI2c (on d) 2).pws.dir ≠ 2 ∧ (asI2c (on d) 2).pws.abandon = false) ∧
    ((asI2c (seq0 2 3) 2).pws.dir = 2 ∧ (asI2c (seq0 2 3) 2).grants .i2c 23 2) ∧
    (asI2c up 1).grants .i2c 23 1 := by
  refine ⟨by decide, ⟨rfl, rfl, rfl, ?_⟩, by decide, by decide, by decide, by decide, by decide, by decide, by decide, by decide, by decide⟩
  exact image_passes (by simp only) h

theorem witness_StoreCommandsComplete :
    (let c := { Cfg.reset with flashOk := true, pend := [(1, [])], fill := [511, 0], erase := 3, busy := true, owner := some .i2c }
     c.flashOk = true ∧ c.pend = (1, []) :: [] ∧ c.fill.getD 0 0 < 512 ∧ bit c.erase 0 = true ∧ bit c.erase 1 = true ∧
     c.busy = true ∧ c.owner.isSome = true) ∧
    { Cfg.reset with pend := [(0, [])] }.pend = (0, []) :: [] := by decide

/-! ### The whole block -/

theorem witness_StepIdlesOnEmptyQueue :
    State.reset.pending = [] ∧ (up.hpx.stopped = false ∧ bit up.pws.gated 20 = false) ∧
    bit State.reset.chip.pws.gated 20 = true := by decide

theorem witness_ExecKeepsQueue : ∃ t, exec .pwrGoodIn (st (on .sealed)) = .next t := ⟨_, rfl⟩

theorem witness_FusesAreKept : ∃ t, step { st up with pending := [.watchdogExpiry .noService] } = .next t := ⟨_, rfl⟩

theorem witness_LockedPartsStayWhole :
    { part0 with powerTable := some table0, mac := some 1, identity := some 0 }.whole ∧
    ∃ t, step { st up with pending := [.attestationDone] } = .next t := ⟨fun _ => ⟨rfl, rfl, rfl, rfl⟩, _, rfl⟩

theorem witness_AccessesAreGated :
    (let s := { up with pws := { up.pws with gated := 2 ^ 24 - 1 } }
     s.sesLive .i2c = true ∧ s.regOn 0x200010 = false ∧ s.domainOn 23 = false) ∧
    (up.sesLive .i2c = true ∧ up.regOn 0x200010 = true ∧ up.regValue Otp.blank .i2c 0x200010 = some (up.par 0x200010) ∧
      up.roleStops .i2c 0x200010 0 (up.par 0x200010) = true) ∧
    (up.regOn 1 = true ∧ up.regValue Otp.blank .i2c 1 = none) ∧
    ((asI2c up 1).sesLive .i2c = true ∧ (asI2c up 1).domainOn 23 = true ∧ ((asI2c up 1).ses .i2c).role < 2) := by decide

theorem witness_CountersSaturate :
    (up.cnt 0x20 < 2 ^ 32 ∧ up.cnt 0x20 + 1 < 2 ^ 32) ∧
    (let s := { up with cnts := [(0x20, 2 ^ 32 - 1)] }
     s.cnt 0x20 < 2 ^ 32 ∧ 2 ^ 32 ≤ s.cnt 0x20 + 1 ∧ 0x24 ≠ 0x20) := by decide

theorem witness_SealedRecordsCount : (zeroBytes 120).length ≤ 120 := by decide

theorem witness_RecordsAreNumbered : (1 : Nat) ≠ 65536 % 65536 ∧ up.evr.canWrite = false ∧ 255 < 256 := by decide

theorem witness_RegionKeysCheckGenerations :
    (65535 < 65536 ∧ 0xFFFFFFFF < 2 ^ 32) ∧
    (let s := { up with rgn := { up.rgn with table := [(1, { Region.blank with live := true, len := 2 ^ 30, rights := BitVec.allOnes 192 })] } }
     s.checkKey 0 2 0x00010001 0 64 = none ∧ (s.region (bits 0x00010000 31 16)).live = true ∧ bits 0x00010000 15 0 = 0 ∧
     bits 0x00010002 15 0 ≠ (s.region (bits 0x00010002 31 16)).gen) := by decide

theorem witness_FetchEstimateFollowsTimes :
    ((6400 : Nat) : Int) = (up.set 0).m + 4 * (up.set 0).v ∧ (3 : Nat) < 4 ∧ (1 : Nat) ≠ 0 := by decide

theorem witness_AtomicsStoreLittleEndianWords :
    (let m := { msg0 with op := 4, parts := [(0, le 8 1)] }
     m.op = 0x04 ∧ Tab.get m.parts [] 0 = le 8 1) ∧
    (let m := { msg0 with op := 5, parts := [(0, le 8 1 ++ le 8 2)] }
     m.op = 0x05 ∧ Tab.get m.parts [] 0 = le 8 1 ++ le 8 2) := by decide

theorem witness_LineWritesChangeMaskedBytesOnly : (zeroBytes 64).length = 64 ∧ Memory.wf 0 up.pgm.frames = true ∧ 63 < 64 := by decide

theorem witness_IdentityAndFreeConnectionsRead : 16383 < 16384 ∧ 3 < 4 ∧ up.conn 16383 = none := by decide

/-! ### Results that the spec works out -/

/-- 17's worked example: DMC_TRAIN_STS of a channel that passed at DDR5-6400 with its worst eye on lane 7. -/
def trained : Channel := { Channel.blank with used := true, train := 2, speed := 2, rankPass := 3, lane := 7, dir := 0, eye := 26 }

theorem test_train_status_word : trained.trainWord = 0x3470030A := by decide

/-- The same example's transaction: 0x00A1_0040 read over I2C with no role sends 0A 03 70 34. -/
theorem test_i2c_read_sends_low_byte_first :
    (match exec (.i2cRead [0x00, 0xA1, 0x00, 0x40] 1) (st { up with dmc := { up.dmc with chans := [(1, trained)] } }) with
      | .next t => t.chip.out.getLast? | _ => none) = some (.i2c [0x0A, 0x03, 0x70, 0x34]) := by decide +kernel

/-- 05's worked example: key 0x0012_0003 is rotated to 0x0012_0004; R120 takes 0xFFFF to 1. -/
theorem test_keys : keyOf 0x12 3 = 0x00120003 ∧ keyOf 0x12 (nextGen 3) = 0x00120004 ∧ nextGen 0xFFFF = 1 := by decide

/-- 16's worked example: with EVR_HEAD 1,200,009 the ring's oldest record is 1,134,474. -/
theorem test_recorder_tail : ({ Evr.reset with next := 1200010 } : Evr).tail = 1134474 := by decide

/-- 13's worked example: a hold-up of 2 s fits 18,966,000,000 bytes at 24,000 MB/s, and 13,504 MiB at 18,000 MB/s. -/
def heldUp (rate : Nat) : Chip :=
  let c := (((up.setPar 0xE00000 2000000).setPar 0xE00008 20).setPar 0xE0000C 500)
  { c with ecl := { c.ecl with rate } }

theorem test_budget_fit :
    (heldUp 24000).budgetFit = 18966000000 / 67108864 * 67108864 ∧ (heldUp 18000).budgetFit = 13504 * 1048576 := by
  decide +kernel

/-- 10's worked example: a debt of 13,000 ns entering doubled refresh is caught up by 6 REFab, so 1,300 ns remain. -/
theorem test_refresh_catchup :
    let c := ({ up with dmc := { up.dmc with chans := [(4, { Channel.blank with used := true, debt := [(0, 13000)] })] } }).enterDoubled 4 0
    Tab.get (c.chan 4).debt 0 0 = 1300 ∧ bit (c.chan 4).doubled 0 = true := by decide +kernel

/-- The catalogued check value of CRC-32C, the polynomial that R59 names. -/
theorem test_crc32c : crc32c [0x31, 0x32, 0x33, 0x34, 0x35, 0x36, 0x37, 0x38, 0x39] = 0xE3069283 := by decide +kernel

/-- 03's example header, in the byte order of Table 3-3. The device never sends this packet, so its DEADLINE_VALID flag, bit 5,
is the one thing that `DevPkt.header` leaves out. -/
theorem test_header_bytes :
    { DevPkt.make 0x1A2 2 0x42 0x00120003 0x8000 50 (zeroBytes 8) with psn := 5000 }.header =
      [0x11, 2, 0, 0x03, 0, 0x01, 0xA2, 0xFF, 0, 0, 0x13, 0x88, 0, 0x42, 0, 1, 0, 0x12, 0, 3, 0, 0, 0, 0, 0x80, 0, 0, 8,
       0, 0, 0, 0x32] := by decide

/-- 18's example balls: CH0_DQ_A[0] is A13, CH11_RESET_N AV12, CH5_CK_B_T[0] AW63, HOST_TX_P[0] P14, PCIE_TX_P[63] AG14. -/
theorem test_balls :
    (rowName 1 = ['A'] ∧ ballAt 1 13 = some (.ddr 0 (.dq false 0))) ∧
    (rowName 36 = ['A', 'V'] ∧ ballAt 36 12 = some (.ddr 11 .resetN)) ∧
    (rowName 37 = ['A', 'W'] ∧ ballAt 37 63 = some (.ddr 5 (.ck true 0 false))) ∧
    (rowName 14 = ['P'] ∧ ballAt 14 14 = some (.tx .host 0 false)) ∧
    (rowName 26 = ['A', 'G'] ∧ ballAt 26 14 = some (.tx .pcie 63 false)) := by decide

/-! ### One step of some commands -/

/-- An echo request to a service address is answered with its identifier, sequence number and data (03 Table 3-2). -/
theorem test_echo_answered :
    (match exec (.icmpEcho 1 7 0x00090003 [1, 2, 3]) (st up) with
      | .next t => t.chip.out.getLast? == some (.echoReply 1 (up.ipTag 1 3) 7 0x00090003 [1, 2, 3]) | _ => false) = true := by decide +kernel

/-- A session without the operator role cannot claim the edit window: ROLE_DENIED in GLB_ACCESS_STS (15 R375). -/
theorem test_claim_needs_a_role :
    (match exec (.editClaim .i2c) (st (asI2c up 0)) with
      | .next t => (t.chip.rgn.path, t.chip.rgn.foreign, t.chip.out != (asI2c up 0).out) | _ => (9, 0, false)) = (0, 0, false) := by decide +kernel

/-- With the role the window is granted to the session. -/
theorem test_claim_granted :
    (match exec (.editClaim .i2c) (st (asI2c up 2)) with
      | .next t => t.chip.rgn.path | _ => 9) = 1 := by decide +kernel

/-- The next message of a connection has the expected PSN (03 R69): the frontier moves past it. -/
theorem test_write_moves_the_frontier :
    (match exec (.write (pkt 1 (zeroBytes 64))) (st (withConn up data0)) with
      | .next t => (t.chip.conn 5).map (·.frontier) | _ => none) = some 2 := by decide +kernel

/-- An empty queue: the block idles for one tick (the model's choice, log 1). -/
theorem test_idle_step_passes_a_tick :
    (match step (st up) with | .next t => t.chip.now | _ => 0) = up.now + 10 := by decide +kernel

/-- A register with no address map entry answers status ADDRESS, and nothing of it is stored (17 R414). -/
theorem test_unmapped_write :
    (writeReg .i2c 0x00FFFFFC 5 (st (asI2c up 2))).1 = 2 := by decide +kernel

/-! ### Ill-formed commands are refused -/

def bad (i : Instr) : Bool := !i.wf

theorem test_wf_accepts_packet : Instr.wf (.write (pkt 1 (zeroBytes 64))) = true := by decide

theorem test_wf_packet_fields :
    bad (.write { pkt 1 [] with port := 16 }) ∧ bad (.write { pkt 1 [] with sport := 65536 }) ∧
    bad (.write { pkt 1 [] with cls := 16 }) ∧ bad (.write { pkt 1 [] with hint := 256 }) ∧
    bad (.write { pkt 1 [] with msgId := 65536 }) ∧ bad (.write { pkt 1 [] with index := 256 }) ∧
    bad (.write { pkt 1 [] with count := 256 }) ∧ bad (.write { pkt 1 [] with offset := 2 ^ 48 }) ∧
    bad (.hello (.mgmt { pkt 1 [] with port := 16 })) := by decide

theorem test_wf_payload : bad (.write (pkt 1 (zeroBytes 65536))) := by
  have h : (pkt 1 (zeroBytes 65536)).payload.length = 65536 := List.length_replicate
  simp only [bad, Instr.wf, Packet.wf, h]
  decide

theorem test_wf_sessions_and_connections :
    bad (.editClaim (.mgmt 16384)) ∧ bad (.connEnd .i2c 16384) ∧ bad (.ackTimerExpiry 16384) ∧ bad (.tktMingenWrite .i2c 64 0) ∧
    bad (.refusedCommand .i2c 0 16) ∧ bad (.rgnRotate .i2c 65536) := by decide

theorem test_wf_agents :
    bad (.messageStart 256) ∧ bad (.allocate (.comet 256) 0 0 1) ∧ bad (.allocate .xpt 4 0 1) ∧ bad (.allocate .xpt 0 64 1) ∧
    bad (.free .xpt { head := 131072, gen := 0 }) ∧ bad (.release .xpt { head := 0, gen := 256 }) ∧
    bad (.rehome (.comet 256)) ∧ bad (.rehome (.block 16)) ∧ bad (.regionFence 4 0) ∧ bad (.stealGrant .block 16) := by decide

theorem test_wf_memory_commands :
    bad (.lineOperationAccepted 64 []) ∧ bad (.cacheFillReturn 0 [(80, 1)]) ∧ bad (.cacheFillReturn 0 [(3, 0)]) ∧
    bad (.atomicUnitResult 0 (2 ^ 41) []) ∧
    bad (.clean .i2c { setWay := true, force := false, all := false, bank := 0, set := 4096, way := 0, base := 0, len := 0 }) ∧
    bad (.lockWaysWrite .i2c 16) ∧ bad (.evictionConfirmed (2 ^ 31)) := by decide

theorem test_wf_drives_and_channels :
    bad (.perstDelayExpiry) = false ∧ bad (.linkRetrainTimeout 32) ∧ bad (.nvmeCommandTimeout 0 65536) ∧ bad (.form .i2c 4) ∧
    bad (.rebuild .i2c 0 32 0) ∧ bad (.writeQueueAgeExpiry 12) ∧ bad (.refreshForced 0 16) ∧ bad (.frequencyChange .i2c 4) ∧
    bad (.eyeSweep .i2c { ch := 0, lane := 16, rank := 0 }) := by decide

theorem test_wf_frames :
    bad (.journal frame0 [{ kind := 3, pos := 0, addr := 0, mask := 0, data := zeroBytes 7 }]) ∧
    bad (.journal frame0 [{ kind := 5, pos := 0, addr := 0, mask := 0, data := [] }]) ∧
    bad (.journal { frame0 with link := 4 } []) ∧ bad (.syzLinkChange 4 true) ∧
    (Instr.journal frame0 [{ kind := 3, pos := 0, addr := 0, mask := 0, data := zeroBytes 8 }]).wf := by decide

theorem test_wf_registers_and_power :
    bad (.registerWrite .i2c 2 0) ∧ bad (.latchingRead .i2c (2 ^ 32)) ∧ bad (.railSample [0]) ∧
    bad (.railSample (List.replicate 17 4096)) ∧ bad (.aonResetRelease 4) ∧ bad (.resetStretchExpiry 8) ∧
    bad (.imageReadComplete 2) ∧ bad (.i2cRead (zeroBytes 5) 1) ∧ bad (.ticketKeyLoad .i2c 4) := by decide

/-- The table gives no row a bit, so no word spells a command and the queue stays as it is. -/
theorem test_no_word_spells_a_command :
    decodeTableWord 16 0x1234 = none ∧ ((st up).withFetchWord 16 0x1234).pending = [] := by decide

end Sys2Proof.Tests
end

section
/-!
Line operations at their bank: how a bank takes the one request that waits at it, what it does with the request by its
opcode, and what the result of an atomic unit leads to; with the proof of O22.
-/
namespace Sys2Proof.Machine

/-! ### A bank with no request in its miss queue -/

@[simp] theorem Chip.modMsg_lcc (s : Chip) (c psn : Nat) (f : Msg → Msg) : (s.modMsg c psn f).lcc = s.lcc := by
  unfold Chip.modMsg Chip.modConn; split <;> rfl

theorem Chip.bank_of_lcc {s t : Chip} (h : s.lcc = t.lcc) (b : Nat) : s.bank b = t.bank b := by
  unfold Chip.bank; rw [h]

theorem Chip.serveQueue_of_empty {s : Chip} {b : Nat} (h : (s.bank b).queue = []) : s.serveQueue b = s := by
  unfold Chip.serveQueue Chip.nextMiss; simp only [h]

theorem Chip.inTurn_of_empty {s : Chip} {b : Nat} (h : (s.bank b).queue = []) (line : Nat) : s.inTurn b line = false := by
  simp [Chip.inTurn, h]

/-! ### One request at a bank -/

/-- The bank may accept a request of a message: what 06 R139 and 01 R21 ask for, at a bank whose miss queue is empty. -/
structure Chip.Acceptable (s : Chip) (b : Nat) (r : LineReq) (m : Msg) : Prop where
  served : b < s.nBanks
  held : s.msg r.conn r.psn.toNat = some m
  issues : s.mayIssue r.conn m r.idx = true
  home : s.bankOf (m.line r.idx) = b
  free : s.lineHeld b (m.line r.idx) r.conn r.psn.toNat = false
  empty : (s.bank b).queue = []

/-- The chip as a bank begins to work on a request: its message holds a context, and its page's residency word is asked for
(06 R139, 08 R191). -/
def Chip.readied (s : Chip) (b : Nat) (r : LineReq) (m : Msg) : Chip :=
  (s.modMsg r.conn r.psn.toNat fun x => { x with parked := false }).translate (s.server b / 16) (pageOfLine (m.line r.idx))

/-- The block's pointer moved past the comet of a message whose request the bank has taken (06 R147). -/
def Chip.granted (s : Chip) (r : LineReq) (m : Msg) : Chip :=
  if s.sentOp r.conn r.psn.toNat r.idx then s.movePort (some m) else s

theorem Chip.readied_bank (s : Chip) (b : Nat) (r : LineReq) (m : Msg) (n : Nat) : (s.readied b r m).bank n = s.bank n :=
  Chip.bank_of_lcc ((Chip.translate_lcc _ _ _).trans (Chip.modMsg_lcc _ _ _ _)) n

/-- The only request is the next one, whichever hub port's turn it is. -/
theorem Chip.nextReq_singleton (s : Chip) (rr : Nat) (r : LineReq) : s.nextReq rr [r] = some r := by
  simp [Chip.nextReq]

/-- The only request contends with none. -/
theorem Chip.contends_singleton (s : Chip) (r : LineReq) : s.contends [r] r = false := by
  simp [Chip.contends]

theorem Chip.sent_of_mayIssue {s : Chip} {c i : Nat} {m : Msg} (h : s.mayIssue c m i = true) : m.sent i = false := by
  simp only [Chip.mayIssue, Bool.and_eq_true, Bool.not_eq_true'] at h
  obtain ⟨⟨⟨⟨⟨-, hsent⟩, -⟩, -⟩, -⟩, -⟩ := h
  exact hsent

namespace Chip.Acceptable

variable {s : Chip} {b : Nat} {r : LineReq} {m : Msg}

theorem not_sentOp (h : s.Acceptable b r m) : s.sentOp r.conn r.psn.toNat r.idx = false := by
  simp only [Chip.sentOp, h.held, Chip.sent_of_mayIssue h.issues]

/-- An acceptable request is not put in the miss queue: the bank returns it to its comet where its line is under repair, and
else hands it to its opcode's meaning. -/
theorem acceptOne_eq (h : s.Acceptable b r m) : s.acceptOne b r =
    if (s.readied b r m).underRepair b m r.idx then (s.readied b r m).parkNow r.conn r.psn.toNat
    else (s.readied b r m).takeOp r.conn m b r.idx r.errs r.arr false ((s.readied b r m).arrays b) := by
  have hempty : ((s.readied b r m).bank b).queue = [] := by rw [Chip.readied_bank, h.empty]
  have hturn := Chip.inTurn_of_empty hempty (m.line r.idx)
  unfold Chip.readied at hturn ⊢
  simp [Chip.acceptOne, h.held, h.issues, h.home, h.free, h.empty, hturn]

/-- A bank with one request waiting and an empty miss queue accepts that request, and grants it if it has taken it. -/
theorem lineOpEffect_eq (h : s.Acceptable b r m) : lineOpEffect b [r] s = (s.acceptOne b r).granted r m := by
  have hs : ¬ s.nBanks ≤ b := Nat.not_le.mpr h.served
  simp [lineOpEffect, hs, Chip.serveQueue_of_empty h.empty, Chip.acceptAll, Chip.nextReq_singleton, Chip.contends_singleton,
    h.not_sentOp, h.held, Chip.granted]

end Chip.Acceptable

/-- The command's effect, from what the bank does with the one request. -/
theorem exec_lineOperationAccepted {s : State} {b : Nat} {r : LineReq} {m : Msg} {f : Chip → Chip}
    (h : s.chip.Acceptable b r m) (hf : s.chip.acceptOne b r = f s.chip) :
    exec (.lineOperationAccepted b [r]) s = .next (s.on fun t => (f t).granted r m) :=
  next_on_congr (by rw [h.lineOpEffect_eq, hf])

/-! ### A line operation by its opcode -/

section TakeOp

variable {s : Chip} {c b i : Nat} {m : Msg} {errs : List (Nat × Byte)} {arr : Nat} {front use : Bool}

theorem Chip.takeOp_write (h : m.op = 0x01) : s.takeOp c m b i errs arr front use =
    ((s.arrayError b (m.line i) arr).1.relockLine b (m.line i) (s.arrayError b (m.line i) arr).2).acceptWrite c m b i errs use := by
  simp [Chip.takeOp, h]

theorem Chip.takeOp_read (h : m.op = 0x02) : s.takeOp c m b i errs arr front use =
    let u := (s.arrayError b (m.line i) arr).1.acceptRead c m b i (s.arrayError b (m.line i) arr).2 front use
    if u.sentOp c m.first i then u else u.relockLine b (m.line i) (s.arrayError b (m.line i) arr).2 := by
  simp [Chip.takeOp, h]

theorem Chip.takeOp_atomic (h : m.op = 0x04 ∨ m.op = 0x05) : s.takeOp c m b i errs arr front use =
    ((s.arrayError b (m.line i) arr).1.relockLine b (m.line i) (s.arrayError b (m.line i) arr).2).acceptAtomic c m b use := by
  have hatomic : m.atomic = true := by simpa [Msg.atomic] using h
  have hread : m.op ≠ 0x02 := by omega
  have hwrite : m.op ≠ 0x01 := by omega
  simp [Chip.takeOp, hatomic, hread, hwrite]

end TakeOp

/-! ### The result of an atomic unit -/

/-- A bank can take the result of the atomic unit for a line: it has forwarded the atomic of a message that is still there,
and the bytes of the line can be read (04 R114, 10 R273). -/
structure Chip.AtomicBack (s : Chip) (b line c first : Nat) (use : Bool) (m : Msg) : Prop where
  forwarded : ((s.bank b).atomic.find? fun (a : Nat × Nat × Nat × Bool) => a.1 == line) = some (line, c, first, use)
  held : s.msg c first = some m
  resident : (s.page (pageOfLine line)).resident = true
  unthrottled : s.inThrottle line = false
  running : s.halted line = false
  left : (s.bank b).readLeft line = true

namespace Chip.AtomicBack

variable {s : Chip} {b line c first : Nat} {use : Bool} {m : Msg} {errs : List (Nat × Byte)}

/-- A burst with no error, or with one that was corrected, lets the atomic take effect (11 R279). -/
theorem effect_of_readable (h : s.AtomicBack b line c first use m)
    (hr : ((s.readBack line).readBurst line errs).1 = .good ∨ ((s.readBack line).readBurst line errs).1 = .corrected) :
    atomicResultEffect b line errs s =
      ((((s.readBack line).readBurst line errs).2.atomicTakes c m b use ((s.readBack line).slip line errs)).afterAtomic
        (pageOfLine line)).serveQueue b := by
  unfold atomicResultEffect
  rcases hr with hr | hr <;>
    simp [h.forwarded, h.held, h.resident, h.unthrottled, h.running, h.left, hr]

/-- An uncorrectable burst starts the line's repair, where the bank has room for one, and gives the atomic back to its comet
(11 R282). -/
theorem effect_of_uncorrectable (h : s.AtomicBack b line c first use m)
    (hr : ((s.readBack line).readBurst line errs).1 = .uncorrectable) (hroom : s.repairRoom b line = true) :
    atomicResultEffect b line errs s =
      ((((((((s.readBack line).readBurst line errs).2.modBank b fun k => { k with atomic := k.atomic.filter (·.1 != line) }).modMsg
        c first fun m => { m with busy := 0 }).startRepair b line).parkNow c first).afterAtomic (pageOfLine line)).serveQueue b) := by
  unfold atomicResultEffect
  simp [h.forwarded, h.held, h.resident, h.unthrottled, h.running, h.left, hr, hroom]

end Chip.AtomicBack

/-! ### The statement -/

/-- Settles O22: a bank with one acceptable request and an empty miss queue reduces to `Chip.acceptOne`, whose branches are
told apart by the line's repair and by the opcode; a result by the class of the burst that the unit reads. -/
theorem lineOperationsComplete : Obligations.LineOperationsComplete := by
  unfold Obligations.LineOperationsComplete
  refine ⟨fun s b r m hserved hheld hissues hhome hfree hempty => ?_,
    fun s b line c first use m errs hfwd hheld hres hthr hrun hleft => ?_⟩
  · have h : s.chip.Acceptable b r m := ⟨hserved, hheld, hissues, hhome, hfree, hempty⟩
    refine ⟨fun hrepair => exec_lineOperationAccepted h (h.acceptOne_eq.trans (if_pos hrepair)), fun hrepair => ?_⟩
    have htake := h.acceptOne_eq.trans (if_neg (ne_true_of_eq_false hrepair))
    refine ⟨fun hop => ?write, fun hop => ?read, fun hop => ?atomic⟩
    case write => exact exec_lineOperationAccepted h (htake.trans (Chip.takeOp_write hop))
    case read => exact exec_lineOperationAccepted h (htake.trans (Chip.takeOp_read hop))
    case atomic => exact exec_lineOperationAccepted h (htake.trans (Chip.takeOp_atomic hop))
  · have h : s.chip.AtomicBack b line c first use m := ⟨hfwd, hheld, hres, hthr, hrun, hleft⟩
    exact ⟨fun hr => next_on_congr (h.effect_of_readable hr),
      fun hr hroom => next_on_congr (h.effect_of_uncorrectable hr hroom)⟩

end Sys2Proof.Machine
end

section
/-!
Frames that a host port answers or discards (O1), and packets that reach the connection they name (O3, O7).
-/
namespace Sys2Proof.Machine

/-! ### Commands that leave the state as it is -/

theorem next_on_self {s : State} {f : Chip → Chip} (h : f s.chip = s.chip) :
    (Host.Outcome.next (s.on f) : Host.Outcome State Fault Refusal) = .next s := by
  unfold State.on; rw [h]

/-! ### Frames that a host port answers (03 Table 3-2) -/

section HostPort

variable {s : Chip} {port : Nat}

theorem Chip.answering_of_takes (h : s.hostTakes port = true) (f : Chip → Chip) : s.answering port f = f s := if_pos h

theorem Chip.answering_of_not_takes (h : s.hostTakes port = false) (f : Chip → Chip) :
    s.answering port f = s.discard port 0 := if_neg (Bool.eq_false_iff.mp h)

theorem neighborEffect_own {target : BitVec 128} (h : s.hostTakes port = true) (hown : s.ownV6 target = true) :
    neighborEffect port target s = s.send port (.neighborAdv port (s.ipTag port 3) target true) :=
  (Chip.answering_of_takes h _).trans (if_pos hown)

theorem neighborEffect_foreign {target : BitVec 128} (h : s.hostTakes port = true) (hown : s.ownV6 target = false) :
    neighborEffect port target s = s :=
  (Chip.answering_of_takes h _).trans (if_neg (Bool.eq_false_iff.mp hown))

theorem arpEffect_own {target : BitVec 32} (h : s.hostTakes port = true) (hown : s.ownV4 target = true) :
    arpEffect port target s = s.send port (.arpReply port (s.ipTag port 3) target false) :=
  (Chip.answering_of_takes h _).trans (if_pos hown)

theorem arpEffect_foreign {target : BitVec 32} (h : s.hostTakes port = true) (hown : s.ownV4 target = false) :
    arpEffect port target s = s :=
  (Chip.answering_of_takes h _).trans (if_neg (Bool.eq_false_iff.mp hown))

/-- The echo requests that each port has answered in the second that runs. -/
def Chip.echoesNow (s : Chip) : Tab Nat := if s.hpx.echoSec = s.now / 1000000000 then s.hpx.echoes else []

variable {src : BitVec 128} {head : BitVec 32} {data : List Byte}

theorem echoEffect_answered (h : s.hostTakes port = true) (hlen : data.length ≤ 1024)
    (hn : Tab.get s.echoesNow 0 port < 1000) :
    echoEffect port src head data s =
      ({ s with hpx := { s.hpx with
          echoes := Tab.set s.echoesNow 0 port (Tab.get s.echoesNow 0 port + 1), echoSec := s.now / 1000000000 } } : Chip).send
        port (.echoReply port (s.ipTag port 3) src head data) := by
  unfold Chip.echoesNow at hn ⊢
  simp [echoEffect, Chip.answering_of_takes h, hlen, hn]

theorem echoEffect_limited (h : s.hostTakes port = true) (hn : 1000 ≤ Tab.get s.echoesNow 0 port) :
    echoEffect port src head data s = s := by
  unfold Chip.echoesNow at hn
  simp [echoEffect, Chip.answering_of_takes h, Nat.not_lt.mpr hn]

/-! ### PAUSE and discarded frames -/

theorem pauseEffect_honoured {quanta : Nat} (hstate : s.glb.state ≠ .umbra) (hon : s.hostOn = true)
    (hup : s.portUp port = true) (hen : bit s.hpx.pauseEn port = true) :
    pauseEffect port quanta s =
      ({ s with hpx := { s.hpx with
          paused := Tab.set s.hpx.paused 0 port (s.now + pauseTime (s.hpx.modes.getD (port / 4) 0) quanta) } } : Chip).unpause := by
  simp [pauseEffect, hstate, hon, hup, hen]

theorem pauseEffect_umbra {quanta : Nat} (hstate : s.glb.state = .umbra) : pauseEffect port quanta s = s.discard port 0 := by
  simp [pauseEffect, hstate]

theorem discardedFrameEffect_host {f : Frame} {cause : Nat} (hf : f.host = true) (hon : s.hostOn = true)
    (hup : s.portUp f.port = true) (hc : s.hostDiscard f = some cause) :
    discardedFrameEffect f s = s.discard f.port cause := by
  simp [discardedFrameEffect, hf, hon, hup, hc]

end HostPort

/-- Settles O1: each frame's effect by whether the port takes it, and by whose address it asks for. -/
theorem hostPortCommandsComplete : Obligations.HostPortCommandsComplete := by
  unfold Obligations.HostPortCommandsComplete
  refine ⟨fun s port target h => ⟨fun hown => ?neighbor, fun hown => ?neighborForeign⟩,
    fun s port target h => ⟨fun hown => ?arp, fun hown => ?arpForeign⟩, fun s port h => ?mld,
    fun s port src head data h hlen => ⟨fun hn => ?echo, fun hn => ?echoLimited⟩,
    fun s port quanta hstate hon hup hen => ?pause, fun s f cause hf hon hup hc => ?discarded,
    fun s port len t6 t4 src head data => ⟨fun h => ?notTaken, fun hstate => ?umbra⟩⟩
  case neighbor => exact next_on_congr (neighborEffect_own h hown)
  case neighborForeign => exact next_on_self (neighborEffect_foreign h hown)
  case arp => exact next_on_congr (arpEffect_own h hown)
  case arpForeign => exact next_on_self (arpEffect_foreign h hown)
  case mld => exact next_on_congr (Chip.answering_of_takes h _)
  case echo => exact next_on_congr (echoEffect_answered h hlen hn)
  case echoLimited => exact next_on_self (echoEffect_limited h hn)
  case pause => exact next_on_congr (pauseEffect_honoured hstate hon hup hen)
  case discarded => exact next_on_congr (discardedFrameEffect_host hf hon hup hc)
  case notTaken =>
    have hdiscard (f : Chip → Chip) := Chip.answering_of_not_takes h f
    simp only [List.forall_mem_cons, List.not_mem_nil, false_implies, implies_true, and_true]
    exact ⟨next_on_congr (hdiscard _), next_on_congr (hdiscard _), next_on_congr (hdiscard _), next_on_congr (hdiscard _)⟩
  case umbra => exact next_on_congr (pauseEffect_umbra hstate)

/-! ### Packets that their connection accepts -/

theorem windowPacket_accepts {s : Chip} {op : Nat} {p : Packet} {k : Conn} (h : s.accepts op p k) :
    s.windowPacket op p = (s.hears p k).hostCovers p.connId p.psn.toNat
      (fieldBe p.payload 0 2) (fieldBe p.payload 4 4) (fieldBe p.payload 8 8) := receive_accepts h _

/-- Settles O3: what `receive_accepts` says of a packet that its connection accepts, for the three control packets. -/
theorem controlPacketsComplete : Obligations.ControlPacketsComplete := by
  unfold Obligations.ControlPacketsComplete
  intro s p k
  exact ⟨fun h => next_on_congr (windowPacket_accepts h), fun h => next_on_congr (windowPacket_accepts h),
    fun h => next_on_congr (receive_accepts h _)⟩

theorem next_mgmtArrive {s : State} {op : Nat} {p : Packet} {k : Conn} (h : s.chip.takes 0x20 (withOp op p) k) :
    (Host.Outcome.next (mgmtArrive op p s) : Host.Outcome State Fault Refusal) = .next (mgmtRun 256 p.connId
      (s.on fun c => (c.hears (withOp op p) k).takePacket p.connId 0x20 (withOp op p))) :=
  congrArg (fun t => Host.Outcome.next (mgmtRun 256 p.connId t)) (on_congr (messagePacket_takes h))

/-- Settles O7: the packet that carries a request is placed as any message packet is, then the frontier is run. -/
theorem mgmtPacketsComplete : Obligations.MgmtPacketsComplete := by
  unfold Obligations.MgmtPacketsComplete
  intro s p k
  exact ⟨next_mgmtArrive, next_mgmtArrive, next_mgmtArrive, next_mgmtArrive, next_mgmtArrive, next_mgmtArrive,
    next_mgmtArrive⟩

end Sys2Proof.Machine
end

section
/-!
The management agent: a request's fields, one word read or written, and what each operation answers (O8).
-/
namespace Sys2Proof.Machine

/-! ### The fields of a request (03 Table 3-18) -/

/-- A number written into a record reads back from where it stands. -/
theorem fieldBe_eq {b pre post : List Byte} {off m v : Nat} (hb : b = pre ++ (be m v ++ post)) (h : pre.length = off)
    (hv : v < 256 ^ m) : fieldBe b off m = v := by
  rw [hb, ← List.append_assoc, fieldBe, slice_mid _ _ _ _ _ h (be_length m v), unbe_be, Nat.mod_eq_of_lt hv]

/-- Bytes that spell a request of an operation, with its count, address and data. -/
structure MgmtFields (b : List Byte) (op n a : Nat) (data : List Byte) : Prop where
  op : fieldBe b 0 1 = op
  count : fieldBe b 2 2 = n
  addr : fieldBe b 4 4 = a
  data : b.drop 8 = data

theorem mgmtFields_of_lt {op n a : Nat} (data : List Byte) (hop : op < 256) (hn : n < 65536) (ha : a < 2 ^ 32) :
    MgmtFields (be 1 op ++ [0] ++ be 2 n ++ be 4 a ++ data) op n a data where
  op := fieldBe_eq (pre := []) (post := [0] ++ be 2 n ++ be 4 a ++ data) (by simp) rfl hop
  count := fieldBe_eq (pre := be 1 op ++ [0]) (post := be 4 a ++ data) (by simp) (by simp) hn
  addr := fieldBe_eq (pre := be 1 op ++ [0] ++ be 2 n) (post := data) (by simp) (by simp) ha
  data := List.drop_left' (by simp)

theorem wordBytes_length (w : Word) : (wordBytes w).length = 4 := le_length 4 _

theorem bytesWords_wordBytes (w : Word) : bytesWords 1 (wordBytes w) = [w] := by
  have hw : unle (wordBytes w) = w.toNat := (unle_le 4 _).trans (Nat.mod_eq_of_lt w.isLt)
  have htake : (wordBytes w).take 4 = wordBytes w := List.take_of_length_le (Nat.le_of_eq (wordBytes_length w))
  simp only [bytesWords, htake, hw, BitVec.ofNat_toNat, BitVec.setWidth_eq]

/-! ### One word read or written (03 R89, R90) -/

theorem mgmtReadWords_one {q : Session} {a : Nat} {s : State} {w : Word} {t : Chip}
    (h : s.chip.readReg s.otp q a = (some w, t)) :
    mgmtReadWords q 1 a [] s = { status := 0, count := 1, data := wordBytes w, st := { s with chip := t } } := by
  simp [mgmtReadWords, h, wordBytes_length]

theorem acceptWrite_status (q : Session) (a v : Nat) (s : State) :
    (acceptWrite q a v s).1 = 0 ∨ (acceptWrite q a v s).1 = 5 := by
  unfold acceptWrite
  dsimp only
  split <;> dsimp only <;> split <;> simp

/-- A write is accepted, refused for its role or its address, or clamped (03 Table 3-21). -/
theorem writeReg_status (q : Session) (a v : Nat) (s : State) :
    (writeReg q a v s).1 = 0 ∨ (writeReg q a v s).1 = 1 ∨ (writeReg q a v s).1 = 2 ∨ (writeReg q a v s).1 = 5 := by
  unfold writeReg
  split
  · simp
  · split
    · simp
    · split
      · simp
      · exact (acceptWrite_status q a v s).imp_right fun h => .inr (.inr h)

theorem mgmtWriteWords_one (q : Session) (w : Word) (a : Nat) (s : State) :
    (mgmtWriteWords q [w] a 0 0 s).status = (writeReg q a w.toNat s).1 ∧
    (mgmtWriteWords q [w] a 0 0 s).st = (writeReg q a w.toNat s).2 := by
  rcases writeReg_status q a w.toNat s with h | h | h | h <;> simp [mgmtWriteWords, h]

/-! ### A request by its operation -/

theorem mgmtCountOk_out_of_range {n : Nat} (op : Nat) (h : n = 0 ∨ 256 < n) : mgmtCountOk op n = false := by
  rcases h with rfl | h
  · simp [mgmtCountOk]
  · simp [mgmtCountOk, Nat.not_le.mpr h]

namespace MgmtFields

variable {b : List Byte} {op n a : Nat} {data : List Byte} (c : Nat) (s : State)

theorem execute_badCount (h : MgmtFields b op n a data) (hbad : mgmtCountOk op n = false) :
    mgmtExecute c b s = .plain 4 0 s := by
  simp [mgmtExecute, h.op, h.count, hbad]

theorem execute_unaligned (h : MgmtFields b op n a data) (hcount : mgmtCountOk op n = true)
    (hlen : data.length = mgmtLen op n) (ha : a % 4 ≠ 0) : mgmtExecute c b s = .plain 3 0 s := by
  simp only [mgmtExecute, h.op, h.count, h.addr, h.data, hcount, hlen]
  simp [ha]

theorem execute_read (h : MgmtFields b 0x01 n a []) (hcount : mgmtCountOk 0x01 n = true) (ha : a % 4 = 0) :
    mgmtExecute c b s = mgmtReadWords (.mgmt c) n a [] s := by
  simp only [mgmtExecute, h.op, h.count, h.addr, h.data, hcount]
  simp [ha, mgmtLen]

theorem execute_write (h : MgmtFields b 0x02 n a data) (hcount : mgmtCountOk 0x02 n = true)
    (hlen : data.length = 4 * n) (ha : a % 4 = 0) :
    mgmtExecute c b s = mgmtWriteWords (.mgmt c) (bytesWords n data) a 0 0 s := by
  simp only [mgmtExecute, h.op, h.count, h.addr, h.data, hcount, hlen]
  simp [ha, mgmtLen]

theorem execute_subscribe (h : MgmtFields b 0x04 1 0 data) (hlen : data.length = 4) :
    mgmtExecute c b s =
      .plain 0 1 (s.on fun t => t.modConn c fun k => { k with codes := leField data 0 1, sev := leField data 1 1 % 16 }) := by
  simp only [mgmtExecute, h.op, h.count, h.addr, h.data, hlen]
  simp [mgmtCountOk, mgmtLen]

theorem execute_unsubscribe (h : MgmtFields b 0x05 n 0 []) (hcount : mgmtCountOk 0x05 n = true) :
    mgmtExecute c b s = .plain 0 n (s.on fun t => t.modConn c fun k => { k with codes := 0, sev := 0 }) := by
  simp only [mgmtExecute, h.op, h.count, h.addr, h.data, hcount]
  simp [mgmtLen]

end MgmtFields

/-- Settles O8: the request's fields read back from its bytes, then one case for each check and operation. -/
theorem mgmtRequestsAnswered : Obligations.MgmtRequestsAnswered := by
  unfold Obligations.MgmtRequestsAnswered
  intro s c op n a data hop hn ha b
  have hb : MgmtFields b op n a data := mgmtFields_of_lt data hop hn ha
  refine ⟨fun hrange => ?count, fun hcount hlen hal => ?aligned, ?read, ?write, ?subscribe, ?unsubscribe⟩
  case count => simp [hb.execute_badCount c s (mgmtCountOk_out_of_range op hrange), Answer.plain]
  case aligned => simp [hb.execute_unaligned c s hcount hlen hal, Answer.plain]
  case read =>
    rintro rfl rfl rfl hal w t hread
    simp [hb.execute_read c s rfl hal, mgmtReadWords_one hread]
  case write =>
    rintro rfl rfl v rfl hal
    rw [hb.execute_write c s rfl (wordBytes_length v) hal, bytesWords_wordBytes]
    exact mgmtWriteWords_one _ _ _ _
  case subscribe =>
    rintro rfl rfl x y rfl rfl
    simp [hb.execute_subscribe c s rfl, Answer.plain, leField, slice, unle]
  case unsubscribe =>
    rintro rfl h1 h256 rfl rfl
    have hcount : mgmtCountOk 0x05 n = true := by simp [mgmtCountOk, h1, h256]
    simp [hb.execute_unsubscribe c s hcount, Answer.plain]

end Sys2Proof.Machine
end

section
/-!
What leaves on a host port, at once or after a PAUSE, and a CONNECT that is admitted (O4).
-/
namespace Sys2Proof.Machine

/-! ### What leaves on a port (03 Table 3-2) -/

section Sending

variable {s : Chip} {port : Nat}

theorem Chip.send_running (h : Tab.get s.hpx.paused 0 port ≤ s.now) (o : Out) : s.send port o = s.emit o :=
  if_neg (Nat.not_lt.mpr h)

theorem Chip.send_paused (h : s.now < Tab.get s.hpx.paused 0 port) (o : Out) :
    s.send port o = { s with hpx := { s.hpx with held := s.hpx.held ++ [(port, o)] } } := if_pos h

@[simp] theorem Chip.send_xpt (s : Chip) (port : Nat) (o : Out) : (s.send port o).xpt = s.xpt := by
  unfold Chip.send; split <;> rfl

@[simp] theorem Chip.solicit_xpt (s : Chip) (port : Nat) (a : BitVec 128) : (s.solicit port a).xpt = s.xpt := by
  unfold Chip.solicit
  split
  · rfl
  · exact Chip.send_xpt _ _ _

@[simp] theorem Chip.sendPacket_xpt (s : Chip) (port : Nat) (dst : BitVec 128) (dport : Nat) (p : DevPkt) :
    (s.sendPacket port dst dport p).xpt = s.xpt := (Chip.send_xpt _ _ _).trans (Chip.solicit_xpt _ _ _)

/-- The next hop has been heard on the port within `reachableTime`, so it is not solicited. -/
def Chip.knows (s : Chip) (port : Nat) (a : BitVec 128) : Bool :=
  s.hpx.neigh.any fun n => n.port == port && n.addr == a && s.now ≤ n.seen + reachableTime

/-- What sending to a next hop puts on the port: the solicitation of one that is not known, and then what is sent. -/
def Chip.outgoing (s : Chip) (port : Nat) (next : BitVec 128) (o : Out) : List Out :=
  (if s.knows port next then [] else [.neighborSol port (s.ipTag port 3) next]) ++ [o]

theorem Chip.solicit_known {a : BitVec 128} (h : s.knows port a = true) : s.solicit port a = s := if_pos h

theorem Chip.solicit_unknown {a : BitVec 128} (h : s.knows port a = false) :
    s.solicit port a = (s.send port (.neighborSol port (s.ipTag port 3) a)).reachable port a := if_neg (Bool.eq_false_iff.mp h)

/-- On a port where no PAUSE is in force everything is sent at once. -/
theorem Chip.send_solicit_running (h : Tab.get s.hpx.paused 0 port ≤ s.now) (a : BitVec 128) (o : Out) :
    ((s.solicit port a).send port o).out = (s.outgoing port a o).reverse ++ s.out ∧
    ((s.solicit port a).send port o).hpx.held = s.hpx.held := by
  cases hk : s.knows port a with
  | true => simp [Chip.solicit_known hk, Chip.outgoing, hk, Chip.send_running h, Chip.emit]
  | false =>
    have hr : Tab.get (((s.emit (.neighborSol port (s.ipTag port 3) a)).reachable port a).hpx.paused) 0 port ≤
        ((s.emit (.neighborSol port (s.ipTag port 3) a)).reachable port a).now := h
    rw [Chip.solicit_unknown hk, Chip.send_running h, Chip.send_running hr]
    simp [Chip.outgoing, hk, Chip.emit, Chip.reachable]

/-- On a port where a PAUSE is in force everything waits for its end, in its order. -/
theorem Chip.send_solicit_paused (h : s.now < Tab.get s.hpx.paused 0 port) (a : BitVec 128) (o : Out) :
    ((s.solicit port a).send port o).out = s.out ∧
    ((s.solicit port a).send port o).hpx.held = s.hpx.held ++ (s.outgoing port a o).map fun o => (port, o) := by
  cases hk : s.knows port a with
  | true => simp [Chip.solicit_known hk, Chip.outgoing, hk, Chip.send_paused h]
  | false =>
    have hp (sol : Out) : ((s.send port sol).reachable port a).now <
        Tab.get (((s.send port sol).reachable port a).hpx.paused) 0 port := by rw [Chip.send_paused h]; exact h
    rw [Chip.solicit_unknown hk, Chip.send_paused (hp _), Chip.send_paused h]
    simp [Chip.outgoing, hk, Chip.reachable]

end Sending

/-! ### A CONNECT that is admitted (03 R74, R77) -/

/-- The port on which a CONNECT is answered: the one it names where that port is up, else the one it came on. -/
def Chip.answerPort (s : Chip) (p : Packet) : Nat := if p.hint < 16 ∧ s.portUp p.hint = true then p.hint else p.port

/-- The CONNECT_RESP to a CONNECT. -/
def Chip.connectAnswer (s : Chip) (p : Packet) (conn psn : Nat) (payload : List Byte) : DevPkt :=
  { DevPkt.make conn 0x11 p.msgId p.key.toNat p.offset 0 payload with cls := p.cls, psn, port := s.answerPort p }

theorem Chip.sendConnectResp_eq (s : Chip) (p : Packet) (conn psn : Nat) (payload : List Byte) :
    s.sendConnectResp p conn psn payload =
      let q := s.connectAnswer p conn psn payload
      let head := s.ipHead (s.answerPort p) 0 p.src p.sport q.bytes
      (s.solicit (s.answerPort p) head.next).send (s.answerPort p) (.packet (s.answerPort p) head q q.bytes) := by
  have hport : (if p.hint < 16 && s.portUp p.hint then p.hint else p.port) = s.answerPort p := by
    simp [Chip.answerPort]
  unfold Chip.sendConnectResp
  rw [hport]
  rfl

theorem Chip.active_of_connectStatus {s : Chip} {p : Packet} (h : s.connectStatus p = 0) : s.glb.state = .active := by
  refine Decidable.byContradiction fun hne => ?_
  have hrefused : s.connectStatus p = 1 := if_pos (bne_iff_ne.mpr hne)
  exact absurd (hrefused.symm.trans h) (by decide)

/-- The connection is admitted under the free ID with a drawn PSN, and a response whose first byte is status 0 is sent. -/
theorem connectEffect_admits {s : Chip} {p : Packet} {c : Nat} (htakes : s.hostTakes p.port = true)
    (hstatus : s.connectStatus p = 0)
    (hnew : (s.xpt.conns.find? fun e => e.2.st == .opening && e.2.host == p.src && e.2.sport == p.sport &&
      e.2.nonce == slice p.payload 128 8) = none)
    (hid : s.freeId = some c) :
    ∃ psn resp ka, connectEffect p s = (s.draw.2.setConn c (s.admitted p psn resp ka)).sendConnectResp p c psn resp ∧
      resp.take 1 = [0] := by
  have hactive := Chip.active_of_connectStatus hstatus
  simp only [connectEffect, htakes, hactive, hstatus, hnew, hid,
    show (DevState.active == DevState.maintenance) = false from rfl, Bool.not_true, Bool.false_and, Bool.false_or,
    Bool.false_eq_true, beq_self_eq_true, if_false, if_true]
  exact ⟨_, _, _, rfl, rfl⟩

/-- Settles O4: the connection that `connectEffect_admits` names, and its response sent on a port with or without PAUSE. -/
theorem connectAdmits : Obligations.ConnectAdmits := by
  unfold Obligations.ConnectAdmits
  intro s p c htakes hcls hstatus hnew hid
  obtain ⟨psn, resp, ka, heffect, hresp⟩ := connectEffect_admits htakes hstatus hnew hid
  have hadmitted (d : Nat) : (connectEffect p s.chip).conn d =
      (s.chip.draw.2.setConn c (s.chip.admitted p psn resp ka)).conn d := by
    rw [heffect, Chip.sendConnectResp_eq]
    simp [Chip.conn]
  have hquiet : (connectEffect p s.chip).quiet = s.chip.draw.2.quiet := by
    rw [heffect]
    exact (Chip.sendPacket_quiet _ _ _ _ _).trans (Chip.setConn_quiet _ _ _)
  refine ⟨s.chip.admitted p psn resp ka, s.on (connectEffect p), rfl, (hadmitted c).trans (conn_setConn_same _ _ _), rfl, ?_,
    rfl, rfl, rfl, rfl, rfl, hresp, ⟨s.chip.connectAnswer p c psn resp, rfl, rfl, rfl, rfl, hcls, rfl, rfl, rfl, rfl, ?_, ?_⟩,
    fun d hd => (hadmitted d).trans (conn_setConn_other _ _ _ _ hd), (Chip.pgm_of_quiet hquiet).trans rfl,
    (Chip.rgn_of_quiet hquiet).trans rfl, (Chip.glb_of_quiet hquiet).trans rfl, (Chip.regs_of_quiet hquiet).trans rfl, rfl⟩
  · simp [Chip.admitted, hcls]
  · intro hpaused
    rw [State.on_chip, heffect, Chip.sendConnectResp_eq]
    exact Chip.send_solicit_paused (s := s.chip.draw.2.setConn c _) hpaused _ _
  · intro hrunning
    rw [State.on_chip, heffect, Chip.sendConnectResp_eq]
    exact Chip.send_solicit_running (s := s.chip.draw.2.setConn c _) hrunning _ _

end Sys2Proof.Machine
end

section
/-!
The ends of a connection and its timers: a connection that the device has ended sends nothing again (O6), and what the
timers and the installer's commands do (O5).
-/
namespace Sys2Proof

/-! ### A row removed from a table -/

theorem Tab.find_del_same {α : Type} (k : Nat) (t : Tab α) : Tab.find (Tab.del t k) k = none := by
  induction t with
  | nil => rfl
  | cons e r ih =>
    obtain ⟨j, a⟩ := e
    unfold Tab.del
    split
    next => exact ih
    next h => simpa [Tab.find, h] using ih

theorem Tab.del_ins {α : Type} (k : Nat) (v : α) (t : Tab α) : Tab.del (Tab.ins t k v) k = Tab.del t k := by
  induction t with
  | nil => simp [Tab.ins, Tab.del]
  | cons e r ih =>
    obtain ⟨j, a⟩ := e
    unfold Tab.ins
    split
    · simp [Tab.del]
    · split
      next h => simp [Tab.del, h]
      next h => simp [Tab.del, h, ih]

theorem Tab.ins_ins {α : Type} (k : Nat) (v w : α) (t : Tab α) : Tab.ins (Tab.ins t k v) k w = Tab.ins t k w := by
  induction t with
  | nil => simp [Tab.ins]
  | cons e r ih =>
    obtain ⟨j, a⟩ := e
    by_cases hlt : k < j
    · simp [Tab.ins, hlt]
    · by_cases heq : j = k
      · simp [Tab.ins, heq]
      · simp [Tab.ins, hlt, heq, ih]

end Sys2Proof

namespace Sys2Proof.Machine

/-! ### Sending leaves the other connections as they are -/

@[simp] theorem Chip.alloc_xpt (s : Chip) (ag : Agent) (pool : Nat) (g c : Option Nat) (n : Nat) :
    (s.alloc ag pool g c n).2.xpt = s.xpt := by
  unfold Chip.alloc
  split
  · split <;> rfl
  · rfl

theorem Chip.conn_of_xpt {s t : Chip} (h : t.xpt = s.xpt) (c : Nat) : t.conn c = s.conn c := by
  unfold Chip.conn; rw [h]

/-- A fold of steps that each keep a connection keeps it. -/
theorem Chip.foldl_conn {α : Type} {c : Nat} {f : Chip → α → Chip} (hf : ∀ t a, (f t a).conn c = t.conn c) :
    ∀ (l : List α) (s : Chip), (l.foldl f s).conn c = s.conn c
  | [], _ => rfl
  | a :: r, s => (Chip.foldl_conn hf r (f s a)).trans (hf s a)

section Other

variable {c d : Nat} (hd : c ≠ d)
include hd

theorem Chip.wire_conn_other (s : Chip) (k : Conn) (p : DevPkt) (v : Option Nat) : (s.wire d k p v).conn c = s.conn c := by
  unfold Chip.wire
  split
  · exact (Chip.conn_of_xpt (Chip.sendPacket_xpt _ _ _ _ _) c).trans (conn_setConn_other _ _ _ _ hd)
  · exact conn_setConn_other _ _ _ _ hd

theorem Chip.catchUp_conn_other (s : Chip) : (s.catchUp d).conn c = s.conn c := by
  unfold Chip.catchUp
  split
  · rfl
  · split
    · rfl
    · refine (Chip.foldl_conn (fun t p => ?_) _ _).trans (conn_setConn_other _ _ _ _ hd)
      split
      · exact Chip.wire_conn_other hd _ _ _ _
      · rfl

theorem Chip.pumpOne_conn_other (s : Chip) : (s.pumpOne d).conn c = s.conn c := by
  unfold Chip.pumpOne
  split
  · rfl
  · split
    · rfl
    · split
      · rfl
      · exact (Chip.catchUp_conn_other hd _).trans (Chip.wire_conn_other hd _ _ _ _)

theorem Chip.pump_conn_other : ∀ (n : Nat) (s : Chip), (Chip.pump n s d).conn c = s.conn c
  | 0, _ => rfl
  | n + 1, s => (Chip.pump_conn_other n (s.pumpOne d)).trans (Chip.pumpOne_conn_other hd s)

theorem Chip.pumpAll_conn_other (s : Chip) : (s.pumpAll d).conn c = s.conn c := by
  unfold Chip.pumpAll
  split
  · exact Chip.pump_conn_other hd _ _
  · rfl

theorem Chip.queueTx_conn_other (s : Chip) (p : DevPkt) : (s.queueTx d p).conn c = s.conn c := by
  unfold Chip.queueTx
  split
  · rfl
  · split
    · rfl
    · split
      · exact (Chip.pumpAll_conn_other hd _).trans (conn_setConn_other _ _ _ _ hd)
      · split
        next halloc =>
          have hxpt := congrArg (·.2.xpt) halloc
          rw [Chip.pumpAll_conn_other hd, conn_setConn_other _ _ _ _ hd]
          exact Chip.conn_of_xpt (hxpt.symm.trans (Chip.alloc_xpt _ _ _ _ _ _)) c
        next => exact conn_setConn_other _ _ _ _ hd

theorem Chip.buildOwed_conn_other (s : Chip) (n : Nat) : (s.buildOwed (d, n)).2.conn c = s.conn c := by
  unfold Chip.buildOwed
  split
  · rfl
  · split
    · rfl
    · split
      next halloc =>
        have hxpt := congrArg (·.2.xpt) halloc
        dsimp only
        rw [Chip.pumpAll_conn_other hd, conn_setConn_other _ _ _ _ hd]
        exact Chip.conn_of_xpt (hxpt.symm.trans (Chip.alloc_xpt _ _ _ _ _ _)) c
      next => rfl

end Other

/-! ### A connection that the device has ended -/

/-- The device sends nothing on the connection again: it is ABORTING with the reason, and holds no packet and no FLUSH. -/
structure Conn.Silent (k : Conn) (reason : Nat) : Prop where
  st : k.st = .aborting
  held : k.held = []
  wait : k.wait = []
  flushes : k.flushes = []
  reason : k.reason = reason

/-- The connection is FREE, or the device sends nothing on it again. -/
def Chip.Silent (s : Chip) (c reason : Nat) : Prop := ∀ k, s.conn c = some k → k.Silent reason

namespace Chip.Silent

variable {s : Chip} {c reason : Nat}

theorem of_conn {t : Chip} (h : s.Silent c reason) (ht : t.conn c = s.conn c) : t.Silent c reason :=
  fun k hk => h k (ht.symm.trans hk)

theorem of_xpt {t : Chip} (h : s.Silent c reason) (ht : t.xpt = s.xpt) : t.Silent c reason :=
  h.of_conn (Chip.conn_of_xpt ht c)

theorem modConn (h : s.Silent c reason) (d : Nat) {f : Conn → Conn} (hf : ∀ k, k.Silent reason → (f k).Silent reason) :
    (s.modConn d f).Silent c reason := by
  unfold Chip.modConn
  split
  next k hk =>
    by_cases hd : c = d
    · subst hd
      intro j hj
      rw [conn_setConn_same] at hj
      cases hj
      exact hf k (h k hk)
    · exact h.of_conn (conn_setConn_other _ _ _ _ hd)
  next => exact h

theorem foldl {α : Type} {f : Chip → α → Chip} (hf : ∀ t a, t.Silent c reason → (f t a).Silent c reason) (l : List α) :
    ∀ {s : Chip}, s.Silent c reason → (l.foldl f s).Silent c reason := by
  induction l with
  | nil => exact id
  | cons a l ih => exact fun h => ih (hf _ a h)

/-- No packet is queued on an ABORTING connection. -/
theorem queueTx (h : s.Silent c reason) (d : Nat) (p : DevPkt) : (s.queueTx d p).Silent c reason := by
  by_cases hd : c = d
  · subst hd
    unfold Chip.queueTx
    split
    next => exact h
    next k hk =>
      rw [if_pos (by simp [(h k hk).st])]
      exact h
  · exact h.of_conn (Chip.queueTx_conn_other hd s p)

theorem buildOwed (h : s.Silent c reason) (e : Nat × Nat) : (s.buildOwed e).2.Silent c reason := by
  obtain ⟨d, n⟩ := e
  by_cases hd : c = d
  · subst hd
    unfold Chip.buildOwed
    split
    next => exact h
    next k hk =>
      simp only [(h k hk).wait, List.find?_nil]
      exact h
  · exact h.of_conn (Chip.buildOwed_conn_other hd s n)

theorem buildInOrder : ∀ (l : List (Nat × Nat)) {s : Chip}, s.Silent c reason → (Chip.buildInOrder l s).2.Silent c reason
  | [], _, h => h
  | e :: r, s, h => by
    unfold Chip.buildInOrder
    dsimp only
    split
    · exact buildInOrder r (h.buildOwed e)
    · exact h

theorem pumpOwed (h : s.Silent c reason) : s.pumpOwed.Silent c reason := (buildInOrder s.bpm.owed h).of_xpt rfl

/-! ### Events -/

theorem clampSeq (h : s.Silent c reason) (i q : Option Nat) : (s.clampSeq i q).Silent c reason := by
  refine h.of_xpt ?_
  unfold Chip.clampSeq
  split
  · rfl
  · split <;> rfl

theorem notifyEvent (h : s.Silent c reason) (e : Event) (q : Nat) : (s.notifyEvent e q).Silent c reason := by
  unfold Chip.notifyEvent
  split
  · exact h
  · refine foldl (fun t x ht => ?_) _ h
    split
    · split
      · exact (ht.queueTx _ _).modConn _ fun k hk => ⟨hk.st, hk.held, hk.wait, hk.flushes, hk.reason⟩
      · exact ht.of_xpt rfl
    · exact ht

theorem writeRecord (h : s.Silent c reason) (e : Event) : (s.writeRecord e).Silent c reason := by
  have hmark {t : Chip} (ht : t.Silent c reason) : t.markDue.Silent c reason :=
    ht.of_xpt (by unfold Chip.markDue; split <;> rfl)
  have halert {t : Chip} (ht : t.Silent c reason) (q : Nat) : (t.alertFor e q).Silent c reason :=
    ht.of_xpt (by unfold Chip.alertFor; split <;> rfl)
  unfold Chip.writeRecord
  refine hmark (notifyEvent (halert (clampSeq ?_ _ _) _) e _)
  exact h.of_xpt rfl

theorem record (h : s.Silent c reason) (e : Event) : (s.record e).Silent c reason := by
  have hflood : (s.flooded e).2.Silent c reason := by
    refine h.of_xpt ?_
    unfold Chip.flooded
    split
    · rfl
    · dsimp only
      split <;> rfl
  unfold Chip.record
  dsimp only
  split
  · exact hflood.clampSeq _ _
  · exact hflood.writeRecord e

theorem drainEvents : ∀ (n : Nat) {s : Chip}, s.Silent c reason → (Chip.drainEvents n s).Silent c reason
  | 0, _, h => h
  | n + 1, s, h => by
    unfold Chip.drainEvents
    split
    · exact h
    · split
      · refine drainEvents n (record ?_ _)
        exact h.of_xpt rfl
      · exact h

theorem reportDropped (h : s.Silent c reason) : s.reportDropped.Silent c reason := by
  unfold Chip.reportDropped
  split
  · refine record ?_ _
    exact h.of_xpt rfl
  · exact h

theorem raise (h : s.Silent c reason) (src inst code sev flags : Nat) (b : List Byte) :
    (s.raise src inst code sev flags b).Silent c reason := by
  unfold Chip.raise Chip.raiseClamp
  dsimp only
  split
  · refine reportDropped (drainEvents _ ?_)
    exact h.of_xpt rfl
  · refine clampSeq ?_ _ _
    exact h.of_xpt rfl

theorem drainEdit (h : s.Silent c reason) : s.drainEdit.Silent c reason := by
  unfold Chip.drainEdit
  split
  · dsimp only
    split
    · refine raise ?_ _ _ _ _ _ _
      exact h.of_xpt rfl
    · exact h.of_xpt rfl
  · exact h

end Chip.Silent

/-! ### A connection freed -/

/-- What `Chip.freeConn` leaves of a chip whose connection holds no message and no packet, before packets that wait for
cells are built and a drain of the edit window is judged. -/
def Chip.released (s : Chip) (c : Nat) : Chip :=
  let held := (Tab.get s.sec.mgmt SesState.blank c).role
  let serial := (Tab.get s.sec.mgmt SesState.blank c).serial
  let s1 := { s with
    xpt := { s.xpt with conns := Tab.del s.xpt.conns c, freed := Tab.ins s.xpt.freed c s.now },
    bpm := { s.bpm with owed := s.bpm.owed.filter (·.1 != c) },
    sec := { s.sec with mgmt := Tab.del s.sec.mgmt c },
    rgn := if s.rgn.path == 2 && s.rgn.conn == c then { s.rgn with path := 0, conn := 0 } else s.rgn,
    cfg := if s.cfg.owner = some (Session.mgmt c) then { s.cfg with owner := none } else s.cfg }
  if held == 0 then s1 else
    s1.raise 0x10 0xFFFF 1 0 0 ([1] ++ le 4 c ++ le 4 serial ++ [BitVec.ofNat 8 held, Config.openCode 3 0])

theorem Chip.freeConn_of_empty {s : Chip} {c : Nat} {k : Conn} (hk : s.conn c = some k) (hmsgs : k.msgs = [])
    (hheld : k.held = []) (hwait : k.wait = []) : s.freeConn c = ((s.released c).pumpOwed).drainEdit := by
  simp only [Chip.freeConn, hk, hmsgs, hheld, hwait]
  rfl

theorem Chip.released_setConn (s : Chip) (c : Nat) (k : Conn) : (s.setConn c k).released c = s.released c := by
  unfold Chip.released Chip.setConn
  dsimp only
  rw [Tab.del_ins]

theorem Chip.Silent.released (s : Chip) (c reason : Nat) : (s.released c).Silent c reason := by
  have hfree {t : Chip} (ht : t.xpt.conns = Tab.del s.xpt.conns c) : t.Silent c reason := by
    intro k hk
    rw [Chip.conn, ht, Tab.find_del_same] at hk
    cases hk
  unfold Chip.released
  dsimp only
  split
  · exact hfree rfl
  · refine Chip.Silent.raise ?_ _ _ _ _ _ _
    exact hfree rfl

theorem Chip.Silent.reap {s : Chip} {c reason : Nat} (h : s.Silent c reason) : (s.reap c).Silent c reason := by
  unfold Chip.reap
  split
  next k hk =>
    split
    next hend =>
      have hmsgs : k.msgs = [] := List.isEmpty_iff.mp (Bool.and_eq_true_iff.mp hend).2
      rw [Chip.freeConn_of_empty hk hmsgs (h k hk).held (h k hk).wait]
      exact ((Chip.Silent.released s c reason).pumpOwed.drainEdit).raise _ _ _ _ _ _
    next => exact h.drainEdit
  next => exact h

theorem Chip.Silent.openGuard {s : Chip} {c reason : Nat} (h : s.Silent c reason) : (s.openGuard c).Silent c reason :=
  have hmsgs (k : Conn) (msgs : List Msg) (hk : k.Silent reason) : ({ k with msgs } : Conn).Silent reason :=
    ⟨hk.st, hk.held, hk.wait, hk.flushes, hk.reason⟩
  (h.modConn _ fun k => hmsgs k _).modConn _ fun k => hmsgs k _

theorem Chip.Silent.endConn {s : Chip} {c reason : Nat} {k : Conn} (hk : s.conn c = some k) (hst : k.st ≠ .aborting) :
    (s.endConn c reason).Silent c reason := by
  have hset (t : Chip) : (t.modConn c fun k =>
      { k with st := .aborting, held := [], wait := [], flushes := [], reason := reason }).Silent c reason := by
    intro j hj
    unfold Chip.modConn at hj
    split at hj
    next =>
      rw [conn_setConn_same] at hj
      cases hj
      exact ⟨rfl, rfl, rfl, rfl, rfl⟩
    next hnone => simp [hnone] at hj
  simp only [Chip.endConn, hk, beq_iff_eq, hst, if_false]
  exact (hset _).openGuard.pumpOwed.reap

/-- Settles O6: `Chip.Silent` holds once the connection is ABORTING, and every later step of `endConn` keeps it. -/
theorem endedConnectionStopsSending : Obligations.EndedConnectionStopsSending := by
  unfold Obligations.EndedConnectionStopsSending
  intro s c reason k hk
  by_cases hst : k.st = .aborting
  · have hend : s.endConn c reason = s := by simp [Chip.endConn, hk, hst]
    exact .inr ⟨k, by rw [hend, hk], hst, fun hne => absurd hst hne⟩
  · have hsilent : (s.endConn c reason).Silent c reason := Chip.Silent.endConn hk hst
    cases hj : (s.endConn c reason).conn c with
    | none => exact .inl rfl
    | some j =>
      obtain ⟨haborting, hheld, hwait, hflushes, hreason⟩ := hsilent j hj
      exact .inr ⟨j, rfl, haborting, fun _ => ⟨hheld, hwait, hflushes, hreason⟩⟩

/-! ### An idle connection that the device ends (03 R78, Table 3-14) -/

@[simp] theorem Chip.send_bpm (s : Chip) (port : Nat) (o : Out) : (s.send port o).bpm = s.bpm := by
  unfold Chip.send; split <;> rfl

@[simp] theorem Chip.solicit_bpm (s : Chip) (port : Nat) (a : BitVec 128) : (s.solicit port a).bpm = s.bpm := by
  unfold Chip.solicit
  split
  · rfl
  · exact Chip.send_bpm _ _ _

theorem Chip.wire_bpm (s : Chip) (c : Nat) (k : Conn) (p : DevPkt) (v : Option Nat) : (s.wire c k p v).bpm = s.bpm := by
  unfold Chip.wire
  split
  · exact (Chip.send_bpm _ _ _).trans (Chip.solicit_bpm _ _ _)
  · rfl

/-- Sending on a connection moves nothing of it but the port that went last. -/
theorem Chip.wire_conn_same (s : Chip) (c : Nat) (k : Conn) (p : DevPkt) (v : Option Nat) :
    ∃ port, (s.wire c k p v).conn c = some { k with rr := port } := by
  unfold Chip.wire
  split
  · exact ⟨_, (Chip.conn_of_xpt (Chip.sendPacket_xpt _ _ _ _ _) c).trans (conn_setConn_same _ _ _)⟩
  · exact ⟨k.rr, conn_setConn_same _ _ _⟩

theorem Chip.setConn_setConn (s : Chip) (c : Nat) (j k : Conn) : (s.setConn c j).setConn c k = s.setConn c k := by
  unfold Chip.setConn
  dsimp only
  rw [Tab.ins_ins]

theorem Chip.modConn_of_conn {s : Chip} {c : Nat} {k : Conn} (hk : s.conn c = some k) (f : Conn → Conn) :
    s.modConn c f = s.setConn c (f k) := by
  simp [Chip.modConn, hk]

theorem Chip.modConn_setConn (s : Chip) (c : Nat) (k : Conn) (f : Conn → Conn) :
    (s.setConn c k).modConn c f = s.setConn c (f k) :=
  (Chip.modConn_of_conn (conn_setConn_same s c k) f).trans (Chip.setConn_setConn s c k (f k))

theorem Chip.pumpOwed_of_none {s : Chip} (h : s.bpm.owed = []) : s.pumpOwed = s := by
  unfold Chip.pumpOwed
  simp only [h, Chip.buildInOrder]
  exact congrArg (fun owed => ({ s with bpm := { s.bpm with owed } } : Chip)) h.symm

theorem Chip.dropPartials_of_none {s : Chip} {c : Nat} {k : Conn} (hk : s.conn c = some k) (h : k.msgs = []) :
    s.dropPartials c = s.setConn c k := by
  have hself : ({ k with msgs := [] } : Conn) = k := congrArg (fun msgs => ({ k with msgs } : Conn)) h.symm
  simp only [Chip.dropPartials, hk, h, List.filter_nil, List.foldl_nil, Chip.modConn_of_conn hk, hself]

/-- A connection with no packet left is the same to `Chip.freeConn` whatever else it holds. -/
theorem Chip.freeConn_setConn {s : Chip} {c : Nat} {j k : Conn} (hj : s.conn c = some j) (hidle : j.idle)
    (hmsgs : k.msgs = []) (hheld : k.held = []) (hwait : k.wait = []) :
    (s.setConn c k).freeConn c = s.freeConn c := by
  obtain ⟨hmsgs', hheld', hwait', -⟩ := hidle
  rw [Chip.freeConn_of_empty (conn_setConn_same s c k) hmsgs hheld hwait, Chip.freeConn_of_empty hj hmsgs' hheld' hwait',
    Chip.released_setConn]

/-- A DISCONNECT does not wait for the connection's first NOTIFY (log 188). -/
theorem Chip.sendDisconnect_eq {s : Chip} {c reason : Nat} {k : Conn} (hk : s.conn c = some k) :
    s.sendDisconnect c reason = s.wire c k (DevPkt.make c 0x12 0 0 0 0 [BitVec.ofNat 8 reason, 0, 0, 0]) none := by
  simp only [Chip.sendDisconnect, Chip.control, hk, bne_self_eq_false, Bool.and_false, Bool.false_eq_true, if_false]
  rfl

/-- The connection in the state in which `Chip.endConn` leaves it for `Chip.reap`. -/
def Conn.ended (k : Conn) (reason : Nat) : Conn :=
  { k with st := .aborting, msgs := [], held := [], wait := [], flushes := [], reason }

/-- Once its DISCONNECT has gone, ending an idle connection only makes it ABORTING and reaps it. -/
theorem Chip.endConn_of_idle {s : Chip} {c reason : Nat} {k : Conn} (hk : s.conn c = some k) (hst : k.st ≠ .aborting)
    (hidle : k.idle) (howed : s.bpm.owed = []) :
    ∃ j : Conn, j.idle ∧ (s.sendDisconnect c reason).conn c = some j ∧
      s.endConn c reason = ((s.sendDisconnect c reason).setConn c (j.ended reason)).reap c := by
  obtain ⟨hmsgs, hheld, hwait, hflushes⟩ := hidle
  obtain ⟨port, hport⟩ := Chip.wire_conn_same s c k (DevPkt.make c 0x12 0 0 0 0 [BitVec.ofNat 8 reason, 0, 0, 0]) none
  rw [← Chip.sendDisconnect_eq hk] at hport
  have howed' (j : Conn) : ((s.sendDisconnect c reason).setConn c j).bpm.owed = [] := by
    rw [Chip.setConn_bpm, Chip.sendDisconnect_eq hk, Chip.wire_bpm, howed]
  refine ⟨{ k with rr := port }, ⟨hmsgs, hheld, hwait, hflushes⟩, hport, ?_⟩
  have hdrop := Chip.dropPartials_of_none hport hmsgs
  simp only [Chip.endConn, hk, beq_iff_eq, hst, if_false, hdrop, hheld, hwait, List.append_nil, List.filterMap_nil,
    Chip.dropChains, List.foldl_nil, Chip.openGuard, Chip.modConn_setConn]
  rw [Chip.pumpOwed_of_none (howed' _)]
  simp [Conn.ended, Conn.retest, hmsgs]

theorem Chip.endConn_idle {s : Chip} {c : Nat} {k : Conn} (reason : Nat) (hk : s.conn c = some k)
    (hst : k.st = .established) (hidle : k.idle) (howed : s.bpm.owed = []) :
    s.endConn c reason = s.endIdle c k reason := by
  obtain ⟨j, hj, hconn, hend⟩ := Chip.endConn_of_idle (reason := reason) hk (by simp [hst]) hidle howed
  have hreap (t : Chip) (hc : t.conn c = some (j.ended reason)) :
      t.reap c = (t.freeConn c).raise 0x02 0xFFFF 1 0 0 (le 4 c ++ [BitVec.ofNat 8 reason]) := by
    simp [Chip.reap, hc, Conn.ended]
  rw [hend, hreap _ (conn_setConn_same _ _ _), Chip.freeConn_setConn hconn hj rfl rfl rfl, Chip.sendDisconnect_eq hk]
  rfl

/-! ### The timers of a connection (03 R70, R71, R75, Table 3-15) -/

section Timers

variable {s : Chip} {c : Nat} {k : Conn}

theorem ackTimerEffect_due (hk : s.conn c = some k) (hdue : k.ackDue = true) : ackTimerEffect c s = s.sendAck c := by
  unfold ackTimerEffect
  simp only [hk, hdue, Bool.true_or, if_true]
  split <;> rfl

theorem retransmitEffect_resends (hk : s.conn c = some k) (hheld : k.held ≠ []) (hexp : k.expiries < 7) :
    retransmitEffect c s =
      (k.held.filter fun d => !(decide (psnSub d.psn (psnAdd k.hostCum 1) < 64) &&
        bit k.hostMap (psnSub d.psn (psnAdd k.hostCum 1)))).foldl
        (fun t d => t.resend c d) (s.setConn c { k with expiries := k.expiries + 1 }) := by
  have hleft : ¬ 8 ≤ k.expiries + 1 := by omega
  simp [retransmitEffect, hk, hheld, hleft]

theorem keepaliveIntervalEffect_live (hk : s.conn c = some k) (hlive : k.live = true)
    (hopen : k.st ≠ .opening ∨ s.noticed = false) :
    keepaliveIntervalEffect c s = s.control c 0x13 0 0 0 0 0 [] := by
  have hsends : (k.live && !(k.st == .opening && s.noticed)) = true := by
    rcases hopen with h | h <;> simp [hlive, h]
  simp only [keepaliveIntervalEffect, hk]
  exact if_pos hsends

theorem Chip.control_sent (hk : s.conn c = some k) (hgreeting : k.greeting = false) (hon : s.hostOn = true) :
    s.control c 0x13 0 0 0 0 0 [] = (s.setConn c { k with rr := s.txPort k none }).sendPacket (s.txPort k none) k.host
      k.sport { DevPkt.make c 0x13 0 0 0 0 [] with cls := if k.mgmt then 2 else 1 } := by
  simp only [Chip.control, hk, hgreeting, Bool.false_and, Bool.false_eq_true, if_false, Chip.wire, hon, if_true]
  rfl

theorem Chip.control_behind (hk : s.conn c = some k) (hgreeting : k.greeting = true) :
    s.control c 0x13 0 0 0 0 0 [] = s.setConn c { k with behind := k.behind ++ [DevPkt.make c 0x13 0 0 0 0 []] } := by
  simp only [Chip.control, hk, hgreeting, Bool.true_and, show (0x13 != 0x12) = true from rfl, if_true]
  rfl

theorem keepaliveIntervalEffect_noticed (hk : s.conn c = some k) (hst : k.st = .opening) (hnoticed : s.noticed = true) :
    keepaliveIntervalEffect c s = s := by
  simp [keepaliveIntervalEffect, hk, hst, hnoticed]

theorem openingTimeoutEffect_opening (hk : s.conn c = some k) (hst : k.st = .opening) :
    openingTimeoutEffect c s = (s.freeConn c).raise 0x02 0xFFFF 1 0 0 (le 4 c ++ [Config.openCode 1 0]) := by
  simp [openingTimeoutEffect, hk, hst]

theorem closingTimeoutEffect_closing (hk : s.conn c = some k) (hst : k.st = .closing) :
    closingTimeoutEffect c s = (s.sendDisconnect c 0).freeConn c := by
  simp [closingTimeoutEffect, hk, hst]

theorem keepaliveTimeoutEffect_established (hk : s.conn c = some k) (hst : k.st = .established) :
    keepaliveTimeoutEffect c s = s.endConn c 1 := by
  simp [keepaliveTimeoutEffect, hk, hst]

end Timers

/-- Settles O5: each timer's effect by the connection's state, and an idle connection's end by `Chip.endConn_idle`. -/
theorem connectionCommandsComplete : Obligations.ConnectionCommandsComplete := by
  unfold Obligations.ConnectionCommandsComplete
  refine ⟨fun s c k hk hdue => ?ack, fun s c k hk hheld hexp => ?retransmit,
    fun s c k hk hlive hopen => ⟨fun hgreeting hon => ?beat, fun hgreeting => ?behind⟩,
    fun s c k hk hst hnoticed => ?noticed, fun s c k hk hst => ?opening, fun s c k hk hst => ?closing,
    fun s c k hk hst hidle howed => ?keepalive, fun s q c k hq hk hst hidle howed => ?connEnd,
    fun s q g v hq hg => ?mingen⟩
  case ack => exact next_on_congr (ackTimerEffect_due hk hdue)
  case retransmit => exact next_on_congr (retransmitEffect_resends hk hheld hexp)
  case beat =>
    exact next_on_congr ((keepaliveIntervalEffect_live hk hlive hopen).trans (Chip.control_sent hk hgreeting hon))
  case behind =>
    exact next_on_congr ((keepaliveIntervalEffect_live hk hlive hopen).trans (Chip.control_behind hk hgreeting))
  case noticed => exact next_on_self (keepaliveIntervalEffect_noticed hk hst hnoticed)
  case opening => exact next_on_congr (openingTimeoutEffect_opening hk hst)
  case closing => exact next_on_congr (closingTimeoutEffect_closing hk hst)
  case keepalive =>
    exact next_on_congr ((keepaliveTimeoutEffect_established hk hst).trans (Chip.endConn_idle 1 hk hst hidle howed))
  case connEnd => exact next_on_congr ((asRole_grants hq).trans (Chip.endConn_idle 5 hk hst hidle howed))
  case mingen => exact next_on_congr ((asRole_grants hq).trans (if_pos hg))

end Sys2Proof.Machine
end

section
/-!
Message execution: packets that their connection takes (O2), and the value that an atomic stores (O58).
-/
namespace Sys2Proof.Machine

/-! ### Packets with their own PSN (04 R92) -/

theorem next_messagePacket {s : State} {op : Nat} {p : Packet} {k : Conn} (h : s.chip.takes op p k) :
    (Host.Outcome.next (s.on (Chip.messagePacket op p)) : Host.Outcome State Fault Refusal) =
      .next (s.on fun c => (c.hears p k).takePacket p.connId op p) := next_on_congr (messagePacket_takes h)

/-- Settles O2: what `messagePacket_takes` says of a packet that its connection takes, for each opcode. -/
theorem messagePacketsComplete : Obligations.MessagePacketsComplete := by
  unfold Obligations.MessagePacketsComplete
  intro s p k
  exact ⟨next_messagePacket, next_messagePacket, next_messagePacket, next_messagePacket, next_messagePacket,
    next_messagePacket⟩

/-! ### The words of an atomic (04 R112, 03 R65) -/

/-- The eight little-endian bytes of a word spell the word. -/
theorem unle_le_word {x : Nat} (h : x < 2 ^ 64) : unle (le 8 x) = x := by
  rw [unle_le]; exact Nat.mod_eq_of_lt h

section Operands

variable {m : Msg} {x y : Nat}

theorem Msg.atomicStores_add (hop : m.op = 0x04) (harg : Tab.get m.parts [] 0 = le 8 x) (hx : x < 2 ^ 64) (old : Nat) :
    m.atomicStores old = some ((old + x) % 2 ^ 64) := by
  have htake : (le 8 x).take 8 = le 8 x := List.take_of_length_le (Nat.le_of_eq (le_length 8 x))
  simp only [Msg.atomicStores, hop, harg, htake, unle_le_word hx, beq_self_eq_true, if_true]

theorem Msg.atomicStores_cas (hop : m.op = 0x05) (harg : Tab.get m.parts [] 0 = le 8 x ++ le 8 y) (hx : x < 2 ^ 64)
    (hy : y < 2 ^ 64) (old : Nat) : m.atomicStores old = if old = x then some y else none := by
  have hcompare : (le 8 x ++ le 8 y).take 8 = le 8 x := List.take_left' (le_length 8 x)
  have hswap : slice (le 8 x ++ le 8 y) 8 8 = le 8 y := slice_end _ _ 8 8 (le_length 8 x) (le_length 8 y)
  simp [Msg.atomicStores, hop, harg, hcompare, hswap, unle_le_word hx, unle_le_word hy]

end Operands

/-- Settles O58: the operands are read back from the message's bytes, for ADD and for CAS. -/
theorem atomicsStoreLittleEndianWords : Obligations.AtomicsStoreLittleEndianWords := by
  unfold Obligations.AtomicsStoreLittleEndianWords
  intro m old x y _ hx hy
  exact ⟨fun hop harg => Msg.atomicStores_add hop harg hx old, fun hop harg => Msg.atomicStores_cas hop harg hx hy old⟩

end Sys2Proof.Machine
end

section
/-!
The fetch estimate of a stripe set: its update by a measured time, what PGM_FETCH_EST reads, and its values at a start (O57).
-/
namespace Sys2Proof

/-- A row of a table whose rows are mapped, where the default row is its own image. -/
theorem Tab.get_map {α : Type} (f : α → α) {d : α} (hd : f d = d) (k : Nat) (t : Tab α) :
    Tab.get (t.map fun e => (e.1, f e.2)) d k = f (Tab.get t d k) := by
  induction t with
  | nil => exact hd.symm
  | cons e r ih =>
    obtain ⟨j, a⟩ := e
    simp only [List.map_cons, Tab.get, ih]
    split <;> rfl

end Sys2Proof

namespace Sys2Proof.Machine

/-! ### A measured time (04 R110) -/

theorem Chip.set_modSet_same (s : Chip) (i : Nat) (f : StripeSet → StripeSet) : (s.modSet i f).set i = f (s.set i) :=
  Tab.get_set_same _ _ _ _

theorem Chip.set_modSet_other (s : Chip) {i j : Nat} (h : j ≠ i) (f : StripeSet → StripeSet) :
    (s.modSet i f).set j = s.set j := Tab.get_set_other _ _ _ _ h _

theorem Chip.fetchTime_set (s : Chip) (i t : Nat) :
    (s.fetchTime i t).set i =
      { s.set i with
        v := (s.set i).v + Int.tdiv ((if (s.set i).m ≤ t then (t : Int) - (s.set i).m else (s.set i).m - t) - (s.set i).v) 4
        m := (s.set i).m + Int.tdiv ((t : Int) - (s.set i).m) 8 } := by
  have hdev : (((t : Int) - (s.set i).m).natAbs : Int) =
      if (s.set i).m ≤ t then (t : Int) - (s.set i).m else (s.set i).m - t := by split <;> omega
  rw [← hdev]
  exact s.set_modSet_same i _

/-! ### The estimate and its register (04 R110, 17 Table 17-3) -/

theorem StripeSet.reduced_iff (t : StripeSet) : t.reduced = true ↔ t.rbState = 1 ∨ t.presentPos.length < t.cfg.n := by
  simp [StripeSet.reduced, or_comm]

theorem Chip.fetchEst_eq {s : Chip} {i e : Nat} (h : (e : Int) = (s.set i).m + 4 * (s.set i).v) :
    s.fetchEst i = if (s.set i).reduced then (2 * e + 63) / 64 else (e + 63) / 64 := by
  have he : ((s.set i).m + 4 * (s.set i).v).toNat = e := by omega
  simp only [Chip.fetchEst, Chip.fetchEst64, he, ceilDiv]
  split <;> rfl

theorem Chip.readPgm_fetchEst (s : Chip) {i : Nat} (h : i < 4) : s.readPgm (0x700200 + 4 * i) = some (s.fetchEst i) := by
  have harray : inArray (0x700200 + 4 * i) 0x700200 4 4 = true := by
    simp only [inArray, Bool.and_eq_true, decide_eq_true_eq, beq_iff_eq]
    omega
  have hindex : (0x700200 + 4 * i) % 16 / 4 = i := by omega
  simp only [Chip.readPgm, harray, if_true, hindex]

/-- A register of a block's plain reads that is neither half of a latched value reads what its block says. -/
theorem Chip.regValue_of_readBlock {s : Chip} {otp : Otp} {q : Session} {a v : Nat} (ha : a % 4 = 0)
    (hlow : latchAddrs.contains a = false) (hhigh : latchAddrs.contains (a - 4) = false)
    (h : s.readBlock otp q a = some v) : s.regValue otp q a = some v := by
  simp only [Chip.regValue, latchOf, ha, hlow, hhigh, h, bne_self_eq_false, Bool.false_and, Bool.false_eq_true, if_false]

theorem Chip.regValue_fetchEst (s : Chip) (otp : Otp) (q : Session) {i : Nat} (h : i < 4) :
    s.regValue otp q (0x700200 + 4 * i) = some (s.fetchEst i) := by
  have hblock : (0x700200 + 4 * i) / 0x100000 = 0x07 := by omega
  have hunlatched (a : Nat) (hlo : 0x6E0018 < a) (hhi : a < 0xC00014) : latchAddrs.contains a = false := by
    simp only [latchAddrs, List.contains_eq_mem, decide_eq_false_iff_not, List.mem_cons, List.not_mem_nil, or_false]
    omega
  refine Chip.regValue_of_readBlock (by omega) (hunlatched _ (by omega) (by omega)) (hunlatched _ (by omega) (by omega)) ?_
  simp only [Chip.readBlock, hblock]
  exact s.readPgm_fetchEst h

/-! ### The stripe sets at a start (14 R352) -/

theorem Chip.enter_str (s : Chip) (d : DevState) : (s.enter d).str = s.str := by
  unfold Chip.enter
  split
  · rfl
  · exact Chip.raise_str ..

theorem Chip.sessionEvent_quiet (s : Chip) (path conn serial role : Nat) (outcome : Byte) :
    (s.sessionEvent path conn serial role outcome).quiet = s.quiet := s.raise_quiet ..

theorem Chip.syzWire_str (s : Chip) (f : SyzFrame) (prev : Option Nat) : (s.syzWire f prev).2.str = s.str := by
  unfold Chip.syzWire
  split
  · split <;> rfl
  · rfl

theorem Chip.syzReliable_str (s : Chip) (f : SyzFrame) : (s.syzReliable f).str = s.str :=
  Chip.syzWire_str _ _ none

theorem Chip.syzSend_str {s t : Chip} {f : SyzFrame} (h : s.syzSend f = some t) : t.str = s.str := by
  unfold Chip.syzSend at h
  dsimp only at h
  split at h
  · split at h
    · obtain rfl := Option.some.inj h
      exact (Chip.syzReliable_str _ _).trans (Chip.str_of_quiet (s.alloc_quiet ..))
    · contradiction
  · obtain rfl := Option.some.inj h
    exact s.syzReliable_str f

theorem Chip.syzSmall_str (s : Chip) (op : Nat) (body : List Nat) : (s.syzSmall op body).str = s.str := by
  unfold Chip.syzSmall
  dsimp only
  split
  · split
    · exact Chip.syzSend_str ‹_›
    · rfl
  · rfl

theorem Chip.sendStart_str (s : Chip) : s.sendStart.str = s.str := s.syzSmall_str ..

theorem Chip.beginStart_str (s : Chip) (warm : Bool) : (s.beginStart warm).str = s.str.restart warm := by
  unfold Chip.beginStart
  simp only [apply_ite Chip.str, Chip.sendStart_str, ite_self]
  exact (Chip.str_of_quiet (foldl_quiet _ (fun t _ => t.sessionEvent_quiet ..) _ _)).trans (Chip.enter_str _ _)

theorem Str.restart_sets (p : Str) (warm : Bool) : (p.restart warm).sets = p.sets.map fun e => (e.1, e.2.restart warm) := by
  cases warm <;> rfl

theorem StripeSet.blank_restart (warm : Bool) : StripeSet.blank.restart warm = StripeSet.blank := by
  cases warm <;> rfl

/-- A start makes each stripe set what `StripeSet.restart` leaves of it, one that is not listed included. -/
theorem Chip.beginStart_set (s : Chip) (warm : Bool) (i : Nat) : (s.beginStart warm).set i = (s.set i).restart warm := by
  unfold Chip.set
  rw [Chip.beginStart_str, Str.restart_sets]
  exact Tab.get_map (StripeSet.restart · warm) (StripeSet.blank_restart warm) i _

/-- Settles O57: the update by `Chip.fetchTime_set`, the register by `Chip.regValue_fetchEst`, a start by
`Chip.beginStart_set`. -/
theorem fetchEstimateFollowsTimes : Obligations.FetchEstimateFollowsTimes := by
  unfold Obligations.FetchEstimateFollowsTimes
  refine ⟨fun s i t => ⟨?deviation, ?mean, fun j hj => ?others⟩, fun s i e he => ?estimate,
    fun s otp q i hi => ?register, fun s warm i => ?start⟩
  case deviation => rw [Chip.fetchTime_set]
  case mean => rw [Chip.fetchTime_set]
  case others => exact s.set_modSet_other hj _
  case estimate => simp only [Chip.fetchEst_eq he, StripeSet.reduced_iff]
  case register => exact s.regValue_fetchEst otp q hi
  case start => rw [Chip.beginStart_set]; exact ⟨rfl, rfl⟩

end Sys2Proof.Machine
end

section
/-!
Region keys: their layout and the check of their generation (O56).
-/
namespace Sys2Proof.Machine

/-! ### The fields of a key (05 R119) -/

theorem bits_index {key : Nat} (h : key < 2 ^ 32) : bits key 31 16 = key / 65536 :=
  Nat.mod_eq_of_lt (Nat.div_lt_of_lt_mul h)

theorem bits_generation (key : Nat) : bits key 15 0 = key % 65536 :=
  congrArg (· % 65536) (Nat.div_one key)

theorem keyOf_lt {idx gen : Nat} (hidx : idx < 65536) (hgen : gen < 65536) : keyOf idx gen < 2 ^ 32 := by
  unfold keyOf; omega

theorem keyOf_index {idx gen : Nat} (hgen : gen < 65536) : keyOf idx gen / 65536 = idx := by
  unfold keyOf; omega

theorem keyOf_generation {idx gen : Nat} (hgen : gen < 65536) : keyOf idx gen % 65536 = gen := by
  unfold keyOf; omega

/-! ### The checks of a key, in their order (05 R121) -/

section CheckKey

variable {s : Chip} {group op key start len : Nat}

/-- A key that passes names a live entry, and holds its generation, which is not 0. -/
theorem Chip.checkKey_passes (h : s.checkKey group op key start len = none) :
    (s.region (key / 65536)).live = true ∧ key % 65536 ≠ 0 ∧ key % 65536 = (s.region (key / 65536)).gen := by
  unfold Chip.checkKey at h
  dsimp only at h
  split at h
  next => cases h
  next hlive =>
    split at h
    next => cases h
    next hgen => simpa using And.intro hlive hgen

/-- The generation is the first check of a key to a live entry. -/
theorem Chip.checkKey_stale (hlive : (s.region (key / 65536)).live = true)
    (hgen : key % 65536 = 0 ∨ key % 65536 ≠ (s.region (key / 65536)).gen) :
    s.checkKey group op key start len = some (0x01, 1) := by
  simp [Chip.checkKey, hlive, hgen]

end CheckKey

/-- Settles O56: the layout by division with remainder, the generation by `Chip.checkKey_passes` and `Chip.checkKey_stale`. -/
theorem regionKeysCheckGenerations : Obligations.RegionKeysCheckGenerations := by
  unfold Obligations.RegionKeysCheckGenerations
  refine ⟨fun idx gen hidx hgen => ?layout, fun s group op key start len hkey => ?check⟩
  case layout =>
    have hkey := keyOf_lt hidx hgen
    exact ⟨hkey, (bits_index hkey).trans (keyOf_index hgen), (bits_generation _).trans (keyOf_generation hgen)⟩
  case check =>
    rw [bits_index hkey, bits_generation]
    refine ⟨fun hpass => ?current, fun hzero hpass => ?zero, Chip.checkKey_stale⟩
    case current =>
      obtain ⟨-, -, hgen⟩ := Chip.checkKey_passes hpass
      exact hgen
    case zero =>
      obtain ⟨-, hne, -⟩ := Chip.checkKey_passes hpass
      exact hne hzero

end Sys2Proof.Machine
end

section
/-!
The region edit window: its claim, a command that its owner may run, and how a command ends (O20, O21).
-/
namespace Sys2Proof.Machine

/-! ### The claim (05 R130) -/

theorem editClaimEffect_i2c {s : Chip} (h : s.rgn.path = 0) :
    editClaimEffect .i2c s = { s with rgn := { s.rgn with path := 1, conn := 0 } } := by
  simp [editClaimEffect, h]

theorem editClaimEffect_mgmt {s : Chip} (h : s.rgn.path = 0) (c : Nat) :
    editClaimEffect (.mgmt c) s = { s with rgn := { s.rgn with path := 2, conn := c } } := by
  simp [editClaimEffect, h]

theorem editReleaseEffect_owner {s : Chip} {q : Session} (h : s.ownsEdit q = true) :
    editReleaseEffect q s = { s with rgn := { s.rgn with path := 0, conn := 0 } } := if_pos h

/-! ### A command of the owner (05 R131) -/

/-- The session may start a command in the edit window: it is served, holds the claim, and no command runs. -/
structure Chip.EditReady (s : Chip) (q : Session) : Prop where
  granted : s.grants q 23 2
  owner : s.ownsEdit q = true
  idle : s.rgn.busy = false

/-- The chip with a command in RGN_EDIT_CMD. -/
def Chip.commanded (s : Chip) (idx code : Nat) : Chip := { s with rgn := { s.rgn with cmd := idx * 65536 + code } }

theorem Chip.editWrite_owner {s : Chip} {q : Session} (h : s.ownsEdit q = true) (f : Chip → Chip) : s.editWrite q f = f s :=
  if_pos h

@[simp] theorem Chip.commanded_glb (s : Chip) (idx code : Nat) : (s.commanded idx code).glb = s.glb := rfl
@[simp] theorem Chip.commanded_region (s : Chip) (idx code i : Nat) : (s.commanded idx code).region i = s.region i := rfl
@[simp] theorem Chip.commanded_logRoom (s : Chip) (idx code : Nat) : (s.commanded idx code).logRoom = s.logRoom := rfl

/-- A command of a session that may start one is judged in the order of Table 5-5. -/
theorem editCommand_ready {s : Chip} {q : Session} (h : s.EditReady q) (idx code : Nat) (pre : Region → Bool) (change : Bool)
    (run : Chip → Chip) : editCommand q idx code pre change run s =
      let v := s.commanded idx code
      if v.glb.state != .active then v.endEdit idx code 3 0
      else if !pre (v.region idx) then v.endEdit idx code 2 0
      else if change && !v.logRoom then v.endEdit idx code 4 0
      else run v := by
  rw [editCommand, asRole_grants h.granted, Chip.editWrite_owner h.owner, if_neg (ne_true_of_eq_false h.idle)]
  rfl

/-- A command that passes those checks runs. -/
theorem editCommand_runs {s : Chip} {q : Session} {idx : Nat} {pre : Region → Bool} {change : Bool} (h : s.EditReady q)
    (hactive : s.glb.state = .active) (hpre : pre (s.region idx) = true) (hroom : change = true → s.logRoom = true)
    (code : Nat) (run : Chip → Chip) : editCommand q idx code pre change run s = run (s.commanded idx code) := by
  have hfits : (change && !s.logRoom) = false := by simpa using hroom
  simp [editCommand_ready h, hactive, hpre, hfits]

/-- The outcome of a command that runs, for an index that the field of RGN_EDIT_CMD holds. -/
theorem next_editCommand {s : State} {q : Session} {idx code : Nat} {pre : Region → Bool} {change : Bool}
    {run : Nat → Chip → Chip} {f : Chip → Chip} (h : s.chip.EditReady q) (hactive : s.chip.glb.state = .active)
    (hidx : idx < 65536) (hpre : pre (s.chip.region idx) = true) (hroom : change = true → s.chip.logRoom = true)
    (hrun : run idx (s.chip.commanded idx code) = f s.chip) :
    (.next (s.on (editCommand q (idx % 65536) code pre change (run (idx % 65536)))) : Host.Outcome State Fault Refusal) =
      .next (s.on f) := by
  rw [Nat.mod_eq_of_lt hidx]
  exact next_on_congr ((editCommand_runs h hactive hpre hroom code (run idx)).trans hrun)

/-- A code that Table 5-4 does not define ends at once. -/
theorem refusedCommandEffect_ends {s : Chip} {q : Session} {idx code : Nat} (h : s.EditReady q) (hidx : idx < 65536)
    (hcode : 5 < code) (hfield : code < 16) :
    refusedCommandEffect q idx code s = (s.commanded idx code).endEdit idx code 5 0 := by
  unfold refusedCommandEffect
  rw [Nat.mod_eq_of_lt hfield, Nat.mod_eq_of_lt hidx, if_neg (Nat.not_le.mpr hcode), asRole_grants h.granted,
    Chip.editWrite_owner h.owner, if_neg (ne_true_of_eq_false h.idle)]
  rfl

/-- A command's end, its event aside, leaves its result and its key. -/
theorem Chip.endEdit_quiet (s : Chip) (idx code result key : Nat) : (s.endEdit idx code result key).quiet =
    { s.quiet with rgn := { s.rgn with result, key, finish := none } } :=
  Chip.raise_quiet ..

/-! ### The statements -/

/-- Settles O20: the claim's effects where nobody and where the session holds it; READ runs by `editCommand_runs` and a code
without a meaning ends by `refusedCommandEffect_ends`, each by `Chip.endEdit`. -/
theorem editWindowCommandsComplete : Obligations.EditWindowCommandsComplete := by
  unfold Obligations.EditWindowCommandsComplete
  refine ⟨fun s hgrant hfree => ?claimI2c, fun s c hgrant hfree => ?claimMgmt, fun s q hgrant howns => ?release,
    fun s => ?timeout, fun s q idx hgrant howns hidle hactive hidx => ?read,
    fun s q idx code hgrant howns hidle hidx hcode hfield => ?undefined, fun s => ?interval⟩
  case claimI2c => exact next_on_congr ((asRole_grants hgrant).trans (editClaimEffect_i2c hfree))
  case claimMgmt => exact next_on_congr ((asRole_grants hgrant).trans (editClaimEffect_mgmt hfree c))
  case release => exact next_on_congr ((asRole_grants hgrant).trans (editReleaseEffect_owner howns))
  case timeout => rfl
  case read =>
    have hready : s.chip.EditReady q := ⟨hgrant, howns, hidle⟩
    exact ⟨_, next_editCommand (f := fun t => rgnReadEffect idx (t.commanded idx 1)) hready hactive hidx rfl nofun rfl,
      rfl, rfl, Chip.endEdit_quiet ..⟩
  case undefined =>
    have hready : s.chip.EditReady q := ⟨hgrant, howns, hidle⟩
    exact ⟨_, next_on_congr (g := fun t => (t.commanded idx code).endEdit idx code 5 0)
      (refusedCommandEffect_ends hready hidx hcode hfield), rfl, rfl, Chip.endEdit_quiet ..⟩
  case interval => rfl

/-- Settles O21: each edit passes the checks of Table 5-5, the log's room among them, and runs. -/
theorem editsCommit : Obligations.EditsCommit := by
  unfold Obligations.EditsCommit
  intro s q idx hgrant howns hidle hactive hroom hidx
  have hready : s.chip.EditReady q := ⟨hgrant, howns, hidle⟩
  have hlog : true = true → s.chip.logRoom = true := fun _ => hroom
  refine ⟨fun hfree => ?create, fun hlive => ?modify, fun hlive => ?rotate, fun hlive => ?remove⟩
  case create =>
    have hpre : (!(s.chip.region idx).live) = true := by rw [hfree]; rfl
    exact next_editCommand (run := rgnCreateEffect) hready hactive hidx hpre hlog rfl
  case modify => exact next_editCommand (run := rgnModifyEffect) hready hactive hidx hlive hlog rfl
  case rotate => exact next_editCommand (run := rgnRotateEffect) hready hactive hidx hlive hlog rfl
  case remove => exact next_editCommand (run := rgnRemoveEffect) hready hactive hidx hlive hlog rfl

end Sys2Proof.Machine
end

section
/-!
The bytes of a line in its frame: what bytes laid over them change and what they leave (O59).
-/
namespace Sys2Proof.Machine

@[simp] theorem overlay_length (old new : List Byte) (mask : Nat) : (overlay old new mask).length = 64 := by
  simp [overlay]

theorem overlay_getElem {old new : List Byte} {mask i : Nat} (h : i < (overlay old new mask).length) :
    (overlay old new mask)[i] = if bit mask i then new.getD i 0 else old.getD i 0 := by
  simp [overlay]

theorem Chip.frameLine_getD (s : Chip) (line : Nat) {i : Nat} (h : i < 64) :
    (s.frameLine line).getD i 0 = Memory.read 0 s.pgm.frames (line * 64 + i) := by
  simp [Chip.frameLine, Memory.readN, h]

/-- A byte of the line is the new one where the mask has its bit. -/
theorem Chip.read_writeLine_inside (s : Chip) (line mask : Nat) (data : List Byte) {i : Nat} (h : i < 64) :
    Memory.read 0 (s.writeLine line data mask).pgm.frames (line * 64 + i) =
      if bit mask i then data.getD i 0 else Memory.read 0 s.pgm.frames (line * 64 + i) := by
  have hlen : i < (overlay (s.frameLine line) data mask).length := by rwa [overlay_length]
  rw [← s.frameLine_getD line h, ← overlay_getElem hlen]
  exact Memory.read_writeN_inside 0 _ s.pgm.frames (line * 64) i hlen

theorem Chip.read_writeLine_outside (s : Chip) (line mask : Nat) (data : List Byte) {a : Nat}
    (h : a < line * 64 ∨ line * 64 + 64 ≤ a) :
    Memory.read 0 (s.writeLine line data mask).pgm.frames a = Memory.read 0 s.pgm.frames a :=
  Memory.read_writeN_outside 0 _ s.pgm.frames (line * 64) a (by rwa [overlay_length])

/-- Settles O59: a line is written as the 64 bytes of an overlay, whose bytes `overlay_getElem` gives. -/
theorem lineWritesChangeMaskedBytesOnly : Obligations.LineWritesChangeMaskedBytesOnly := by
  unfold Obligations.LineWritesChangeMaskedBytesOnly
  intro s line mask data _
  refine ⟨fun i hi => ?inside, fun a ha => ?outside, fun hwf => ?canonical, ?rest⟩
  case inside => exact s.read_writeLine_inside line mask data hi
  case outside => exact s.read_writeLine_outside line mask data ha
  case canonical => exact Memory.writeN_wf 0 _ _ _ hwf
  case rest => rfl

end Sys2Proof.Machine
end

section
/-!
Fences of comets and blocks that leave their block or silicon region another comet or block (O17).
-/
namespace Sys2Proof.Machine

theorem mem_rangeFrom {lo n x : Nat} : x ∈ rangeFrom lo n ↔ lo ≤ x ∧ x < lo + n := by
  simp only [rangeFrom, List.mem_map, List.mem_range]
  exact ⟨fun ⟨i, hi, hx⟩ => by omega, fun h => ⟨x - lo, by omega, by omega⟩⟩

/-- One number of a range that fails a test. -/
theorem not_all_rangeFrom {lo n x : Nat} {p : Nat → Bool} (hlo : lo ≤ x) (hhi : x < lo + n) (hp : p x = false) :
    ¬ (rangeFrom lo n).all p = true := fun hall =>
  ne_true_of_eq_false hp (List.all_eq_true.mp hall x (mem_rangeFrom.mpr ⟨hlo, hhi⟩))

/-- Which comets may take work is told by the variant and the fences. -/
theorem Chip.cometOk_congr {s t : Chip} (hglb : s.glb = t.glb) (hcmt : s.cmt = t.cmt) (n : Nat) :
    s.cometOk n = t.cometOk n := by
  unfold Chip.cometOk Chip.comets
  rw [hglb, hcmt]

/-! ### A comet (06 R152) -/

/-- The chip with a comet fenced, its steal request dropped and its work to be re-homed. -/
def Chip.withoutComet (s : Chip) (n : Nat) : Chip :=
  { s with cmt := { s.cmt with
    fenced := n :: s.cmt.fenced, stealing := s.cmt.stealing.filter (· != n), rehome := s.cmt.rehome ++ [FencedUnit.comet n] } }

/-- A comet's fence leaves every other comet as it was. -/
theorem Chip.withoutComet_cometOk (s : Chip) {n other : Nat} (hne : other ≠ n) :
    (s.withoutComet n).cometOk other = s.cometOk other := by
  have hfenced : (s.withoutComet n).cmt.fenced.contains other = s.cmt.fenced.contains other := by
    simp [Chip.withoutComet, hne]
  unfold Chip.cometOk
  rw [hfenced]
  rfl

/-- A block with another comet left is not without comets once one is fenced. -/
theorem Chip.block_keeps_comet {s t : Chip} {n other : Nat} (hblock : other / 16 = n / 16) (hne : other ≠ n)
    (hother : s.cometOk other = true) (hglb : t.glb = s.glb) (hcmt : t.cmt = (s.withoutComet n).cmt) :
    ¬ ((rangeFrom (n / 16 * 16) 16).all fun x => !t.cometOk x) = true := by
  have hleft : t.cometOk other = true :=
    (Chip.cometOk_congr (t := s.withoutComet n) hglb hcmt other).trans ((s.withoutComet_cometOk hne).trans hother)
  exact not_all_rangeFrom (x := other) (by omega) (by omega) (by rw [hleft]; rfl)

/-- A comet's fence, its records aside, where its block has another comet left. -/
theorem cometFenceEffect_quiet {s : Chip} {n other : Nat} (cause : Nat) (hok : s.cometOk n = true)
    (hblock : other / 16 = n / 16) (hne : other ≠ n) (hother : s.cometOk other = true) :
    (cometFenceEffect n cause s).quiet = (s.withoutComet n).quiet := by
  unfold cometFenceEffect
  rw [if_neg (by simp [hok])]
  refine (congrArg Chip.quiet (if_neg ?left)).trans ?_
  case left => exact Chip.block_keeps_comet hblock hne hother (by simp) (by simp [Chip.withoutComet])
  rw [Chip.raise_quiet, Chip.raise_quiet]
  rfl

/-! ### A block (06 R153) -/

/-- The chip with a block fenced, whose comets' work is re-homed with its own. -/
def Chip.withoutBlock (s : Chip) (b : Nat) : Chip :=
  { s with cmt := { s.cmt with
    fencedBlocks := setBit s.cmt.fencedBlocks b true,
    rehome := (s.cmt.rehome.filter fun (u : FencedUnit) => match u with
      | .comet n => n / 16 != b
      | .block _ => true) ++ [FencedUnit.block b] } }

/-- A silicon region with another block left is not without blocks once one is fenced. -/
theorem Chip.region_keeps_block {s : Chip} {b other g : Nat} (hsame : other / 4 = b / 4) (hne : other ≠ b)
    (hother : bit s.cmt.fencedBlocks other = false) (hg : g = setBit s.cmt.fencedBlocks b true) :
    ¬ ((rangeFrom (b / 4 * 4) 4).all fun x => bit g x) = true := by
  have hleft : bit g other = false := by rw [hg, bit_setBit, hother, decide_eq_false (Ne.symm hne)]; rfl
  exact not_all_rangeFrom (x := other) (by omega) (by omega) hleft

/-- A block's fence, its record aside, where its silicon region has another block left: its domain is gated. -/
theorem Chip.fenceBlock_quiet {s : Chip} {b other : Nat} (cause : Nat) (hb : bit s.cmt.fencedBlocks b = false)
    (hregion : bit s.cmt.fencedRegions (b / 4) = false) (hlt : b < s.nBlocks) (hsame : other / 4 = b / 4)
    (hne : other ≠ b) (hother : bit s.cmt.fencedBlocks other = false) :
    (s.fenceBlock b cause).quiet = ((s.withoutBlock b).gate [b] true).quiet := by
  unfold Chip.fenceBlock
  rw [if_neg (by simp [hb, hregion, hlt])]
  refine (congrArg Chip.quiet (if_neg ?left)).trans ?_
  case left => exact Chip.region_keeps_block hsame hne hother (congrArg Cmt.fencedBlocks (Chip.raise_cmt ..))
  rw [gate_quiet, gate_quiet, Chip.raise_quiet]
  rfl

/-! ### The statement -/

/-- Settles O17: both commands of a comet run its fence, both of a block the block's, and neither reaches the fence of the unit
around it. -/
theorem fencesContain : Obligations.FencesContain := by
  unfold Obligations.FencesContain
  refine ⟨fun s n cause other hok hblock hne hother i hi => ?comet,
    fun s b cause other hb hregion hlt hsame hne hother i hi => ?block⟩
  case comet =>
    have hrun : ∃ cause', exec i s = .next (s.on (cometFenceEffect n cause')) := by
      simp only [List.mem_cons, List.not_mem_nil, or_false] at hi
      obtain rfl | rfl := hi
      · exact ⟨cause, rfl⟩
      · exact ⟨2, rfl⟩
    obtain ⟨cause', hrun⟩ := hrun
    exact ⟨_, hrun, rfl, rfl, cometFenceEffect_quiet cause' hok hblock hne hother⟩
  case block =>
    have hrun : ∃ cause', exec i s = .next (s.on (Chip.fenceBlock · b cause')) := by
      simp only [List.mem_cons, List.not_mem_nil, or_false] at hi
      obtain rfl | rfl := hi
      · exact ⟨cause, rfl⟩
      · exact ⟨0, rfl⟩
    obtain ⟨cause', hrun⟩ := hrun
    exact ⟨_, hrun, rfl, rfl, Chip.fenceBlock_quiet cause' hb hregion hlt hsame hne hother⟩

end Sys2Proof.Machine
end

section
/-!
The chain operations of the buffer pool by an agent that keeps its rules (O19).
-/
namespace Sys2Proof.Machine

/-- The chip with a chain put at its head cell. -/
def Chip.putChain (s : Chip) (head : Nat) (ch : Chain) : Chip :=
  { s with bpm := { s.bpm with chains := Tab.ins s.bpm.chains head ch } }

theorem walk_length_le (cells : Tab Bool) : ∀ l : List Nat, (walk cells l).length ≤ l.length
  | [] => Nat.le_refl 0
  | i :: r => by
    unfold walk
    split
    · exact Nat.succ_le_succ (walk_length_le cells r)
    · exact Nat.zero_le _

/-- The cells that an allocation within the quotas takes become a chain of its agent. -/
theorem allocateEffect_fits {s : Chip} {ag : Agent} {pool group n c : Nat} {rest : List Nat} (hpool : pool < 4) (hn : n ≠ 0)
    (hfits : s.allocFits pool (if pool < 2 then some group else none) (agentComet ag) n = true)
    (hfree : freeCells s.bpm.cells (s.bpm.sizes.getD pool 0) (s.bpm.base pool) n = c :: rest) :
    allocateEffect ag pool group n s =
      { s with bpm := { s.bpm with
        gens := Tab.set s.bpm.gens 0 c ((Tab.get s.bpm.gens 0 c + 1) % 256)
        cells := markCells s.bpm.cells true (c :: rest)
        chains := Tab.ins s.bpm.chains c
          { gen := (Tab.get s.bpm.gens 0 c + 1) % 256, pool := pool, cells := c :: rest, owner := ag, sharers := [],
            last := none, rel := 0, deferred := false, group := (if pool < 2 then some group else none),
            comet := agentComet ag } } } := by
  simp only [allocateEffect, Chip.alloc, hfits, hfree]
  simp [Nat.not_le.mpr hpool, hn]

section ChainOf

variable {s : Chip} {ag : Agent} {h : Handle} {ch : Chain}

theorem appendEffect_owner (hfresh : s.fresh? h = true) (hch : s.chain h = some ch) (hown : ch.ownedBy ag = true) {n : Nat}
    (hfits : s.allocFits ch.pool ch.group ch.comet n = true) :
    appendEffect ag h n s =
      let cells := freeCells s.bpm.cells (s.bpm.sizes.getD ch.pool 0) (s.bpm.base ch.pool) n
      ({ s with bpm := { s.bpm with cells := markCells s.bpm.cells true cells } } : Chip).putChain h.head
        { ch with cells := ch.cells ++ cells } := by
  simp [appendEffect, Chip.putChain, hfresh, hch, hown, hfits]

theorem handEffect_owner (hfresh : s.fresh? h = true) (hch : s.chain h = some ch) (hown : ch.ownedBy ag = true)
    (heir : Agent) : handEffect ag h heir s = s.putChain h.head { ch with owner := heir } := by
  simp [handEffect, Chip.putChain, hfresh, hch, hown]

theorem shareEffect_owner (hfresh : s.fresh? h = true) (hch : s.chain h = some ch) (hown : ch.ownedBy ag = true)
    {sharers : List Agent} (hfour : sharers.length ≤ 4) (last : Agent) :
    shareEffect ag h sharers last s =
      s.putChain h.head { ch with sharers := sharers, last := some last, rel := sharers.length - 1 } := by
  simp [shareEffect, Chip.shareChain, Chip.putChain, hfresh, hch, hown, Nat.not_lt.mpr hfour]

/-- A RELEASE that does not end a deferred FREE takes the sharer off the list and counts one release less to come. -/
theorem releaseEffect_sharer (hfresh : s.fresh? h = true) (hch : s.chain h = some ch) (hshares : ch.sharers.contains ag = true)
    (hlast : ch.last ≠ some ag) (hdeferred : ch.deferred = false) :
    releaseEffect ag h s =
      s.putChain h.head { ch with sharers := ch.sharers.filter (· != ag), rel := ch.rel - 1 } := by
  have hmem : ag ∈ ch.sharers := List.contains_iff_mem.mp hshares
  simp [releaseEffect, Chip.releaseChain, Chip.putChain, hfresh, hch, hmem, hlast, hdeferred]

/-- FREE by the owner of an unshared chain whose cells are all allocated. -/
theorem freeEffect_owner (hfresh : s.fresh? h = true) (hch : s.chain h = some ch) (hown : ch.ownedBy ag = true)
    (hused : Tab.get s.bpm.cells false h.head = true) (hwalk : walk s.bpm.cells ch.cells = ch.cells)
    (hunshared : ch.sharers = []) :
    freeEffect ag h s =
      { s with bpm := { s.bpm with
        cells := markCells s.bpm.cells false ch.cells
        chains := Tab.del s.bpm.chains h.head } } := by
  have hby : ch.freedBy ag = true := by simp [Chain.freedBy, hunshared, hown]
  have howner : ch.owner = ag := of_decide_eq_true hown
  simp [freeEffect, Chip.freeChain, Chip.dropChain, hfresh, hch, hused, hby, hwalk, hunshared, howner]

end ChainOf

/-- Settles O19: no check of 06 R164 stops a command of an agent that keeps its rules, one lemma for each operation. -/
theorem chainOperationsComplete : Obligations.ChainOperationsComplete := by
  unfold Obligations.ChainOperationsComplete
  refine ⟨fun s ag pool group n c rest hpool hn hfits hfree => ?allocate, fun s ag h ch hfresh hch hown => ⟨fun n hfits => ?append,
    fun heir => ?hand, fun sharers last hfour => ?share, fun hused hwalk hunshared => ?free⟩,
    fun s ag h ch hfresh hch hshares hlast hdeferred => ?release⟩
  case allocate => exact next_on_congr (allocateEffect_fits hpool hn hfits hfree)
  case append => exact next_on_congr (appendEffect_owner hfresh hch hown hfits)
  case hand => exact next_on_congr (handEffect_owner hfresh hch hown heir)
  case share => exact next_on_congr (shareEffect_owner hfresh hch hown hfour last)
  case free =>
    exact next_on_congr (congrArg (fun t => (s.chip.syzFreed t).pumpOwed)
      (freeEffect_owner hfresh hch hown hused hwalk hunshared))
  case release =>
    exact next_on_congr (congrArg (fun t => (s.chip.syzFreed t).pumpOwed)
      (releaseEffect_sharer hfresh hch hshares hlast hdeferred))

end Sys2Proof.Machine
end

section
/-!
Comets: the start stage of a READ_REQ, the retry of a reservation, urgency, stealing and re-homing (O16).
-/
namespace Sys2Proof.Machine

/-! ### Response cells (06 R158) -/

theorem Chip.conn_modMsg {s : Chip} {c : Nat} {k : Conn} (hk : s.conn c = some k) (first : Nat) (f : Msg → Msg) :
    (s.modMsg c first f).conn c = some { k with msgs := k.msgs.map fun x => if x.first == first then f x else x } := by
  unfold Chip.modMsg
  rw [Chip.modConn_of_conn hk]
  exact conn_setConn_same ..

/-- A message that needs no response cells keeps those it has. -/
theorem Chip.reserve_of_none_needed {m : Msg} (h : m.needCells = []) (s : Chip) (group : Nat) :
    s.reserve group m = some (m.egress, s) := by
  simp [Chip.reserve, h]

/-- The chip once a message has its response cells: it waits for them no more. -/
def Chip.withCells (s : Chip) (c : Nat) (m : Msg) (hs : List Handle) : Chip :=
  ({ s with bpm := { s.bpm with waiting := s.bpm.waiting.filter (· != (c, m.first)) } } : Chip).modMsg c m.first
    fun x => { x with egress := hs, needCells := [] }

theorem Chip.startCells_of_reserve {s t : Chip} {c : Nat} {m : Msg} {k : Conn} {hs : List Handle} (hk : s.conn c = some k)
    (hr : s.reserve k.group m = some (hs, t)) (go : Chip → Chip) : s.startCells c m go = go (t.withCells c m hs) := by
  simp only [Chip.startCells, hk, hr]
  rfl

/-- Freed cells that satisfy a message in a context are its own, and it stays where it is. -/
theorem egressRetryEffect_served {s t : Chip} {c : Nat} {m : Msg} {k : Conn} {hs : List Handle}
    (hserved : s.firstServed s.bpm.waiting = some (c, m)) (hk : s.conn c = some k)
    (hr : s.reserve k.group m = some (hs, t)) (hparked : m.parked = false) :
    egressRetryEffect s = (t.withCells c m hs).modMsg c m.first fun x => { x with parked := false } := by
  simp only [egressRetryEffect, hserved, Chip.startCells_of_reserve hk hr, hparked, Bool.false_and]
  rfl

/-! ### The start stage (06 R146) -/

/-- A READ_REQ that no offline region and no deadline refuses, and whose response cells are reserved, starts. -/
theorem Chip.startStage_read {s : Chip} {c : Nat} {m : Msg} {k : Conn} (hop : m.op = 0x02)
    (honline : s.offline (s.region m.region) = none) (hprobe : m.probed = true ∨ s.late m = false) (hcells : m.needCells = [])
    (hk : s.conn c = some k) :
    s.startStage c m = ((s.modMsg c m.first fun x => { x with probed := true }).withCells c m m.egress).startNow c m := by
  have hwrite : (m.op == 0x01) = false := by rw [hop]; rfl
  have hread : (m.op == 0x02) = true := by rw [hop]; rfl
  have hlate : (!m.probed && s.late m) = false := by
    obtain h | h := hprobe <;> simp [h]
  simp only [Chip.startStage, honline, hwrite, hread, hlate, Bool.false_eq_true, if_false, if_true]
  exact Chip.startCells_of_reserve (s.conn_modMsg hk ..) (Chip.reserve_of_none_needed hcells ..) _

/-- The message that a comet's next free context takes (06 R146): one held at its start stage that need wait no longer, else,
where no context record and no urgent message goes first, the oldest of the local queue. -/
abbrev Chip.NextToStart (s : Chip) (n c : Nat) (m : Msg) : Prop :=
  let held := (s.readyAt n).find? fun x => x.2.stalls.contains atStart && !s.stillWaits x.1 x.2
  held = some (c, m) ∨ (held = none ∧ s.contexts n < 16 ∧ s.recordsWaiting n = [] ∧ s.urgentNear n = [] ∧
    (s.queuedAt n).head? = some (c, m))

theorem messageStartEffect_next {s : Chip} {n c : Nat} {m : Msg} (hok : s.cometOk n = true) (hnext : s.NextToStart n c m) :
    messageStartEffect n s = s.startStage c m := by
  obtain hheld | ⟨hnone, hfree, hrecords, hurgent, hhead⟩ := hnext
  · simp only [messageStartEffect, hok, hheld]
    rfl
  · obtain ⟨rest, hqueue⟩ := List.head?_eq_some_iff.mp hhead
    simp only [messageStartEffect, hok, hnone]
    simp [Chip.fillContext, hfree, hrecords, hurgent, hqueue]

/-! ### Urgency, stealing and re-homing (06 R148 to R153) -/

theorem urgencyEffect_ready {s : Chip} {c psn : Nat} {m : Msg} (hm : s.msg c psn = some m) (hready : m.ready.isSome = true)
    (hstarted : m.started = false) :
    urgencyEffect c psn s = s.modMsg c psn fun x => { x with urgent := true } := by
  simp [urgencyEffect, hm, hready, hstarted]

/-- A comet with a free context takes its block's oldest urgent message, and counts a jump for another comet's. -/
theorem urgentTakeEffect_oldest {s : Chip} {n c : Nat} {m : Msg} {rest : List (Nat × Msg)} (hok : s.cometOk n = true)
    (hfree : s.contexts n < 16) (hrecords : s.recordsWaiting n = []) (hurgent : s.urgentNear n = (c, m) :: rest) :
    urgentTakeEffect n s =
      let u := (s.modMsg c m.first fun x => { x with comet := n }).movePtr .block (n / 16) n
      (if m.comet = n then u else u.count (0x400004 + 0x400 * n)).startStage c { m with comet := n } := by
  have hmay : ¬ (!s.cometOk n || decide (16 ≤ s.contexts n) || !(s.recordsWaiting n).isEmpty) = true := by
    rw [hok, hrecords, decide_eq_false (Nat.not_le.mpr hfree)]
    nofun
  unfold urgentTakeEffect
  rw [if_neg hmay]
  simp only [hurgent, beq_iff_eq]

theorem stealRequestEffect_thief {s : Chip} {n : Nat} (hthief : s.thief n = true) (hnew : s.cmt.stealing.contains n = false) :
    stealRequestEffect n s = { s with cmt := { s.cmt with stealing := s.cmt.stealing ++ [n] } } := by
  unfold stealRequestEffect
  rw [hthief, hnew]
  rfl

/-- An arbiter's comets from its pointer on, then those before it. -/
def Chip.arbiterTurn (s : Chip) (level : StealLevel) (a : Nat) : List Nat :=
  (s.arbiterComets level a).filter (s.arbiterPtr level a ≤ ·) ++ (s.arbiterComets level a).filter (· < s.arbiterPtr level a)

/-- The first comet in turn gets the message: its request ends, the pointer moves past it and its steal is counted. -/
theorem stealGrantEffect_first {s : Chip} {level : StealLevel} {a n c : Nat} {m : Msg} (hon : s.levelOn level = true)
    (hfirst : (s.arbiterTurn level a).find? (s.mayGrant level) = some n) (hprey : s.prey level n = some (c, m)) :
    stealGrantEffect level a s =
      ((({ s with cmt := { s.cmt with stealing := s.cmt.stealing.filter (· != n) } } : Chip).modMsg c m.first
        fun x => { x with comet := n }).movePtr level a n).count (0x400010 + 0x400 * n + 4 * levelCode level) := by
  unfold Chip.arbiterTurn at hfirst
  simp only [stealGrantEffect, hon, hfirst, hprey]
  rfl

theorem rehomeEffect_waiting {s : Chip} {u : FencedUnit} (hwaits : s.cmt.rehome.contains u = true)
    (hheirs : (s.heirs u).isEmpty = false) :
    rehomeEffect u s =
      ({ s with cmt := { s.cmt with rehome := s.cmt.rehome.filter (· != u) } } : Chip).rehomeAll (unitComets u) (s.heirs u) := by
  unfold rehomeEffect
  rw [hwaits, hheirs]
  rfl

/-! ### The statement -/

/-- Settles O16: `messageStartEffect_next` says which message starts and `Chip.startStage_read` how; each of the other commands by
its effect's own lemma. -/
theorem cometCommandsComplete : Obligations.CometCommandsComplete := by
  unfold Obligations.CometCommandsComplete
  refine ⟨fun s n c m k hok hnext hop honline hprobe hcells hk => ?start,
    fun s c m k hs t hserved hk hr hparked => ?retry, fun s n hthief hnew => ?request,
    fun s level a n c m hon hfirst hprey => ?grant, fun s c psn m hm hready hstarted => ?age,
    fun s n c m rest hok hfree hrecords hurgent => ?take, fun s u hwaits hheirs => ?rehome⟩
  case start =>
    exact next_on_congr
      ((messageStartEffect_next hok hnext).trans (Chip.startStage_read hop honline hprobe hcells hk))
  case retry => exact next_on_congr (egressRetryEffect_served hserved hk hr hparked)
  case request =>
    have hrun := stealRequestEffect_thief hthief hnew
    exact ⟨next_on_congr hrun, next_on_congr hrun⟩
  case grant => exact next_on_congr (stealGrantEffect_first hon hfirst hprey)
  case age => exact next_on_congr (urgencyEffect_ready hm hready hstarted)
  case take => exact next_on_congr (urgentTakeEffect_oldest hok hfree hrecords hurgent)
  case rehome => exact next_on_congr (rehomeEffect_waiting hwaits hheirs)

end Sys2Proof.Machine
end

section
/-!
The line cache's maintenance operations, its enable, its locked ways, its fills and its write-through buffers (O23).
-/
namespace Sys2Proof.Machine

/-! ### The registers that describe an operation (17 Table 17-10) -/

@[simp] theorem Chip.clamped_lcc (s : Chip) (field given used src : Nat) : (s.clamped field given used src).lcc = s.lcc :=
  Chip.lcc_of_quiet (s.clamped_quiet _ _ _ _)

@[simp] theorem Chip.clampLen_lcc (s : Chip) (src : Nat) : (s.clampLen src).2.lcc = s.lcc := by
  unfold Chip.clampLen
  dsimp only
  split
  · rfl
  · dsimp only
    split <;> simp

/-- Writing the registers that describe an operation neither starts one nor ends one. -/
theorem Chip.maintGiven_busy (s : Chip) (m : MaintReq) : (s.maintGiven m).lcc.busy = s.lcc.busy := by
  unfold Chip.maintGiven
  split
  · split
    · rfl
    · rw [Chip.clamped_lcc]
  · dsimp only
    rw [Chip.clampLen_lcc]
    rfl

/-! ### An operation starts or is refused (07 R178, R181) -/

/-- The words of LCC_MAINT written. They are parameters here: where `maintWord0` and its like stand in a record, comparing it with
the record that it replaces makes the kernel unfold their arithmetic. -/
def Chip.maintWords (s : Chip) (word0 word1 : Nat) : Chip := { s with lcc := { s.lcc with word0, word1 } }

/-- The operation of LCC_MAINT started, with a request in its ranges. -/
def Chip.maintRun (s : Chip) (op base : Nat) (req : MaintReq) : Chip :=
  { s with lcc := { s.lcc with
    op, req, busy := true, result := 0, todo := if op == 4 then some (base, req.len) else none } }

/-- The operation of LCC_MAINT refused. -/
def Chip.maintStop (s : Chip) : Chip := { s with lcc := { s.lcc with result := 2 } }

theorem Chip.maintRun_maintWords (s : Chip) (word0 word1 op base : Nat) (req : MaintReq) :
    (s.maintWords word0 word1).maintRun op base req =
      { s with lcc := { s.lcc with
        word0, word1, op, req, busy := true, result := 0, todo := if op == 4 then some (base, req.len) else none } } := rfl

theorem Chip.maintStop_maintWords (s : Chip) (word0 word1 : Nat) :
    (s.maintWords word0 word1).maintStop = { s with lcc := { s.lcc with word0, word1, result := 2 } } := rfl

/-- An operation that starts (07 R178). -/
def Chip.maintStarted (s : Chip) (op : Nat) (m : MaintReq) : Chip :=
  { s with lcc := { s.lcc with
    word0 := maintWord0 m, word1 := maintWord1 op m, op, req := maintInRange m, busy := true, result := 0,
    todo := if op == 4 then some (m.base, (maintInRange m).len) else none } }

/-- An operation that is refused. -/
def Chip.maintRefusal (s : Chip) (op : Nat) (m : MaintReq) : Chip :=
  { s with lcc := { s.lcc with word0 := maintWord0 m, word1 := maintWord1 op m, result := 2 } }

theorem Chip.maintStarted_eq (s : Chip) (op : Nat) (m : MaintReq) :
    (s.maintWords (maintWord0 m) (maintWord1 op m)).maintRun op m.base (maintInRange m) = s.maintStarted op m :=
  Chip.maintRun_maintWords ..

theorem Chip.maintRefusal_eq (s : Chip) (op : Nat) (m : MaintReq) :
    (s.maintWords (maintWord0 m) (maintWord1 op m)).maintStop = s.maintRefusal op m := Chip.maintStop_maintWords ..

/-- Each bank of a list marks the writes in its buffer, which a CLEAN waits for. -/
def Chip.markBanks (s : Chip) (bs : List Nat) : Chip :=
  bs.foldl (fun t b => t.modBank b fun k => { k with marks := k.writes }) s

section Starts

variable {s : Chip} {op : Nat} {m : MaintReq}

/-- Where none runs an operation is refused, or it starts: then by its code it marks the writes it waits for, preloads its
range, or does nothing more. -/
theorem maintEffect_idle (hidle : s.lcc.busy = false) : maintEffect op m s =
    if s.maintRefused op m then s.maintRefusal op m
    else if op == 1 || op == 3 then (s.maintStarted op m).markBanks (s.cleanBanks m)
    else if op == 4 then (s.maintStarted op m).preload
    else s.maintStarted op m := by
  rw [← Chip.maintStarted_eq, ← Chip.maintRefusal_eq]
  exact if_neg (ne_true_of_eq_false hidle)

theorem maintEffect_refused (hidle : s.lcc.busy = false) (hr : s.maintRefused op m = true) :
    maintEffect op m s = s.maintRefusal op m := (maintEffect_idle hidle).trans (if_pos hr)

theorem maintEffect_cleans (hidle : s.lcc.busy = false) (hop : op = 1 ∨ op = 3) (hr : s.maintRefused op m = false) :
    maintEffect op m s = (s.maintStarted op m).markBanks (s.cleanBanks m) := by
  have hclean : (op == 1 || op == 3) = true := by simpa using hop
  rw [maintEffect_idle hidle, if_neg (ne_true_of_eq_false hr), if_pos hclean]

theorem maintEffect_invalidates (hidle : s.lcc.busy = false) (hr : s.maintRefused 2 m = false) :
    maintEffect 2 m s = s.maintStarted 2 m :=
  (maintEffect_idle hidle).trans (if_neg (ne_true_of_eq_false hr))

theorem maintEffect_preloads (hidle : s.lcc.busy = false) (hr : s.maintRefused 4 m = false) :
    maintEffect 4 m s = (s.maintStarted 4 m).preload :=
  (maintEffect_idle hidle).trans (if_neg (ne_true_of_eq_false hr))

end Starts

/-! ### An operation ends (07 R178, R185) -/

theorem Chip.preload_of_none {s : Chip} (h : s.lcc.todo = none) : s.preload = s := by
  unfold Chip.preload
  rw [h]

/-- The chip once an operation's walk has met the array errors of a list. -/
def Chip.walked (s : Chip) (arr : List (Nat × Nat)) : Chip := arr.foldl (fun t e => t.walkError e.1 e.2) s

/-- LCC_MAINT idle again: a full invalidate leaves the cache cleared, and with EN = 1 it ends STALE_RISK (07 R185). -/
def Chip.maintEnded (s : Chip) (full en : Bool) : Chip :=
  { s with lcc := { s.lcc with
    busy := false, op := 0, cleared := s.lcc.cleared || full, staleRisk := s.lcc.staleRisk && !(full && en) } }

section Ends

variable {s : Chip} {arr : List (Nat × Nat)} {errs : List (Nat × List (Nat × Byte))}

/-- Once no marked write is left, an operation that runs invalidates or preloads as its code says, and ends unless lines of its
range are left. -/
theorem maintenanceCompleteEffect_drained (hbusy : s.lcc.busy = true)
    (hmarks : (s.lcc.banks.all fun e => e.2.marks == 0) = true) :
    maintenanceCompleteEffect arr errs s =
      let u := s.walked arr
      let inv := u.lcc.op == 2 || u.lcc.op == 3
      let v := if inv then u.maintInvalidate u.lcc.req else errs.foldl (fun t e => t.preloadBurst e.1 e.2) u.preload
      if v.lcc.todo.isSome then v else v.maintEnded (inv && maintFull u.lcc.req) (u.par 0x6E0000 % 2 == 1) := by
  have hdrained : (s.lcc.banks.any fun e => e.2.marks != 0) = false := by
    rw [List.any_eq_not_all_not]
    simpa using hmarks
  unfold maintenanceCompleteEffect
  simp only [hbusy, hdrained, Bool.and_false]
  rfl

theorem maintenanceCompleteEffect_clean (hbusy : s.lcc.busy = true)
    (hmarks : (s.lcc.banks.all fun e => e.2.marks == 0) = true)
    (hop : (s.walked arr).lcc.op = 1) (htodo : (s.walked arr).lcc.todo = none) :
    maintenanceCompleteEffect arr [] s = (s.walked arr).maintEnded false ((s.walked arr).par 0x6E0000 % 2 == 1) := by
  rw [maintenanceCompleteEffect_drained hbusy hmarks]
  simp [hop, htodo, Chip.preload_of_none htodo]

theorem maintenanceCompleteEffect_invalidate (hbusy : s.lcc.busy = true)
    (hmarks : (s.lcc.banks.all fun e => e.2.marks == 0) = true)
    (hop : (s.walked arr).lcc.op = 2 ∨ (s.walked arr).lcc.op = 3)
    (htodo : ((s.walked arr).maintInvalidate (s.walked arr).lcc.req).lcc.todo = none) :
    maintenanceCompleteEffect arr errs s =
      ((s.walked arr).maintInvalidate (s.walked arr).lcc.req).maintEnded (maintFull (s.walked arr).lcc.req)
        ((s.walked arr).par 0x6E0000 % 2 == 1) := by
  have hinv : ((s.walked arr).lcc.op == 2 || (s.walked arr).lcc.op == 3) = true := by simpa using hop
  rw [maintenanceCompleteEffect_drained hbusy hmarks]
  simp [hinv, htodo]

end Ends

/-! ### Enable and locked ways (07 R175, R184, R185) -/

section Control

variable {s : Chip}

/-- A cleared cache that is switched on is at no risk of stale lines: EN alone changes. -/
theorem cacheEnableEffect_on (hwas : s.par 0x6E0000 % 2 = 0) (hcleared : s.lcc.cleared = true) :
    cacheEnableEffect true s = s.setPar 0x6E0000 (setBit (s.par 0x6E0000) 0 true) := by
  simp [cacheEnableEffect, hwas, hcleared]

/-- A cache that is switched off installs no fill under way, and is not cleared any more. -/
theorem cacheEnableEffect_off (hwas : s.par 0x6E0000 % 2 = 1) : cacheEnableEffect false s =
    let u := s.setPar 0x6E0000 (setBit (s.par 0x6E0000) 0 false)
    let v := (u.lcc.banks.map (·.1)).foldl (fun w b => w.cancelFill b fun _ => true) u
    { v with lcc := { v.lcc with cleared := false, enAck := true } } := by
  simp [cacheEnableEffect, hwas]

/-- A number of ways up to 8 is set as it is given, with no clamp. -/
theorem lockWaysEffect_in_range {n : Nat} (h : n ≤ 8) : lockWaysEffect n s = s.setLockWays n := by
  have hmod : n % 16 = n := Nat.mod_eq_of_lt (by omega)
  unfold lockWaysEffect
  dsimp only
  rw [hmod, if_neg (Nat.not_lt.mpr h)]
  exact congrArg s.setLockWays (Nat.min_eq_left h)

end Control

/-! ### Fills and write-through (07 R169, R172) -/

/-- A fill can return to a bank: the bank misses on a line, and the line's read has left the bank and waits in no throttle
buffer or input class. -/
structure Chip.FillBack (s : Chip) (b : Nat) (x : Miss) : Prop where
  missing : (s.bank b).miss = some x
  unthrottled : s.inThrottle x.line = false
  running : s.halted x.line = false
  left : (s.bank b).readLeft x.line = true

/-- A burst with no error, or with one that was corrected, fills the line and answers its readers (07 R172, 11 R279). -/
theorem Chip.FillBack.effect_of_readable {s : Chip} {b : Nat} {x : Miss} {errs : List (Nat × Byte)} (h : s.FillBack b x)
    (hr : ((s.readBack x.line).readBurst x.line errs).1 = .good ∨
      ((s.readBack x.line).readBurst x.line errs).1 = .corrected) :
    cacheFillEffect b errs s =
      ((s.readBack x.line).readBurst x.line errs).2.fillGood b x ((s.readBack x.line).slip x.line errs) (s.bank b).waits := by
  unfold cacheFillEffect
  rcases hr with hr | hr <;>
    simp [h.missing, h.unthrottled, h.running, h.left, hr]

/-- The write at the head of a bank's buffer goes to a channel that has room, and the reads behind it follow. -/
theorem writeThroughEffect_write {s : Chip} {b line : Nat} {tag : Src} {narrow : Bool} {rest : List OutEntry}
    (hhead : (s.bank b).wtb = .write line tag narrow :: rest) (hroom : s.classFull line 3 = false) :
    writeThroughEffect b s =
      (Chip.flushReads rest.length
        ((s.modBank b fun k => { k with wtb := rest, marks := k.marks - 1 }).drainWrite line tag narrow) b).serveQueue b := by
  unfold writeThroughEffect
  simp [hhead, hroom]

/-! ### The statement -/

/-- Settles O23: an operation that a session may command is refused or starts as its code says, and ends once its marked writes
have drained; the enable, the locked ways, a fill and a write-through entry by their effects' own lemmas. -/
theorem cacheCommandsComplete : Obligations.CacheCommandsComplete := by
  unfold Obligations.CacheCommandsComplete
  refine ⟨fun s q m hq hbusy => ?commands,
    fun s arr errs hbusy hmarks => ⟨fun hop htodo => ?clean, fun hop htodo => ?invalidate⟩,
    fun s q en hq hwas hcleared => ?enable, fun s q n hq hn => ?lockWays,
    fun s b errs x hmiss hthr hrun hleft hr => ?fill, fun s b line tag narrow rest hhead hroom => ?drain⟩
  case commands =>
    have hidle : (s.chip.maintGiven m).lcc.busy = false := (s.chip.maintGiven_busy m).trans hbusy
    exact ⟨fun hr => next_on_congr ((asRole_grants hq).trans (maintEffect_cleans hidle (.inl rfl) hr)),
      fun hr => next_on_congr ((asRole_grants hq).trans (maintEffect_invalidates hidle hr)),
      fun hr => next_on_congr ((asRole_grants hq).trans (maintEffect_cleans hidle (.inr rfl) hr)),
      fun hr => next_on_congr ((asRole_grants hq).trans (maintEffect_preloads hidle hr)),
      fun hr => next_on_congr ((asRole_grants hq).trans (maintEffect_refused hidle hr)),
      fun hr => next_on_congr ((asRole_grants hq).trans (maintEffect_refused hidle hr)),
      fun hr => next_on_congr ((asRole_grants hq).trans (maintEffect_refused hidle hr)),
      fun hr => next_on_congr ((asRole_grants hq).trans (maintEffect_refused hidle hr))⟩
  case clean => exact next_on_congr (g := fun _ => _) (maintenanceCompleteEffect_clean hbusy hmarks hop htodo)
  case invalidate => exact next_on_congr (g := fun _ => _) (maintenanceCompleteEffect_invalidate hbusy hmarks hop htodo)
  case enable =>
    cases en with
    | true => exact next_on_congr ((asRole_grants hq).trans (cacheEnableEffect_on hwas hcleared))
    | false => exact next_on_congr ((asRole_grants hq).trans (cacheEnableEffect_off hwas))
  case lockWays => exact next_on_congr ((asRole_grants hq).trans (lockWaysEffect_in_range hn))
  case fill => exact next_on_congr (Chip.FillBack.effect_of_readable ⟨hmiss, hthr, hrun, hleft⟩ hr)
  case drain => exact next_on_congr (writeThroughEffect_write hhead hroom)

end Sys2Proof.Machine
end

section
/-!
Pages of the DRAM tier: a fetch that ends, the frame of an evicted page, and a COLD page whose hold has passed (O24).
-/
namespace Sys2Proof.Machine

/-! ### A fetch that ends (08 R199 to R205) -/

/-- The drives hold the sector of a page: the page has a chunk, and the sector is not lost. -/
def Chip.holdsSector (s : Chip) (p i : Nat) : Bool := (s.leaf p).kind != 0 && !((s.leaf p).kind == 2 && bit (s.leaf p).lost i)

/-- The sectors of a page that neither the drives nor reconstruction gave. -/
def Chip.unreadSectors (s : Chip) (p : Nat) (bad : List Nat) : List Nat :=
  (List.range 16).filter fun i => s.holdsSector p i && bad.contains i

/-- The sectors of a page that reconstruction gave. -/
def Chip.mendedSectors (s : Chip) (p : Nat) (bad fixed : List Nat) : List Nat :=
  (List.range 16).filter fun i => s.holdsSector p i && fixed.contains i && !bad.contains i

/-- The twin is asked for the unread sectors of a page (08 R200 step 2). -/
def Chip.unreadAsked (s : Chip) (p : Nat) (bad : List Nat) : Chip := s.askSectors ((s.unreadSectors p bad).map fun i => (p, i))

/-- The twin has an unread sector of the page still to answer for. -/
def Chip.unreadWaits (s : Chip) (p : Nat) (bad : List Nat) : Bool :=
  (s.unreadSectors p bad).any fun i => (s.unreadAsked p bad).askWaits (sectorAddr p i) 4096

/-- The sectors of other pages that the twin is asked for, since the fetch of a page found their rows past solving (09 R253). -/
def Chip.rowSectors (s : Chip) (p : Nat) (bad : List Nat) : List (Nat × Nat) :=
  ((s.fetchRows p bad).flatMap (s.rowAsks (s.leaf p).set)).filter fun x => x.1 != p

/-- The twin has one of those sectors still to answer for. -/
def Chip.rowsWait (s : Chip) (p : Nat) (bad : List Nat) : Bool :=
  (s.rowSectors p bad).any fun x => (s.askSectors (s.rowSectors p bad)).askWaits (sectorAddr x.1 x.2) 4096

/-- The fetch of a page has been issued and has not ended. -/
structure Chip.FetchIssued (s : Chip) (p : Nat) : Prop where
  fetching : (s.page p).st = .fetching
  issued : (s.page p).issued.isSome = true

section Fetch

variable {s : Chip} {p time : Nat} {bad fixed : List Nat} {errs : List (Nat × List (Nat × Byte))}

namespace Chip.FetchIssued

theorem not_over (h : s.FetchIssued p) : ¬ ((s.page p).st != .fetching || (s.page p).issued.isNone) = true := by
  simp [h.fetching, Option.isNone_eq_false_iff.mpr h.issued]

/-- What an issued fetch does at its end: it waits for the twin, then for the repair of its place, and else finishes. -/
theorem fetchComplete_eq (h : s.FetchIssued p) : fetchCompleteEffect p bad fixed time errs s =
    let t := s.unreadAsked p bad
    if s.unreadWaits p bad then t
    else if !(s.mendedSectors p bad fixed).isEmpty && t.inRepair p then
      { t with str := { t.str with reuse := (t.str.reuse ++ [p]).eraseDups } }
    else ((t.learn p).mendSectors p (s.mendedSectors p bad fixed)).finishFetch p (s.unreadSectors p bad) time errs :=
  if_neg h.not_over

theorem fetchComplete_waits (h : s.FetchIssued p) (hwaits : s.unreadWaits p bad = true) :
    fetchCompleteEffect p bad fixed time errs s = s.unreadAsked p bad :=
  h.fetchComplete_eq.trans (if_pos hwaits)

/-- A fetch that finds its place under repair takes that repair's result (09 R249). -/
theorem fetchComplete_repairing (h : s.FetchIssued p) (hwaits : s.unreadWaits p bad = false)
    (hmended : s.mendedSectors p bad fixed ≠ []) (hrepair : (s.unreadAsked p bad).inRepair p = true) :
    fetchCompleteEffect p bad fixed time errs s =
      { s.unreadAsked p bad with str := { (s.unreadAsked p bad).str with
        reuse := ((s.unreadAsked p bad).str.reuse ++ [p]).eraseDups } } := by
  have hreuse : (!(s.mendedSectors p bad fixed).isEmpty && (s.unreadAsked p bad).inRepair p) = true := by
    simp [hmended, hrepair]
  exact h.fetchComplete_eq.trans ((if_neg (ne_true_of_eq_false hwaits)).trans (if_pos hreuse))

theorem fetchComplete_finishes (h : s.FetchIssued p) (hwaits : s.unreadWaits p bad = false)
    (hfree : s.mendedSectors p bad fixed = [] ∨ (s.unreadAsked p bad).inRepair p = false) :
    fetchCompleteEffect p bad fixed time errs s =
      (((s.unreadAsked p bad).learn p).mendSectors p (s.mendedSectors p bad fixed)).finishFetch p
        (s.unreadSectors p bad) time errs := by
  have hreuse : ¬ (!(s.mendedSectors p bad fixed).isEmpty && (s.unreadAsked p bad).inRepair p) = true := by
    rcases hfree with hfree | hfree <;> simp [hfree]
  exact h.fetchComplete_eq.trans ((if_neg (ne_true_of_eq_false hwaits)).trans (if_neg hreuse))

/-- Rows past solving come before the fetch's own end: the twin is asked for them, and they are treated once the fetch is over. -/
theorem fetchEnds_eq (h : s.FetchIssued p) : fetchEndsEffect p bad fixed time errs s =
    if (s.fetchRows p bad).isEmpty then fetchCompleteEffect p bad fixed time errs s
    else if s.rowsWait p bad then s.askSectors (s.rowSectors p bad)
    else
      let t := fetchCompleteEffect p bad fixed time errs (s.askSectors (s.rowSectors p bad))
      if (t.page p).st == .fetching then t else t.treatRows (s.leaf p).set (some p) (s.fetchRows p bad) id :=
  if_neg h.not_over

theorem fetchEnds_of_no_rows (h : s.FetchIssued p) (hrows : s.fetchRows p bad = []) :
    fetchEndsEffect p bad fixed time errs s = fetchCompleteEffect p bad fixed time errs s :=
  h.fetchEnds_eq.trans (if_pos (List.isEmpty_iff.mpr hrows))

theorem fetchEnds_rows_wait (h : s.FetchIssued p) (hrows : s.fetchRows p bad ≠ []) (hwait : s.rowsWait p bad = true) :
    fetchEndsEffect p bad fixed time errs s = s.askSectors (s.rowSectors p bad) :=
  h.fetchEnds_eq.trans ((if_neg (mt List.isEmpty_iff.mp hrows)).trans (if_pos hwait))

/-- The rows' answers are there: the fetch itself goes on, and its rows wait for its end. -/
theorem fetchEnds_rows_answered (h : s.FetchIssued p) (hrows : s.fetchRows p bad ≠ []) (hwait : s.rowsWait p bad = false) :
    fetchEndsEffect p bad fixed time errs s =
      let t := fetchCompleteEffect p bad fixed time errs (s.askSectors (s.rowSectors p bad))
      if (t.page p).st == .fetching then t else t.treatRows (s.leaf p).set (some p) (s.fetchRows p bad) id :=
  h.fetchEnds_eq.trans ((if_neg (mt List.isEmpty_iff.mp hrows)).trans (if_neg (ne_true_of_eq_false hwait)))

end Chip.FetchIssued

end Fetch

/-! ### Eviction (08 R194 to R196) -/

section Evict

variable {s : Chip} {p : Nat}

theorem evictionConfirmedEffect_evicting (hst : (s.page p).st = .evicting) : evictionConfirmedEffect p s =
    if s.pinnedPage p then s.setPage p { s.page p with st := .clean } else ((s.releaseFrame p).issueFetches).evict :=
  if_neg (by simp [hst])

/-- A clean COLD page that is not pinned goes the way of every page sent to EVICTING. -/
theorem coldHoldEffect_cold (hst : (s.page p).st = .clean) (hcold : s.classOf p = 2) (hpin : (s.page p).pinned = false) :
    coldHoldEffect p s = s.evictPage p :=
  if_pos (by simp [hst, hcold, hpin])

theorem Chip.evictPage_idle (h : s.atomicOn p = false) : s.evictPage p = s.setPage p { s.page p with st := .evicting } :=
  if_neg (ne_true_of_eq_false h)

theorem Chip.evictPage_atomic (h : s.atomicOn p = true) : s.evictPage p = s := if_pos h

end Evict

/-! ### The statement -/

/-- Settles O24: a fetch by whether its rows can be solved, what the twin has answered and its place's repair; an evicted page by
its pin, and a COLD one by the atomic on it. -/
theorem pageCommandsComplete : Obligations.PageCommandsComplete := by
  unfold Obligations.PageCommandsComplete
  refine ⟨fun s p time bad fixed errs hst hissued => ?fetch, fun s p hst => ⟨fun hpin => ?release, fun hpin => ?keep⟩,
    fun s p hst hcold hpin => ⟨fun hatomic => ?idle, fun hatomic => ?atomic⟩⟩
  case fetch =>
    have h : s.chip.FetchIssued p := ⟨hst, hissued⟩
    refine ⟨fun hrows hwaits => ?asks, fun hrows hwaits hmended hrepair => ?repairing, fun hrows hwaits hfree => ?finishes,
      fun hrows hwait => ?rowsWait, fun hrows hwait => ⟨fun hopen => ?stillFetching, fun hdone => ?treated⟩⟩
    case asks => exact next_on_congr ((h.fetchEnds_of_no_rows hrows).trans (h.fetchComplete_waits hwaits))
    case repairing =>
      exact next_on_congr ((h.fetchEnds_of_no_rows hrows).trans (h.fetchComplete_repairing hwaits hmended hrepair))
    case finishes => exact next_on_congr ((h.fetchEnds_of_no_rows hrows).trans (h.fetchComplete_finishes hwaits hfree))
    case rowsWait => exact next_on_congr (g := fun _ => _) (h.fetchEnds_rows_wait hrows hwait)
    case stillFetching =>
      exact next_on_congr (g := fun _ => _) ((h.fetchEnds_rows_answered hrows hwait).trans (if_pos (beq_iff_eq.mpr hopen)))
    case treated =>
      exact next_on_congr (g := fun _ => _)
        ((h.fetchEnds_rows_answered hrows hwait).trans (if_neg (mt beq_iff_eq.mp hdone)))
  case release =>
    exact next_on_congr ((evictionConfirmedEffect_evicting hst).trans (if_neg (ne_true_of_eq_false hpin)))
  case keep => exact next_on_congr ((evictionConfirmedEffect_evicting hst).trans (if_pos hpin))
  case idle => exact next_on_congr ((coldHoldEffect_cold hst hcold hpin).trans (Chip.evictPage_idle hatomic))
  case atomic => exact next_on_self ((coldHoldEffect_cold hst hcold hpin).trans (Chip.evictPage_atomic hatomic))

end Sys2Proof.Machine
end

section
/-!
The destager: its choice for a set, a stripe that is written, sealed or abandoned, a checkpoint in force, and a map node that is
loaded (O26).
-/
namespace Sys2Proof.Machine

/-! ### The destager's choice (08 R210) -/

/-- The destager may write to a set: the set can be written, past its reserve or in a drain, and its journal has room. -/
structure Chip.Destages (s : Chip) (i : Nat) : Prop where
  writes : s.setWrites i = true
  may : s.mayDestage i = true
  room : (s.set i).journalFull = false

/-- The columns of the stripe that a set is filling. -/
def Chip.columnsOpen (s : Chip) (i : Nat) : Nat := ((s.set i).opened.map fun x => x.cols.length).getD 0

namespace Chip.Destages

variable {s : Chip} {i p : Nat} {errs : List (Nat × List (Nat × Byte))}

/-- The first page that can be taken is read; where no line of it starts a repair it joins the stripe, which is written when full,
and else waits for another page or closes early. -/
theorem choose_eq (h : s.Destages i) (hfirst : s.destageOrder.find? (s.takeable i) = some p) :
    destageChooseEffect i errs s =
      if (s.destageRead p errs).1 then (s.destageRead p errs).2
      else
        let t := (s.destageRead p errs).2.takePage i p errs
        if (s.set i).colsNow ≤ t.columnsOpen i then t.writeOpen i
        else if s.destageOrder.any (t.takeable i) then t
        else t.closeStripe i := by
  unfold destageChooseEffect
  simp only [h.writes, h.may, h.room, hfirst]
  rfl

theorem choose_repairs (h : s.Destages i) (hfirst : s.destageOrder.find? (s.takeable i) = some p)
    (hread : (s.destageRead p errs).1 = true) : destageChooseEffect i errs s = (s.destageRead p errs).2 :=
  (h.choose_eq hfirst).trans (if_pos hread)

theorem choose_full (h : s.Destages i) (hfirst : s.destageOrder.find? (s.takeable i) = some p)
    (hread : (s.destageRead p errs).1 = false)
    (hfull : (s.set i).colsNow ≤ ((s.destageRead p errs).2.takePage i p errs).columnsOpen i) :
    destageChooseEffect i errs s = ((s.destageRead p errs).2.takePage i p errs).writeOpen i :=
  (h.choose_eq hfirst).trans ((if_neg (ne_true_of_eq_false hread)).trans (if_pos hfull))

/-- A stripe with columns left stays open while another page can be taken, and closes early otherwise. -/
theorem choose_short (h : s.Destages i) (hfirst : s.destageOrder.find? (s.takeable i) = some p)
    (hread : (s.destageRead p errs).1 = false)
    (hshort : ((s.destageRead p errs).2.takePage i p errs).columnsOpen i < (s.set i).colsNow) :
    destageChooseEffect i errs s =
      let t := (s.destageRead p errs).2.takePage i p errs
      if s.destageOrder.any (t.takeable i) then t else t.closeStripe i :=
  (h.choose_eq hfirst).trans ((if_neg (ne_true_of_eq_false hread)).trans (if_neg (Nat.not_le.mpr hshort)))

/-- The stripe that waits for more pages is launched as it stands (08 R210). -/
theorem writeOpen_eq (h : s.Destages i) {x : Stripe} (hopen : (s.set i).opened = some x) (hcols : x.cols ≠ []) :
    s.writeOpen i = s.tryLaunch i (s.writeClass s.pgm.urgent) x := by
  simp [Chip.writeOpen, hopen, hcols, h.writes, h.may, h.room]

end Chip.Destages

/-! ### Stripes and checkpoints (09 R236, R238, R242) -/

section Ends

variable {s : Chip} {i : Nat} {x : Stripe}

theorem stripeSealedEffect_committed
    (h : ((s.set i).writing.find? fun y => y.pend.isEmpty && !y.failed && s.committed i y) = some x) :
    stripeSealedEffect i s = s.sealStripe i x := by
  unfold stripeSealedEffect
  rw [h]

theorem stripeAbandonedEffect_failed {rest : List Stripe} (hwriting : (s.set i).writing = x :: rest) (hfailed : x.failed = true) :
    stripeAbandonedEffect i s = s.abandonStripe i x := by
  simp [stripeAbandonedEffect, hwriting, hfailed]

/-- A checkpoint is in force once its CHECKPOINT record, the newest of the map set, has completed. -/
theorem checkpointWrittenEffect_done {c m : Nat} {r : JRec} (hrun : s.str.ckptRun = some c) (hrec : s.str.ckptRec = true)
    (hmap : s.mapSet = some m) (hlast : ((s.set m).jrecs.filter (·.type == 3)).getLast? = some r)
    (hdone : s.recordDone m r.seq = true) : checkpointWrittenEffect s = s.checkpointDone c := by
  unfold checkpointWrittenEffect
  simp only [hrun, hmap, Option.bind_some, hlast, Option.map_some, Option.all_some, hrec, hdone]
  rfl

end Ends

/-! ### Map nodes (08 R212 to R215) -/

section Nodes

variable {s : Chip} {level idx : Nat} {tries : List NodeWords}

/-- A map node is being read: one below the root, whose read was submitted and has not ended. -/
structure Chip.NodeReading (s : Chip) (level idx : Nat) : Prop where
  below : level < 3
  submitted : s.pgm.mapReads.contains (nodeKey level idx) = true

namespace Chip.NodeReading

theorem not_root (h : s.NodeReading level idx) : ¬ (level == 3) = true :=
  mt beq_iff_eq.mp (Nat.ne_of_lt h.below)

theorem not_unread (h : s.NodeReading level idx) :
    ¬ (decide (3 < level) || !s.pgm.mapReads.contains (nodeKey level idx)) = true := by
  rw [h.submitted, decide_eq_false (Nat.not_lt_of_gt h.below)]
  nofun

/-- The first entries whose every CHECK holds are taken into the map area. -/
theorem loaded_good (h : s.NodeReading level idx) {ws : NodeWords}
    (hgood : (tries.find? fun (t : NodeWords) => t.all fun e => wordGood e.2) = some ws) :
    mapNodeLoadedEffect level idx tries s = (s.takeWords level idx ws).tookNode level idx := by
  unfold mapNodeLoadedEffect
  rw [if_neg h.not_root, if_neg h.not_unread, hgood]

/-- Where no entries hold, the pages below the node lose their sectors, and the node counts as loaded all the same. -/
theorem loaded_lost (h : s.NodeReading level idx)
    (hnone : (tries.find? fun (t : NodeWords) => t.all fun e => wordGood e.2) = none) :
    mapNodeLoadedEffect level idx tries s = (s.loseNode level idx).tookNode level idx := by
  unfold mapNodeLoadedEffect
  rw [if_neg h.not_root, if_neg h.not_unread, hnone]

end Chip.NodeReading

theorem mapNodeLoadedEffect_root {m : Nat} (hmap : s.mapSet = some m) (hup : s.setUp m = true) :
    mapNodeLoadedEffect 3 idx tries s = ({ s with pgm := { s.pgm with root := true } }.loadMap).issueFetches := by
  simp [mapNodeLoadedEffect, hmap, hup]

end Nodes

/-! ### The statement -/

/-- Settles O26: a choice by what the read of the first page found and by the columns that the stripe has then; each of the other
commands by its effect's own lemma. -/
theorem destageCommandsComplete : Obligations.DestageCommandsComplete := by
  unfold Obligations.DestageCommandsComplete
  refine ⟨fun s i p errs hwrites hmay hroom hfirst => ?choose, fun s i x hopen hcols hwrites hmay hroom => ?expires,
    fun s i x hfirst => ?sealed, fun s i x rest hwriting hfailed => ?abandoned,
    fun s c m r hrun hrec hmap hlast hdone => ?checkpoint,
    fun s level idx tries hlevel hread => ⟨fun ws hgood => ?node, fun hnone => ?lostNode⟩, fun s idx m tries hmap hup => ?root⟩
  case choose =>
    have h : s.chip.Destages i := ⟨hwrites, hmay, hroom⟩
    refine ⟨fun hread => ?repairs, fun hread hfull => ?full, fun hread hshort hmore => ?fills, fun hread hshort hlast => ?closes⟩
    case repairs => exact next_on_congr (h.choose_repairs hfirst hread)
    case full => exact next_on_congr (h.choose_full hfirst hread hfull)
    case fills => exact next_on_congr ((h.choose_short hfirst hread hshort).trans (if_pos hmore))
    case closes => exact next_on_congr ((h.choose_short hfirst hread hshort).trans (if_neg (ne_true_of_eq_false hlast)))
  case expires =>
    have h : s.chip.Destages i := ⟨hwrites, hmay, hroom⟩
    exact next_on_congr (h.writeOpen_eq hopen hcols)
  case sealed => exact next_on_congr (stripeSealedEffect_committed hfirst)
  case abandoned => exact next_on_congr (stripeAbandonedEffect_failed hwriting hfailed)
  case checkpoint => exact next_on_congr (checkpointWrittenEffect_done hrun hrec hmap hlast hdone)
  case node => exact next_on_congr (Chip.NodeReading.loaded_good ⟨hlevel, hread⟩ hgood)
  case lostNode => exact next_on_congr (Chip.NodeReading.loaded_lost ⟨hlevel, hread⟩ hnone)
  case root => exact next_on_congr (mapNodeLoadedEffect_root hmap hup)

end Sys2Proof.Machine
end

section
/-!
Drive ports: presence, the link, errors, a command's end and its time limits, the logs read, and readiness (O27).
-/
namespace Sys2Proof.Machine

/-! ### A drive port updated -/

theorem Chip.drive_modDrive_same (s : Chip) (d : Nat) (f : Drive → Drive) : (s.modDrive d f).drive d = f (s.drive d) :=
  Tab.get_set_same _ _ _ _

/-- Two updates of a drive port are one, where neither leaves the blank port, whose row a table does not hold. -/
theorem Chip.modDrive_modDrive {s : Chip} {d : Nat} {f g : Drive → Drive} (hf : f (s.drive d) ≠ Drive.blank)
    (hg : g (f (s.drive d)) ≠ Drive.blank) : (s.modDrive d f).modDrive d g = s.modDrive d fun k => g (f k) := by
  have hrow : (s.modDrive d f).str.drives = Tab.ins s.str.drives d (f (s.drive d)) := if_neg hf
  have htab : Tab.set (s.modDrive d f).str.drives Drive.blank d (g ((s.modDrive d f).drive d)) =
      Tab.set s.str.drives Drive.blank d (g (f (s.drive d))) := by
    rw [Chip.drive_modDrive_same, hrow, Tab.set, if_neg hg, Tab.ins_ins, Tab.set, if_neg hg]
  exact congrArg (fun l => { s with str := { s.str with drives := l } }) htab

theorem Chip.portUsed_modDrive (s : Chip) (d : Nat) (f : Drive → Drive) (n : Nat) : (s.modDrive d f).portUsed n = s.portUsed n := rfl

theorem Chip.perstHeld_modDrive {s : Chip} {d : Nat} {f : Drive → Drive} (h : (f (s.drive d)).shut = (s.drive d).shut) :
    (s.modDrive d f).perstHeld d = s.perstHeld d := by
  simp only [Chip.perstHeld, Chip.drive_modDrive_same, h]
  rfl

/-! ### Presence (09 R221, R223) -/

section Presence

variable {s : Chip} {d : Nat} {pin : Bool}

theorem Chip.lt_nDrives_of_portUsed (h : s.portUsed d = true) : d < s.nDrives := by
  simp only [Chip.portUsed, Bool.and_eq_true, decide_eq_true_eq] at h
  obtain ⟨⟨hlt, -⟩, -⟩ := h
  exact hlt

/-- A pin that moves is kept, and presence judged by it: where the two agree that is all. -/
theorem presenceEffect_eq (h : d < s.nDrives) : presenceEffect d pin s =
    let t := s.modDrive d fun k => { k with pin := pin }
    if (pin && s.portUsed d) = (s.drive d).present then t
    else if (pin && s.portUsed d) = true then
      t.modDrive d fun k => { Drive.blank with pin := true, present := true, perst := t.perstHeld d, shut := k.shut }
    else (t.loseDrive d).modDrive d fun k => { Drive.blank with pin := k.pin, perst := k.perst, shut := k.shut } := by
  simp only [presenceEffect, Nat.not_le.mpr h, Chip.judgePresence, Chip.drive_modDrive_same, Chip.portUsed_modDrive, beq_iff_eq,
    if_false]

/-- A drive that comes starts as a blank port, with its line low for a reason that stands. -/
theorem presenceEffect_comes (hused : s.portUsed d = true) (habsent : (s.drive d).present = false) :
    presenceEffect d true s = s.modDrive d fun k =>
      { Drive.blank with pin := true, present := true, perst := s.perstHeld d, shut := k.shut } := by
  have hpin {k : Drive} (h : k.pin = true) : k ≠ Drive.blank := fun e => by simp [e, Drive.blank] at h
  have hheld : (s.modDrive d fun k => { k with pin := true }).perstHeld d = s.perstHeld d := Chip.perstHeld_modDrive rfl
  rw [presenceEffect_eq (Chip.lt_nDrives_of_portUsed hused)]
  simp only [hused, habsent, hheld, Bool.and_true, Bool.true_eq_false, if_false, if_true]
  exact Chip.modDrive_modDrive (hpin rfl) (hpin rfl)

theorem presenceEffect_goes (hused : s.portUsed d = true) (hpresent : (s.drive d).present = true) :
    presenceEffect d false s = ((s.modDrive d fun k => { k with pin := false }).loseDrive d).modDrive d fun k =>
      { Drive.blank with pin := k.pin, perst := k.perst, shut := k.shut } := by
  simp [presenceEffect_eq (Chip.lt_nDrives_of_portUsed hused), hpresent]

/-- The pin of a port that is not used is kept and ignored. -/
theorem presenceEffect_unused (hlt : d < s.nDrives) (hunused : s.portUsed d = false) (habsent : (s.drive d).present = false) :
    presenceEffect d pin s = s.modDrive d fun k => { k with pin := pin } := by
  simp [presenceEffect_eq hlt, hunused, habsent]

end Presence

/-! ### The link (09 R222, R223) -/

/-- A drive port's link may train: its drive is there and out of reset, on a port in use. -/
structure Chip.LinkTrains (s : Chip) (d : Nat) : Prop where
  present : (s.drive d).present = true
  used : s.portUsed d = true
  released : (s.drive d).perst = false
  idle : (s.drive d).pulse = false

/-- The lanes that a drive port is configured for (09 R221). -/
def Chip.lanes (s : Chip) (d : Nat) : Nat := if s.bifurcated d then 2 else 4

/-- The link of a drive port up, with what it has trained to. -/
def Chip.linkUp (s : Chip) (d width rate : Nat) (flit : Bool) : Chip :=
  let r := s.linkRate d rate
  s.modDrive d fun k => { k with up := true, width := width, rate := r, flit := r == 2 || flit, enabled := true }

namespace Chip.LinkTrains

variable {s : Chip} {d width rate : Nat} {up flit : Bool}

/-- A link that comes up is set up, after a report where it is narrower than configured; one that is lost starts a reset pulse, and
its commands wait to be issued again. -/
theorem driveLink_eq (h : s.LinkTrains d) : driveLinkEffect d up width rate flit s =
    if up then
      let t := s.linkUp d width rate flit
      let u := if width < s.lanes d then
          t.raise 8 (d / 2) 2 2 0 [BitVec.ofNat 8 d, BitVec.ofNat 8 width, BitVec.ofNat 8 (s.linkRate d rate)]
        else t
      (u.beginSetUp d).submitAll d
    else s.modDrive d fun k => { k.requeue with up := false, ready := false, enabled := false, pulse := true } :=
  if_neg (by simp [h.present, h.used, h.released, h.idle])

theorem driveLink_full (h : s.LinkTrains d) (hwidth : s.lanes d ≤ width) :
    driveLinkEffect d true width rate flit s = ((s.linkUp d width rate flit).beginSetUp d).submitAll d := by
  simp only [h.driveLink_eq, Nat.not_lt.mpr hwidth, if_true, if_false]

theorem driveLink_narrow (h : s.LinkTrains d) (hwidth : width < s.lanes d) :
    driveLinkEffect d true width rate flit s =
      (((s.linkUp d width rate flit).raise 8 (d / 2) 2 2 0
        [BitVec.ofNat 8 d, BitVec.ofNat 8 width, BitVec.ofNat 8 (s.linkRate d rate)]).beginSetUp d).submitAll d := by
  simp only [h.driveLink_eq, hwidth, if_true]

theorem driveLink_down (h : s.LinkTrains d) : driveLinkEffect d false width rate flit s =
    s.modDrive d fun k => { k.requeue with up := false, ready := false, enabled := false, pulse := true } :=
  h.driveLink_eq.trans (if_neg Bool.false_ne_true)

end Chip.LinkTrains

/-! ### Errors and time limits of a link and a controller (09 R222, R227, R228) -/

section Limits

variable {s : Chip} {d cid : Nat}

theorem aerEffect_correctable (hpresent : (s.drive d).present = true) : aerEffect d .correctable s = s.aerCount d 0 := by
  simp [aerEffect, hpresent]

theorem aerEffect_fatal (hpresent : (s.drive d).present = true) :
    aerEffect d .fatal s = (s.aerCount d 2).modDrive d fun k => { k with up := false } := by
  simp [aerEffect, hpresent]

/-- A command that fails for the first time is the next one issued. -/
theorem aerEffect_nonFatal {c : DriveCmd} (hpresent : (s.drive d).present = true)
    (hcmd : ((s.drive d).cmds.find? fun (e : Nat × DriveCmd) => e.1 == cid) = some (cid, c)) (hfirst : c.again = false) :
    aerEffect d (.nonFatal cid) s = ((s.aerCount d 1).modDrive d fun k =>
      { k with cmds := k.cmds.filter (·.1 != cid), waitCmds := { c with again := true } :: k.waitCmds }).submitAll d := by
  simp [aerEffect, hpresent, hcmd, hfirst]

theorem retrainTimeoutEffect_down (hpresent : (s.drive d).present = true) (hdown : (s.drive d).up = false)
    (hkept : (s.drive d).lost = false) :
    retrainTimeoutEffect d s = (s.loseDrive d).modDrive d fun k => { k with pulse := true } :=
  if_pos (by simp [hpresent, hdown, hkept])

theorem controllerTimeoutEffect_unready (hpresent : (s.drive d).present = true) (hunready : (s.drive d).ready = false)
    (hkept : (s.drive d).lost = false) (hreleased : (s.drive d).perst = false) : controllerTimeoutEffect d s = s.loseDrive d :=
  if_pos (by simp [hpresent, hunready, hkept, hreleased])

/-- The first command of a drive port to pass its limit resets the controller, and its commands wait to be issued again. -/
theorem nvmeTimeoutEffect_first (hcmd : ((s.drive d).cmds.any fun e => e.1 == cid) = true) (hresets : (s.drive d).resets = []) :
    nvmeTimeoutEffect d cid s = (((s.modDrive d fun k => { k.requeue with ready := false, resets := [s.now] }).emit
      (.nvmeCtl d false false)).emit (.nvmeCtl d true false)).beginSetUp d := by
  unfold nvmeTimeoutEffect
  simp [hcmd, hresets]

end Limits

/-! ### A command's end (09 R224, R231, R236) -/

/-- A command taken off the outstanding ones of a drive port. -/
def Chip.dropCmd (s : Chip) (d cid : Nat) : Chip := s.modDrive d fun k => { k with cmds := k.cmds.filter (·.1 != cid) }

section CommandEnds

variable {s : Chip} {d cid : Nat} {c : DriveCmd}

/-- A command that succeeds lets its use go on, and then does what its opcode says. -/
theorem Chip.cmdEnds_success :
    s.cmdEnds d cid c .success = (((s.dropCmd d cid).used d c true).adminDone d c.cmd).submitAll d := by
  simp [Chip.cmdEnds, Chip.dropCmd]

/-- A conflict fences the unit; only a FLUSH would count as done. -/
theorem Chip.cmdEnds_conflict (hflush : c.cmd ≠ .flush) :
    s.cmdEnds d cid c .conflict = ((s.dropCmd d cid).used d c false).conflicted.submitAll d := by
  simp [Chip.cmdEnds, Chip.dropCmd, hflush]

theorem Chip.used_none {ok : Bool} (h : c.use = .none) : s.used d c ok = s := by
  unfold Chip.used
  rw [h]

theorem Chip.used_stripe {ok : Bool} {seq i p : Nat} (h : c.use = .stripe seq) (hmember : s.memberOf d = some (i, p)) :
    s.used d c ok = s.writeEnded i p seq ok := by
  unfold Chip.used
  simp only [h, hmember]

variable (h : ((s.drive d).cmds.find? fun (e : Nat × DriveCmd) => e.1 == cid) = some (cid, c))
include h

theorem nvmeCompleteEffect_found (st : NvmeStatus) : nvmeCompleteEffect d cid st s = s.cmdEnds d cid c st := by
  unfold nvmeCompleteEffect
  rw [h]

theorem nvmeCompleteEffect_read {lba n : Nat} (hcmd : c.cmd = .read lba n) (huse : c.use = .none) :
    nvmeCompleteEffect d cid .success s = (s.dropCmd d cid).submitAll d := by
  rw [nvmeCompleteEffect_found h, Chip.cmdEnds_success, Chip.used_none huse, hcmd]
  rfl

theorem nvmeCompleteEffect_stripe {i p seq lba n : Nat} {data : List Byte}
    (hcmd : c.cmd = .write lba n data) (huse : c.use = .stripe seq) (hmember : (s.dropCmd d cid).memberOf d = some (i, p)) :
    nvmeCompleteEffect d cid .success s = ((s.dropCmd d cid).writeEnded i p seq true).submitAll d := by
  rw [nvmeCompleteEffect_found h, Chip.cmdEnds_success, Chip.used_stripe huse hmember, hcmd]
  rfl

theorem nvmeCompleteEffect_acquire {key : BitVec 64} (hcmd : c.cmd = .acquire key) (huse : c.use = .none) :
    nvmeCompleteEffect d cid .success s =
      ((s.dropCmd d cid).modDrive d fun k => { k with holder := true }).submitAll d := by
  rw [nvmeCompleteEffect_found h, Chip.cmdEnds_success, Chip.used_none huse, hcmd]
  rfl

theorem nvmeCompleteEffect_conflict (hflush : c.cmd ≠ .flush) (huse : c.use = .none) :
    nvmeCompleteEffect d cid .conflict s = (s.dropCmd d cid).conflicted.submitAll d := by
  rw [nvmeCompleteEffect_found h, Chip.cmdEnds_conflict hflush, Chip.used_none huse]

end CommandEnds

/-! ### Logs and critical warnings (09 R224) -/

section Warnings

variable {s : Chip} {d w : Nat}

theorem Chip.smart_ready (hready : (s.drive d).ready = true) (hon : s.drivesOn = true) :
    s.smart d w = ((s.critical d w).admin d .errorLog).admin d .smartLog :=
  if_neg (by simp [hready, hon])

theorem Chip.critical_zero : s.critical d 0 = s.modDrive d fun k => { k with warn := 0 } := rfl

theorem Chip.critical_warns (hpos : 0 < w) (hlt : w < 256) : s.critical d w =
    (s.modDrive d fun k => { k with warn := w }).raise 8 (d / 2) 3 2 0 [BitVec.ofNat 8 d, BitVec.ofNat 8 w] := by
  simp [Chip.critical, Nat.mod_eq_of_lt hlt, Nat.ne_of_gt hpos]

end Warnings

/-! ### Readiness (09 R226, R228, R230) -/

/-- A drive port is on the way to readiness: its link is up, and it is neither refused nor ready, where drives may be set up. -/
structure Chip.SetsUp (s : Chip) (d : Nat) : Prop extends s.LinkTrains d where
  linked : (s.drive d).up = true
  accepted : (s.drive d).refused = false
  unready : (s.drive d).ready = false
  on : s.setUpOn = true

/-- A drive port ready, with what its drive has reported. -/
def Chip.driveUp (s : Chip) (d : Nat) (f : DriveInfo) : Chip :=
  (s.finishSetUp d f).modDrive d fun k =>
    { k with ready := true, lost := false, label := f.label, size := f.size, serial := f.serial,
             pairs := Nat.min 16 f.queues, queue := 0 }

/-- What a drive that has become ready starts: in a takeover it is preempted, unless this unit holds it or it has no position. -/
def Chip.readyGoesOn (s : Chip) (d : Nat) : Chip :=
  ((if s.glb.state = .takeover ∧ (s.drive d).holder = false ∧ s.holds d ≠ [] then s.preempt d else s).submitAll d).issueFetches

namespace Chip.SetsUp

variable {s : Chip} {d : Nat} {f : DriveInfo}

theorem not_barred (h : s.SetsUp d) :
    ¬ (!(s.drive d).present || (s.drive d).perst || (s.drive d).pulse || !(s.drive d).up || (s.drive d).refused ||
      (s.drive d).ready || !s.portUsed d || !s.setUpOn) = true := by
  simp [h.present, h.released, h.idle, h.linked, h.accepted, h.unready, h.used, h.on]

theorem driveReady_blank (h : s.SetsUp d) (hok : driveRefusal f = none) (hlabel : f.label = none) :
    driveReadyEffect d f s = (s.driveUp d f).readyGoesOn d := by
  unfold driveReadyEffect
  simp [h.not_barred, hok, hlabel, Chip.driveUp, Chip.readyGoesOn]

theorem driveReady_labelled {l : Label} (h : s.SetsUp d) (hok : driveRefusal f = none) (hlabel : f.label = some l) :
    driveReadyEffect d f s = ((s.driveUp d f).member d l).readyGoesOn d := by
  unfold driveReadyEffect
  simp [h.not_barred, hok, hlabel, Chip.driveUp, Chip.readyGoesOn]

theorem driveReady_refused {r : Nat} (h : s.SetsUp d) (hbad : driveRefusal f = some r) :
    driveReadyEffect d f s = ((s.finishSetUp d f).modDrive d fun k => { k with refused := true }).raise 8 (d / 2) 1 2 0
      [BitVec.ofNat 8 d, BitVec.ofNat 8 r] := by
  unfold driveReadyEffect
  simp [h.not_barred, hbad]

end Chip.SetsUp

/-! ### The statement -/

/-- Settles O27: each event of a drive port by its effect's own lemma; a command's end by the use and the opcode of the command. -/
theorem driveCommandsComplete : Obligations.DriveCommandsComplete := by
  unfold Obligations.DriveCommandsComplete
  refine ⟨fun s d hused habsent => ?comes, fun s d hused hpresent => ?goes, fun s d pin hlt hunused habsent => ?unused,
    fun s => ?delay, fun s d hpresent hused hreleased hidle width rate flit => ?link, fun s d hpresent => ?errors,
    fun s d hpresent hdown hkept => ?retrain, fun s d hpresent hunready hkept hreleased => ?controller, fun s d => ?pulse,
    fun s d cid c hcmd => ?command, fun s d cid hcmd hresets => ?timeout, fun s d hready hon => ?warning, fun s ws => ?poll,
    fun s d f hpresent hreleased hidle hlinked haccepted hunready hused hon => ?ready⟩
  case comes => exact next_on_congr (presenceEffect_comes hused habsent)
  case goes => exact next_on_congr (presenceEffect_goes hused hpresent)
  case unused => exact next_on_congr (presenceEffect_unused hlt hunused habsent)
  case delay => rfl
  case link =>
    have h : s.chip.LinkTrains d := ⟨hpresent, hused, hreleased, hidle⟩
    exact ⟨fun hwidth => next_on_congr (h.driveLink_full hwidth), fun hwidth => next_on_congr (h.driveLink_narrow hwidth),
      next_on_congr h.driveLink_down⟩
  case errors =>
    exact ⟨next_on_congr (aerEffect_correctable hpresent),
      fun cid c hcmd hfirst => next_on_congr (aerEffect_nonFatal hpresent hcmd hfirst),
      next_on_congr (aerEffect_fatal hpresent)⟩
  case retrain => exact next_on_congr (retrainTimeoutEffect_down hpresent hdown hkept)
  case controller => exact next_on_congr (controllerTimeoutEffect_unready hpresent hunready hkept hreleased)
  case pulse => rfl
  case command =>
    refine ⟨fun lba n hread huse => ?read, fun i p seq lba n data hwrite huse hmember => ?stripe,
      fun key hacquire huse => ?acquire, fun hflush huse => ?conflict⟩
    case read => exact next_on_congr (nvmeCompleteEffect_read hcmd hread huse)
    case stripe => exact next_on_congr (nvmeCompleteEffect_stripe hcmd hwrite huse hmember)
    case acquire => exact next_on_congr (nvmeCompleteEffect_acquire hcmd hacquire huse)
    case conflict => exact next_on_congr (nvmeCompleteEffect_conflict hcmd hflush huse)
  case timeout => exact next_on_congr (nvmeTimeoutEffect_first hcmd hresets)
  case warning =>
    have hlogs {w : Nat} {t : Chip} (hcritical : s.chip.critical d w = t) :
        s.chip.smart d w = (t.admin d .errorLog).admin d .smartLog :=
      hcritical ▸ Chip.smart_ready hready hon
    exact ⟨next_on_congr (hlogs Chip.critical_zero), fun w hpos hlt => next_on_congr (hlogs (Chip.critical_warns hpos hlt))⟩
  case poll => rfl
  case ready =>
    have h : s.chip.SetsUp d := ⟨⟨hpresent, hused, hreleased, hidle⟩, hlinked, haccepted, hunready, hon⟩
    exact ⟨fun hok hlabel => next_on_congr (h.driveReady_blank hok hlabel),
      fun l hok hlabel => next_on_congr (h.driveReady_labelled hok hlabel),
      fun r hbad => next_on_congr (h.driveReady_refused hbad)⟩

end Sys2Proof.Machine
end

section
/-!
Stripe sets: a scan's end, the ready wait, a new journal position, rebuilds and their end, forming and patrol (O28).
-/
namespace Sys2Proof.Machine

/-! ### The journal check and scan (09 R247) -/

/-- A set's scan may end: at most the tolerated positions are missing, drives may be commanded, and no Read of the scan is left. -/
structure Chip.ScanEnds (s : Chip) (i : Nat) : Prop where
  on : (s.set i).cfg.on = true
  unscanned : (s.set i).scanned = false
  enough : (s.set i).missing.length ≤ (s.set i).cfg.tolerance
  drives : s.drivesOn = true
  idle : s.inFlight (.scan i) = false

namespace Chip.ScanEnds

variable {s : Chip} {i : Nat} {f : ScanInfo}

/-- Unless its slots are read already, or none are to be, a set's scan goes on with their Reads; then what it found is taken. -/
theorem setScan_eq (h : s.ScanEnds i) : setScanEffect i f s =
    let t := if (s.set i).slotScan || (s.scanSegs i f).isEmpty then s else s.scanReads i (s.scanSegs i f)
    if t.inFlight (.scan i) then t else (t.sealedRemaps f).takeScan i f :=
  if_neg (by simp [h.on, h.unscanned, Nat.not_lt.mpr h.enough, h.drives, h.idle])

theorem setScan_taken (h : s.ScanEnds i) (hslots : (s.set i).slotScan = true ∨ s.scanSegs i f = []) :
    setScanEffect i f s = (s.sealedRemaps f).takeScan i f := by
  have hread : ((s.set i).slotScan || (s.scanSegs i f).isEmpty) = true := by simpa using hslots
  simp only [h.setScan_eq, hread, h.idle, if_true, Bool.false_eq_true, if_false]

theorem setScan_reads (h : s.ScanEnds i) (hslots : (s.set i).slotScan = false) (hsegs : s.scanSegs i f ≠ [])
    (hreads : (s.scanReads i (s.scanSegs i f)).inFlight (.scan i) = true) :
    setScanEffect i f s = s.scanReads i (s.scanSegs i f) := by
  have hunread : ((s.set i).slotScan || (s.scanSegs i f).isEmpty) = false := by simp [hslots, hsegs]
  simp only [h.setScan_eq, hunread, hreads, if_true, Bool.false_eq_true, if_false]

end Chip.ScanEnds

/-! ### The ready wait and a new journal position (09 R241, Table 9-7) -/

section Waits

variable {s : Chip} {i : Nat}

theorem readyWaitEffect_waiting (hon : (s.set i).cfg.on = true) (hst : (s.set i).st = .waiting) (hpos : (s.set i).presentPos ≠ []) :
    readyWaitEffect i s = (s.modSet i fun x => { x with waited := true }).judgeSet i :=
  if_pos (by simp [hon, hst, hpos])

/-- The survivor's ring is copied to the first position that is there in another failure group. -/
theorem journalReplaceEffect_survivor {p q : Nat} {rest : List Nat} (hlive : (s.set i).jlive = [q]) (hup : s.setUp i = true)
    (hdrives : s.drivesOn = true) (hcopy : (s.set i).jcopy = none)
    (hfirst : ((s.set i).presentPos.filter fun p => p != q && (s.set i).cfg.fg.getD p 0 != (s.set i).cfg.fg.getD q 0) = p :: rest) :
    journalReplaceEffect i s = ((s.modSet i fun x => { x with jpos := [q, p] }).copyRing i p 0).ringCopied i := by
  simp only [journalReplaceEffect, hlive, hfirst, hup, hdrives, hcopy, Option.isNone_none, Bool.and_true, if_true]

end Waits

/-! ### Rebuilds (09 R252 to R254) -/

section Rebuilds

variable {s : Chip} {i p d : Nat}

/-- The lowest missing position is rebuilt onto the lowest fitting spare. -/
theorem Chip.autoRebuild_starts {ps ds : List Nat} (hst : (s.set i).st = .degraded) (hidle : (s.set i).rbState ≠ 1)
    (hstep : s.ecl.step < 4) (hdrives : s.drivesOn = true) (hmissing : (s.set i).missing = p :: ps)
    (hspares : ((bitsOf s.nDrives (s.par 0x900304)).filter (s.spareFits i)) = d :: ds) :
    s.autoRebuild i = s.startRebuild i p d := by
  simp [Chip.autoRebuild, hst, hidle, Nat.not_le.mpr hstep, hdrives, hmissing, hspares]

/-- A drive port may take a missing position of a set, where no rebuild of the set runs. -/
structure Chip.MayRebuild (s : Chip) (i p d : Nat) : Prop where
  on : (s.set i).cfg.on = true
  named : bit (s.set i).cfg.mask d = true ∨ bit (s.par 0x900304) d = true
  idle : (s.set i).rbState ≠ 1
  missing : (s.set i).missing.contains p = true
  fits : s.spareFits i d = true
  drives : s.drivesOn = true
  step : s.ecl.step < 4

/-- GO is written to STR_REBUILD_CTL, and the rebuild starts: of a DEGRADED set, or by force of a FAILED one. -/
theorem Chip.MayRebuild.rebuild_starts {force : Bool} {word : Nat} (h : s.MayRebuild i p d) (hi : i < 4) (hp : p < 32) (hd : d < 32)
    (hst : ((s.set i).st == .degraded || (force && (s.set i).st == .failed)) = true)
    (hword : i + p * 256 + d * 65536 + b2n force * 2 ^ 30 = word) :
    rebuildEffect force i p d s = (s.setPar 0x900328 word).startRebuild i p d := by
  have hmissing : p ∈ (s.set i).missing := by simpa using h.missing
  have hnamed : (bit (s.set i).cfg.mask d || bit (s.par 0x900304) d) = true := by simpa using h.named
  simp only [rebuildEffect, Nat.mod_eq_of_lt hi, Nat.mod_eq_of_lt hp, Nat.mod_eq_of_lt hd, hword]
  exact if_pos (by simp [h.on, hnamed, hst, h.idle, hmissing, h.fits, h.drives, h.step])

/-- A rebuild with no slot, Read or Write left ends. -/
theorem rebuildCompleteEffect_over (hruns : (s.set i).rbState = 1) (hleft : (s.set i).rebuildLeft = [])
    (hread : (s.set i).rbRead = none) (hlocks : ∀ e ∈ s.str.locks, e.1 = i → e.2.2.2.rebuild = false) :
    rebuildCompleteEffect i s = s.endRebuild i := by
  have hwrites : (s.str.locks.any fun e => e.1 == i && e.2.2.2.rebuild) = false := by simpa using hlocks
  exact if_neg (by simp [hruns, hleft, hread, hwrites])

end Rebuilds

/-! ### Forming and patrol (09 R234, R251) -/

section Control

variable {s : Chip} {i slot : Nat} {f : PatrolFinding} {lap : Option Nat}

/-- A set is formed from its pending configuration, as far as the limits admit it. -/
theorem formEffect_accepted (hi : i < 4)
    (h : s.formRefused i ((s.setPar 0x900300 i).clampSet i 1 ((s.setPar 0x900300 i).pendingCfg i)).1 = false) :
    formEffect i s =
      let c := (s.setPar 0x900300 i).clampSet i 1 ((s.setPar 0x900300 i).pendingCfg i)
      c.2.formSet i c.1 (s.formDrives c.1) := by
  simp only [formEffect, Nat.mod_eq_of_lt hi, h, Bool.false_eq_true, if_false]

/-- Patrol may visit a set: the set is up, drives may be commanded, and no visit runs. -/
structure Chip.Patrols (s : Chip) (i : Nat) : Prop where
  up : s.setUp i = true
  step : s.ecl.step < 4
  drives : s.drivesOn = true
  idle : (s.set i).visit = none

namespace Chip.Patrols

theorem not_barred (h : s.Patrols i) :
    ¬ (!s.setUp i || decide (4 ≤ s.ecl.step) || !s.drivesOn || (s.set i).visit.isSome) = true := by
  simp [h.up, Nat.not_le.mpr h.step, h.drives, h.idle]

theorem patrol_visits (h : s.Patrols i) (hnext : (s.set i).patrolNext = some slot) :
    patrolEffect i slot f lap s =
      ((s.modSet i fun x => { x with visit := some (slot, f, lap) }).patrolReads i slot).patrolGo i := by
  simp [patrolEffect, h.not_barred, hnext]

/-- Where no slot is sealed a lap ends at once. -/
theorem patrol_laps (h : s.Patrols i) (hnext : (s.set i).patrolNext = none) :
    patrolEffect i slot f lap s = s.patrolLap i lap := by
  simp [patrolEffect, h.not_barred, hnext]

end Chip.Patrols

end Control

/-! ### The statement -/

/-- Settles O28: each of the set's events and commands by its effect's own lemma; a scan by whether its slots are to be read, a
visit by whether a sealed slot is next. -/
theorem setCommandsComplete : Obligations.SetCommandsComplete := by
  unfold Obligations.SetCommandsComplete
  refine ⟨fun s i f hon hunscanned henough hdrives hidle => ?scan, fun s i hon hst hpos => ?readyWait,
    fun s i p q rest hlive hup hdrives hcopy hfirst => ?journal,
    fun s i p d ps ds hst hidle hstep hdrives hmissing hspares => ?auto,
    fun s q i p d hq hi hp hd hon hnamed hidle hmissing hfits hdrives hstep => ?rebuild,
    fun s i hruns hleft hread hlocks => ?complete, fun s q i hq hi haccepted => ?form,
    fun s i slot f lap hup hstep hdrives hidle => ?patrol⟩
  case scan =>
    have h : s.chip.ScanEnds i := ⟨hon, hunscanned, henough, hdrives, hidle⟩
    exact ⟨fun hslots => next_on_congr (h.setScan_taken hslots),
      fun hslots hsegs hreads => next_on_congr (h.setScan_reads hslots hsegs hreads)⟩
  case readyWait => exact next_on_congr (readyWaitEffect_waiting hon hst hpos)
  case journal => exact next_on_congr (journalReplaceEffect_survivor hlive hup hdrives hcopy hfirst)
  case auto => exact next_on_congr (Chip.autoRebuild_starts hst hidle hstep hdrives hmissing hspares)
  case rebuild =>
    have h : s.chip.MayRebuild i p d := ⟨hon, hnamed, hidle, hmissing, hfits, hdrives, hstep⟩
    refine ⟨fun hst => ?degraded, fun hst => ?forced⟩
    case degraded =>
      exact next_on_congr ((asRole_grants hq).trans (h.rebuild_starts (force := false) hi hp hd (by simp [hst]) (by simp [b2n])))
    case forced =>
      exact next_on_congr ((asRole_grants hq).trans (h.rebuild_starts (force := true) hi hp hd (by simpa using hst) (by simp [b2n])))
  case complete => exact next_on_congr (rebuildCompleteEffect_over hruns hleft hread hlocks)
  case form => exact next_on_congr (g := fun _ => _) ((asRole_grants hq).trans (formEffect_accepted hi haccepted))
  case patrol =>
    have h : s.chip.Patrols i := ⟨hup, hstep, hdrives, hidle⟩
    exact ⟨fun hnext => next_on_congr (h.patrol_visits hnext), fun hnext => next_on_congr (h.patrol_laps hnext)⟩

end Sys2Proof.Machine
end

section
/-!
DRAM temperature readings, refresh and the age of the write queue (O29).
-/
namespace Sys2Proof.Machine

/-! ### Temperature (10 R259, R268) -/

/-- A DIMM's reading entered in place of the one before it. -/
def Chip.tempEntered (s : Chip) (ch slot : Nat) (c : Int) : Chip :=
  s.modChan ch fun k => { k with temps := (slot, c) :: k.temps.filter fun e => e.1 != slot }

/-- The ranks of a channel judged, where it answers. -/
def Chip.judgedOn (s : Chip) (ch : Nat) : Chip := if s.chanOn ch then s.judgeRanks ch else s

section Readings

variable {s : Chip} {ch slot : Nat} {c : Int}

/-- A reading in a powered domain is entered, reported where it has reached the limit, and judged. -/
theorem Chip.hubReading_eq (hch : ch < s.nChans) (hon : s.domainOn (16 + ch / 3) = true) :
    s.hubReading ch slot c =
      (if (s.par 0xAE000C : Int) ≤ c then (s.tempEntered ch slot c).raise 0x0A ch 3 2 1 (le 1 slot ++ le 1 c.toNat)
        else s.tempEntered ch slot c).judgedOn ch :=
  if_neg (by simp [Nat.not_le.mpr hch, hon])

theorem Chip.hubReading_below (hch : ch < s.nChans) (hon : s.domainOn (16 + ch / 3) = true) (hc : c < (s.par 0xAE000C : Int)) :
    s.hubReading ch slot c = (s.tempEntered ch slot c).judgedOn ch := by
  rw [Chip.hubReading_eq hch hon, if_neg (Int.not_le.mpr hc)]

theorem Chip.hubReading_hot (hch : ch < s.nChans) (hon : s.domainOn (16 + ch / 3) = true) (hc : (s.par 0xAE000C : Int) ≤ c) :
    s.hubReading ch slot c =
      ((s.tempEntered ch slot c).raise 0x0A ch 3 2 1 (le 1 slot ++ le 1 c.toNat)).judgedOn ch := by
  rw [Chip.hubReading_eq hch hon, if_pos hc]

end Readings

/-! ### The debt of a rank (10 R269) -/

theorem Chip.chan_modChan_same (s : Chip) (n : Nat) (f : Channel → Channel) : (s.modChan n f).chan n = f (s.chan n) :=
  Tab.get_set_same _ _ _ _

theorem Chip.lowerRaa_debt (s : Chip) (ch r : Nat) : ((s.lowerRaa ch r).chan ch).debt = (s.chan ch).debt := by
  unfold Chip.lowerRaa
  split
  · rfl
  · rw [Chip.chan_modChan_same]

/-- A REFab lowers the debt of its rank by the tREFI in force. -/
theorem Chip.refab_debt (s : Chip) (ch r : Nat) :
    Tab.get ((s.refab ch r).chan ch).debt 0 r = Tab.get (s.chan ch).debt 0 r - (s.chan ch).trefi r := by
  rw [Chip.refab, Chip.lowerRaa_debt, Chip.chan_modChan_same]
  exact Tab.get_set_same _ _ _ _

/-! ### A refresh that is due (10 R269) -/

/-- A rank is refreshed by the device: its channel answers and is not in self-refresh. -/
structure Chip.Refreshes (s : Chip) (ch r : Nat) : Prop where
  on : s.chanOn ch = true
  rank : r < s.packRanks
  awake : (s.chan ch).selfRef = false

namespace Chip.Refreshes

variable {s : Chip} {ch r elapsed debt : Nat}

theorem not_barred (h : s.Refreshes ch r) : ¬ (!s.chanOn ch || decide (s.packRanks ≤ r) || (s.chan ch).selfRef) = true := by
  simp [h.on, Nat.not_le.mpr h.rank, h.awake]

/-- At the limit the REFab is forced and counted; a due one goes where neither class 1 nor, below twice tREFI, the next
requests hold it up; else the debt alone grows. -/
theorem refreshDue_eq (h : s.Refreshes ch r) (hdebt : Tab.get (s.chan ch).debt 0 r + elapsed = debt) :
    refreshDueEffect ch r elapsed s =
      if 4 * (s.chan ch).trefi r ≤ debt then ((s.setDebt ch r debt).refab ch r).count (0xA00014 + 0x10000 * ch)
      else if (s.chan ch).trefi r ≤ debt ∧ s.class1Waits ch r = false ∧
          (2 * (s.chan ch).trefi r ≤ debt ∨ s.soonFor ch r = false) then (s.setDebt ch r debt).refab ch r
      else s.setDebt ch r debt := by
  subst hdebt
  refine (if_neg h.not_barred).trans ?_
  split
  case isTrue hforce => simp [hforce]
  case isFalse hforce => simp [hforce, and_assoc]

theorem refreshDue_early (h : s.Refreshes ch r) (hdebt : Tab.get (s.chan ch).debt 0 r + elapsed = debt)
    (hearly : debt < (s.chan ch).trefi r) : refreshDueEffect ch r elapsed s = s.setDebt ch r debt := by
  rw [h.refreshDue_eq hdebt, if_neg (by omega), if_neg fun ⟨hdue, _⟩ => Nat.not_le.mpr hearly hdue]

theorem refreshDue_goes (h : s.Refreshes ch r) (hdebt : Tab.get (s.chan ch).debt 0 r + elapsed = debt)
    (hdue : (s.chan ch).trefi r ≤ debt) (hlimit : debt < 4 * (s.chan ch).trefi r) (hclass : s.class1Waits ch r = false)
    (hsoon : 2 * (s.chan ch).trefi r ≤ debt ∨ s.soonFor ch r = false) :
    refreshDueEffect ch r elapsed s = (s.setDebt ch r debt).refab ch r := by
  rw [h.refreshDue_eq hdebt, if_neg (Nat.not_le.mpr hlimit), if_pos ⟨hdue, hclass, hsoon⟩]

/-- A due refresh below the limit is held up by class 1, and below twice tREFI by the next requests too. -/
theorem refreshDue_held (h : s.Refreshes ch r) (hdebt : Tab.get (s.chan ch).debt 0 r + elapsed = debt)
    (hlimit : debt < 4 * (s.chan ch).trefi r)
    (hheld : s.class1Waits ch r = true ∨ (debt < 2 * (s.chan ch).trefi r ∧ s.soonFor ch r = true)) :
    refreshDueEffect ch r elapsed s = s.setDebt ch r debt := by
  rw [h.refreshDue_eq hdebt, if_neg (Nat.not_le.mpr hlimit), if_neg]
  rintro ⟨-, hclass, hsoon⟩
  rcases hheld with hwaits | ⟨hbelow, hnear⟩
  · simp [hclass] at hwaits
  · rcases hsoon with htwice | hclear
    · exact Nat.not_le.mpr hbelow htwice
    · simp [hclear] at hnear

theorem refreshDue_forced (h : s.Refreshes ch r) (hdebt : Tab.get (s.chan ch).debt 0 r + elapsed = debt)
    (hlimit : 4 * (s.chan ch).trefi r ≤ debt) :
    refreshDueEffect ch r elapsed s = ((s.setDebt ch r debt).refab ch r).count (0xA00014 + 0x10000 * ch) := by
  rw [h.refreshDue_eq hdebt, if_pos hlimit]

theorem refreshForced_eq (h : s.Refreshes ch r) : refreshForcedEffect ch r s =
    ((s.setDebt ch r (Nat.max (4 * (s.chan ch).trefi r) (Tab.get (s.chan ch).debt 0 r))).refab ch r).count
      (0xA00014 + 0x10000 * ch) :=
  if_neg h.not_barred

end Chip.Refreshes

/-! ### The write queue (10 R263) -/

theorem writeQueueAgeEffect_runs {s : Chip} {ch : Nat} (hon : s.chanOn ch = true) (hruns : (s.chan ch).stopped = false) :
    writeQueueAgeEffect ch s = s.writeBatch ch (if s.readWaiting ch then 16 else 0) :=
  if_neg (by simp [hon, hruns])

/-! ### The statement -/

/-- Settles O29: a reading by whether it has reached the limit, a due refresh by where its debt stands, and the debt that a REFab
leaves by what lowering the activation counts leaves alone. -/
theorem refreshCommandsComplete : Obligations.RefreshCommandsComplete := by
  unfold Obligations.RefreshCommandsComplete
  refine ⟨fun s ch slot c hch hon => ?reading, fun s doubled => ?mr4, fun s ch r elapsed hon hrank hawake => ?due,
    fun s ch r hon hrank hawake => ?forced, Chip.refab_debt, fun s ch hon hruns => ?aged⟩
  case reading =>
    exact ⟨fun hc => next_on_congr (Chip.hubReading_below hch hon hc), fun hc => next_on_congr (Chip.hubReading_hot hch hon hc)⟩
  case mr4 => rfl
  case due =>
    have h : s.chip.Refreshes ch r := ⟨hon, hrank, hawake⟩
    exact ⟨fun hearly => next_on_congr (h.refreshDue_early rfl hearly),
      fun hdue hlimit hclass hsoon => next_on_congr (h.refreshDue_goes rfl hdue hlimit hclass hsoon),
      fun hlimit hheld => next_on_congr (h.refreshDue_held rfl hlimit hheld),
      fun hlimit => next_on_congr (h.refreshDue_forced rfl hlimit)⟩
  case forced => exact next_on_congr (Chip.Refreshes.refreshForced_eq ⟨hon, hrank, hawake⟩)
  case aged => exact next_on_congr (writeQueueAgeEffect_runs hon hruns)

end Sys2Proof.Machine
end

section
/-!
Row-disturbance windows and throttles (O30).
-/
namespace Sys2Proof.Machine

/-- A throttle's spacing admits what is next of it. -/
theorem rdSpacingEffect_found {s : Chip} {ch c bank : Nat} {x : Throttle}
    (hfound : ((s.chan ch).throttles.find? fun t => t.conn == c && t.bank == bank) = some x) :
    rdSpacingEffect ch c bank s =
      x.next.foldl Chip.enqueue (s.modChan ch fun k => { k with throttles := k.throttles.map fun y =>
        if y.conn == c && y.bank == bank then { y with held := y.held.filter fun r => !x.next.contains r } else y }) := by
  simp only [rdSpacingEffect, hfound]

/-- A throttle admits the first request that it holds, and after it none but requests that it holds behind that one. -/
theorem Throttle.next_of_held {x : Throttle} {r : ChanReq} {rest : List ChanReq} (hheld : x.held = r :: rest) :
    ∃ l, x.next = r :: l ∧ ∀ y ∈ l, y ∈ rest := by
  refine ⟨(rest.filter (·.meets r)).takeWhile fun y => !x.own y, ?_, fun y hy => ?_⟩
  · simp only [Throttle.next, hheld]
  · exact (List.mem_filter.mp ((List.takeWhile_sublist _).subset hy)).1

/-- Settles O30: the window's end and the minimum time are their effects as they stand, the spacing goes by the throttle found,
and what it admits by the requests held. -/
theorem throttleCommandsComplete : Obligations.ThrottleCommandsComplete := by
  unfold Obligations.ThrottleCommandsComplete
  refine ⟨fun s => ?window, fun s ch c bank x hfound => ?spacing, fun x r rest => Throttle.next_of_held,
    fun s ch c bank => ?minimum⟩
  case window => rfl
  case spacing => exact next_on_congr (rdSpacingEffect_found hfound)
  case minimum => rfl

end Sys2Proof.Machine
end

section
/-!
The frequency change: its start, and the end of each channel's part (O31).
-/
namespace Sys2Proof.Machine

/-! ### GO (10 R274) -/

/-- The speed that a change goes to: the target as far as the population allows it. -/
def Chip.speedWithin (s : Chip) (given : Nat) : Nat := Nat.min given s.speedLimit

/-- A target above the limit is reported as a clamp. -/
def Chip.targetClamped (s : Chip) (given : Nat) : Chip :=
  if s.speedWithin given = given then s else s.clamped (regField 0xAE0020 0) given (s.speedWithin given) 1

/-- A frequency change to a speed under way, with no channel stopped yet. -/
def Chip.freqBegun (s : Chip) (v : Nat) : Chip :=
  { (s.setPar 0xAE0020 v).fillIdle v with dmc := { (s.fillIdle v).dmc with
      freqBusy := true, freqResult := 0, freqTarget := v, freqChan := 0, freqStop := false } }

/-- Where channels are in use, a change that may start stops the first of them. -/
theorem frequencyEffect_starts {s : Chip} (target : Nat) (hidle : s.dmc.freqBusy = false) (hmap : s.dmc.map ≠ [])
    (hst : s.glb.state = .active ∨ s.glb.state = .umbra) :
    frequencyEffect target s =
      ((s.targetClamped (target % 4)).freqBegun (s.speedWithin (target % 4))).stopChannel (s.dmc.map.headD 0) := by
  have hstate : (s.glb.state != .active && s.glb.state != .umbra) = false := by simpa using fun h => hst.resolve_left h
  have hclamp : s.targetClamped (target % 4) =
      if Nat.min (target % 4) s.speedLimit == target % 4 then s
      else s.clamped (regField 0xAE0020 0) (target % 4) (Nat.min (target % 4) s.speedLimit) 1 := by
    by_cases hsame : Nat.min (target % 4) s.speedLimit = target % 4
    · exact (if_pos hsame).trans (if_pos (beq_iff_eq.mpr hsame)).symm
    · exact (if_neg hsame).trans (if_neg (mt beq_iff_eq.mp hsame)).symm
  rw [hclamp]
  exact if_neg (by simp [hidle, hmap, hstate])

/-! ### The end of a channel's part (10 R275, Table 10-5) -/

/-- The first lane that re-centring has left below DMC_TRAIN_MIN_UI. -/
def Chip.failedLane (s : Chip) (ranks : List (List LaneEye)) : Option Nat :=
  ranks.findSome? fun r => r.findIdx? fun l => !s.lanePasses l

/-- The channel whose turn it is in a frequency change. -/
def Chip.freqChannel (s : Chip) : Nat := s.dmc.map.getD s.dmc.freqChan 0

/-- That channel on its new timing set, out of self-refresh. -/
def Chip.freqSwitched (s : Chip) (ranks : List (List LaneEye)) : Chip :=
  (s.modChan s.freqChannel fun k => { k.setIdle { speed := s.dmc.freqTarget, ranks } with
    setB := !k.setB, speed := s.dmc.freqTarget, pattern := none }).resumeChannel s.freqChannel

/-- The change over, with a result. -/
def Chip.freqOver (s : Chip) (result : Nat) : Chip := { s with dmc := { s.dmc with freqBusy := false, freqResult := result } }

section ChannelEnds

variable {s : Chip} {ranks : List (List LaneEye)}

/-- A lane that failed ends the change on the set before. -/
theorem channelFrequencyEffect_failed {lane : Nat} (hbusy : s.dmc.freqBusy = true) (hbad : s.failedLane ranks = some lane) :
    channelFrequencyEffect ranks s =
      ((s.resumeChannel s.freqChannel).freqOver 1).raise 0x0A s.freqChannel 6 2 0 (le 1 lane ++ le 1 1) := by
  unfold Chip.failedLane at hbad
  simp only [channelFrequencyEffect, hbusy, hbad]
  rfl

/-- Once its lanes pass, a channel switches; then the change has been stopped, is over, or goes to the next channel. -/
theorem channelFrequencyEffect_passed (hbusy : s.dmc.freqBusy = true) (hgood : s.failedLane ranks = none) :
    channelFrequencyEffect ranks s =
      let t := s.freqSwitched ranks
      if s.dmc.freqStop then t.freqOver 2
      else if s.dmc.map.length ≤ s.dmc.freqChan + 1 then t.freqOver 0
      else ({ t with dmc := { t.dmc with freqChan := s.dmc.freqChan + 1 } } : Chip).stopChannel
        (s.dmc.map.getD (s.dmc.freqChan + 1) 0) := by
  unfold Chip.failedLane at hgood
  simp only [channelFrequencyEffect, hbusy, hgood]
  rfl

theorem channelFrequencyEffect_stopped (hbusy : s.dmc.freqBusy = true) (hgood : s.failedLane ranks = none)
    (hstop : s.dmc.freqStop = true) : channelFrequencyEffect ranks s = (s.freqSwitched ranks).freqOver 2 :=
  (channelFrequencyEffect_passed hbusy hgood).trans (if_pos hstop)

theorem channelFrequencyEffect_last (hbusy : s.dmc.freqBusy = true) (hgood : s.failedLane ranks = none)
    (hstop : s.dmc.freqStop = false) (hlast : s.dmc.map.length ≤ s.dmc.freqChan + 1) :
    channelFrequencyEffect ranks s = (s.freqSwitched ranks).freqOver 0 :=
  (channelFrequencyEffect_passed hbusy hgood).trans ((if_neg (ne_true_of_eq_false hstop)).trans (if_pos hlast))

theorem channelFrequencyEffect_next (hbusy : s.dmc.freqBusy = true) (hgood : s.failedLane ranks = none)
    (hstop : s.dmc.freqStop = false) (hmore : s.dmc.freqChan + 1 < s.dmc.map.length) :
    channelFrequencyEffect ranks s =
      let t := s.freqSwitched ranks
      ({ t with dmc := { t.dmc with freqChan := s.dmc.freqChan + 1 } } : Chip).stopChannel
        (s.dmc.map.getD (s.dmc.freqChan + 1) 0) :=
  (channelFrequencyEffect_passed hbusy hgood).trans
    ((if_neg (ne_true_of_eq_false hstop)).trans (if_neg (Nat.not_le.mpr hmore)))

end ChannelEnds

/-! ### The statement -/

/-- Settles O31: GO by what it stops first; the end of a channel's part by the lane that failed, and where none did by whether the
change is stopped, the channel is the last, or another one follows. -/
theorem frequencyChangeCompletes : Obligations.FrequencyChangeCompletes := by
  unfold Obligations.FrequencyChangeCompletes
  refine ⟨fun s q target hq hidle hmap hst => ?go, fun s ranks hbusy => ?ends⟩
  case go => exact next_on_congr (g := fun _ => _) ((asRole_grants hq).trans (frequencyEffect_starts target hidle hmap hst))
  case ends =>
    exact ⟨fun lane hbad => next_on_congr (channelFrequencyEffect_failed hbusy hbad),
      fun hgood hstop hlast => next_on_congr (channelFrequencyEffect_last hbusy hgood hstop hlast),
      fun hgood hstop => next_on_congr (channelFrequencyEffect_stopped hbusy hgood hstop),
      fun hgood hmore hstop => next_on_congr (channelFrequencyEffect_next hbusy hgood hstop hmore)⟩

end Sys2Proof.Machine
end

section
/-!
The margin helpers: their start, their refusal and their end (O32).
-/
namespace Sys2Proof.Machine

/-! ### The commands of the helpers (10 Table 10-4) -/

/-- The margin commands, each with the code of its helper. -/
def marginCommands (q : Session) (m : MarginReq) : List (Instr × Nat) :=
  [(.readProbe q m, 0), (.pattern q m, 1), (.patternFull q m, 2), (.eyeSweep q m, 3), (.caSweep q m, 4)]

theorem exec_marginCommand {q : Session} {m : MarginReq} {c : Instr} {helper : Nat} (hc : (c, helper) ∈ marginCommands q m)
    (s : State) : exec c s = .next (s.on (marginCommand helper q m)) := by
  simp only [marginCommands, List.mem_cons, List.not_mem_nil, or_false, Prod.mk.injEq] at hc
  rcases hc with ⟨rfl, rfl⟩ | ⟨rfl, rfl⟩ | ⟨rfl, rfl⟩ | ⟨rfl, rfl⟩ | ⟨rfl, rfl⟩ <;> rfl

theorem marginCommands_code_le {q : Session} {m : MarginReq} {c : Instr} {helper : Nat} (hc : (c, helper) ∈ marginCommands q m) :
    helper ≤ 4 := by
  simp only [marginCommands, List.mem_cons, List.not_mem_nil, or_false, Prod.mk.injEq] at hc
  omega

/-- The effect of a command reaches a channel of the device whose domain is powered, whatever the role of its session. -/
theorem marginCommand_reaches {s : Chip} {q : Session} {m : MarginReq} (helper : Nat) (hq : s.sesLive q = true)
    (hon : s.domainOn (16 + m.ch / 3) = true) (hch : m.ch < s.nChans) :
    marginCommand helper q m s = marginEffect helper (s.ses q).role m s :=
  (if_neg (Nat.not_le.mpr hch)).trans (asRole_grants ⟨hq, hon, Nat.zero_le _⟩)

/-! ### A helper starts or is refused (10 R267) -/

/-- The states and the role that a helper asks for. -/
def Chip.helperMay (s : Chip) (helper role : Nat) : Prop :=
  (s.glb.state = .maintenance ∨ (helper = 0 ∧ (s.glb.state = .active ∨ s.glb.state = .umbra))) ∧
  (if helper = 2 ∨ helper = 4 then 3 else 2) ≤ role

/-- DMC_MARGIN_CTL written: the helper, the lane and the rank. -/
def Chip.helperGiven (s : Chip) (helper : Nat) (m : MarginReq) : Chip :=
  s.setPar (0xA00080 + 0x10000 * m.ch) (helper + m.lane * 16 + m.rank * 256)

/-- What GO checks before a helper runs. -/
def Chip.helperGate (s : Chip) (helper role : Nat) : Bool :=
  (s.glb.state == .maintenance || (helper == 0 && (s.glb.state == .active || s.glb.state == .umbra))) &&
  decide ((if helper == 2 || helper == 4 then 3 else 2) ≤ role) && decide (helper ≤ 4)

theorem Chip.helperGate_iff {s : Chip} {helper role : Nat} (hcode : helper ≤ 4) :
    s.helperGate helper role = true ↔ s.helperMay helper role := by
  simp [Chip.helperGate, Chip.helperMay, hcode]

section Starts

variable {s : Chip} {helper role : Nat} {m : MarginReq}

theorem marginEffect_idle (hidle : (s.chan m.ch).mgBusy = false) (hlane : m.lane < 16) (hrank : m.rank < 16) :
    marginEffect helper role m s =
      if s.helperGate helper role then ((s.helperGiven helper m).writePattern m.ch helper).modChan m.ch fun k =>
        { k with mgBusy := true, mgHelper := helper, mgResult := 0 }
      else (s.helperGiven helper m).modChan m.ch fun k => { k with mgHelper := helper, mgResult := 1 } := by
  unfold Chip.helperGiven
  rw [← Nat.mod_eq_of_lt hlane, ← Nat.mod_eq_of_lt hrank]
  exact if_neg (ne_true_of_eq_false hidle)

theorem marginEffect_runs (hidle : (s.chan m.ch).mgBusy = false) (hlane : m.lane < 16) (hrank : m.rank < 16)
    (hcode : helper ≤ 4) (hmay : s.helperMay helper role) :
    marginEffect helper role m s = ((s.helperGiven helper m).writePattern m.ch helper).modChan m.ch fun k =>
      { k with mgBusy := true, mgHelper := helper, mgResult := 0 } :=
  (marginEffect_idle hidle hlane hrank).trans (if_pos ((Chip.helperGate_iff hcode).mpr hmay))

theorem marginEffect_refused (hidle : (s.chan m.ch).mgBusy = false) (hlane : m.lane < 16) (hrank : m.rank < 16)
    (hcode : helper ≤ 4) (hmay : ¬ s.helperMay helper role) :
    marginEffect helper role m s =
      (s.helperGiven helper m).modChan m.ch fun k => { k with mgHelper := helper, mgResult := 1 } :=
  (marginEffect_idle hidle hlane hrank).trans (if_neg (mt (Chip.helperGate_iff hcode).mp hmay))

end Starts

/-! ### The statement -/

/-- Settles O32: the five commands are one effect by their helper's code, which runs or is refused as the state and the role of the
session allow; a helper that runs ends with its result. -/
theorem marginHelpersComplete : Obligations.MarginHelpersComplete := by
  unfold Obligations.MarginHelpersComplete
  refine ⟨fun s q m hq hon hch hidle hlane hrank c helper hc => ?starts, fun s ch r hbusy => ?ends⟩
  case starts =>
    have hcode : helper ≤ 4 := marginCommands_code_le hc
    rw [exec_marginCommand hc]
    exact ⟨fun hmay => next_on_congr
        ((marginCommand_reaches helper hq hon hch).trans (marginEffect_runs hidle hlane hrank hcode hmay)),
      fun hmay => next_on_congr
        ((marginCommand_reaches helper hq hon hch).trans (marginEffect_refused hidle hlane hrank hcode hmay))⟩
  case ends => exact next_on_congr (if_pos hbusy)

end Sys2Proof.Machine
end

section
/-!
The end of a line's repair: the source that serves it, the question to the twin, or poison (O25).
-/
namespace Sys2Proof.Machine

/-- A bank repairs a line of a page that has a frame. -/
structure Chip.Repairing (s : Chip) (line : Nat) (r : Repair) : Prop where
  found : ((s.bank (s.bankOf line)).repairs.find? fun x => x.line == line) = some r
  resident : (s.page (pageOfLine line)).resident = true

/-- The source of orders 0 to 2 that is left to a repair: none once it has tried them (11 Table 11-2). -/
def Chip.ownSourceLeft (s : Chip) (line : Nat) (r : Repair) (stored : Bool) : Option (Nat × List Byte) :=
  if r.tried then none else s.ownSource line r.first stored

/-- A repair that goes on while the twin is asked: orders 0 to 2 are behind it. -/
def Chip.repairAsksTwin (s : Chip) (line : Nat) : Chip :=
  (s.modBank (s.bankOf line) fun k => { k with
    repairs := k.repairs.map fun x => if x.line == line then { x with tried := true } else x }).askTwin (line * 64) 64

/-- A source's bytes are counted by its order and written back (11 R282). -/
theorem Chip.repaired_some (s : Chip) (line k : Nat) (bytes : List Byte) :
    s.repaired line (some (k, bytes)) =
      ((((((s.endRepair line).dropAsk (line * 64) 64).repairCount line k).writeLine line bytes (2 ^ 64 - 1)).writeBack
        line).serveQueue (s.bankOf line)) := rfl

/-- With no source left the line is poison (11 R284). -/
theorem Chip.repaired_none (s : Chip) (line : Nat) :
    s.repaired line none =
      ((((s.endRepair line).dropAsk (line * 64) 64).repairCount line 5).poisonLine line).serveQueue (s.bankOf line) := rfl

namespace Chip.Repairing

variable {s : Chip} {line : Nat} {r : Repair} {stored : Bool}

/-- A source of orders 0 to 2 is taken before the twin is thought of. -/
theorem ends_from_own (h : s.Repairing line r) {x : Nat × List Byte} (hown : s.ownSourceLeft line r stored = some x) :
    repairEndEffect line stored s = s.repaired line (some x) := by
  unfold Chip.ownSourceLeft at hown
  simp only [repairEndEffect, h.found, h.resident, hown]
  rfl

/-- Where orders 0 to 2 serve no more and no answer is awaited, the twin decides: it is asked, or what it gave ends the repair. -/
theorem ends_by_twin (h : s.Repairing line r) (hown : s.ownSourceLeft line r stored = none)
    (hwait : s.askWaits (line * 64) 64 = false) :
    repairEndEffect line stored s =
      if (s.asked (line * 64) 64).isNone && s.twinAsked line then s.repairAsksTwin line
      else s.repaired line (s.twinSource line stored) := by
  unfold Chip.ownSourceLeft at hown
  simp only [repairEndEffect, h.found, h.resident, hown, hwait]
  rfl

theorem asks_twin (h : s.Repairing line r) (hown : s.ownSourceLeft line r stored = none)
    (hwait : s.askWaits (line * 64) 64 = false) (hnew : (s.asked (line * 64) 64).isNone = true) (hserves : s.twinAsked line = true) :
    repairEndEffect line stored s = s.repairAsksTwin line :=
  (h.ends_by_twin hown hwait).trans (if_pos (by simp [hnew, hserves]))

/-- A twin that has answered, or that cannot be asked, is the last source: past it lies poison. -/
theorem ends_from_twin (h : s.Repairing line r) (hown : s.ownSourceLeft line r stored = none)
    (hwait : s.askWaits (line * 64) 64 = false) (hdone : (s.asked (line * 64) 64).isSome = true ∨ s.twinAsked line = false)
    {src : Option (Nat × List Byte)} (hsrc : s.twinSource line stored = src) :
    repairEndEffect line stored s = s.repaired line src := by
  subst hsrc
  have hnot : ¬ ((s.asked (line * 64) 64).isNone && s.twinAsked line) = true := by
    rcases hdone with hanswered | hunserved
    · simp [Option.isNone_eq_false_iff.mpr hanswered]
    · simp [hunserved]
  exact (h.ends_by_twin hown hwait).trans (if_neg hnot)

end Chip.Repairing

/-- Settles O25: a repair ends from its own source where orders 0 to 2 still give one; else the twin is asked, or its answer ends
the repair, which is written back from it or poisoned. -/
theorem repairsComplete : Obligations.RepairsComplete := by
  unfold Obligations.RepairsComplete
  intro s line r stored hfound hres
  have h : s.chip.Repairing line r := ⟨hfound, hres⟩
  refine ⟨fun k bytes hown => ?own, fun hown hwait => ⟨fun hnew hserves => ?asks, fun hdone => ⟨fun k bytes htwin => ?twin,
    fun hnone => ?poison⟩⟩⟩
  case own => exact next_on_congr ((h.ends_from_own hown).trans (s.chip.repaired_some line k bytes))
  case asks => exact next_on_congr (h.asks_twin hown hwait hnew hserves)
  case twin => exact next_on_congr ((h.ends_from_twin hown hwait hdone htwin).trans (s.chip.repaired_some line k bytes))
  case poison => exact next_on_congr ((h.ends_from_twin hown hwait hdone hnone).trans (s.chip.repaired_none line))

end Sys2Proof.Machine
end

section
/-!
The scrubber: a read of a page's line and of one that no page holds, the lap, and the clearing of the remap tables (O33).
-/
namespace Sys2Proof.Machine

/-! ### What a scrub read finds (11 R282, R285 to R287) -/

/-- The request of a scrub read, given to its channel. -/
def Chip.scrubSent (s : Chip) (fl : Nat) : Chip :=
  s.enqueue { cls := 5, fl, tag := .mei, write := false, awaited := false, sweep := false }

/-- The line of a page that a line of its frame holds. -/
def lineInFrame (p held : Nat) : Nat := p * 1024 + held % 1024

/-- The burst of a scrub read whose line a page holds. -/
def Chip.scrubPage (s : Chip) (ch fl p : Nat) (errs : List (Nat × Byte)) : Burst × Chip :=
  (s.scrubSent fl).readBurst (lineInFrame p (s.heldLine ch fl)) errs

/-- The burst of a scrub read whose line no page holds. -/
def Chip.scrubFree (s : Chip) (ch fl : Nat) (errs : List (Nat × Byte)) : Burst × Chip :=
  (s.scrubSent fl).freeBurst ch (s.heldLine ch fl) errs

section Page

variable {s : Chip} {ch fl p : Nat} {errs : List (Nat × Byte)}

/-- An uncorrectable line of a page is repaired, or waits where its bank has no room for the repair. -/
theorem Chip.scrub_page_uncorrectable (hp : s.pageInFrame (s.heldLine ch fl / 1024) = some p)
    {line : Nat} (hline : lineInFrame p (s.heldLine ch fl) = line) (hr : (s.scrubPage ch fl p errs).1 = .uncorrectable) :
    s.scrub ch fl errs =
      if s.repairRoom (s.bankOf line) line then some ((s.scrubPage ch fl p errs).2.startRepair (s.bankOf line) line)
      else none := by
  subst hline
  unfold Chip.scrubPage Chip.scrubSent lineInFrame at *
  simp only [Chip.scrub, hp, hr]

theorem Chip.scrub_page_corrected (hp : s.pageInFrame (s.heldLine ch fl / 1024) = some p)
    (hr : (s.scrubPage ch fl p errs).1 = .corrected) :
    s.scrub ch fl errs = some ((s.scrubPage ch fl p errs).2.owesRewrite ch (s.heldLine ch fl)) := by
  unfold Chip.scrubPage Chip.scrubSent lineInFrame at *
  simp only [Chip.scrub, hp, hr]

/-- A line that needs neither a repair nor a rewrite is only read. -/
theorem Chip.scrub_page_sound (hp : s.pageInFrame (s.heldLine ch fl / 1024) = some p)
    (hu : (s.scrubPage ch fl p errs).1 ≠ .uncorrectable) (hc : (s.scrubPage ch fl p errs).1 ≠ .corrected) :
    s.scrub ch fl errs = some (s.scrubPage ch fl p errs).2 := by
  unfold Chip.scrubPage Chip.scrubSent lineInFrame at *
  simp only [Chip.scrub, hp]

end Page

section Free

variable {s : Chip} {ch fl : Nat} {errs : List (Nat × Byte)}

/-- An uncorrectable line of an internal area takes the steps of R285. -/
theorem Chip.scrub_free_area (hp : s.pageInFrame (s.heldLine ch fl / 1024) = none)
    (hr : (s.scrubFree ch fl errs).1 = .uncorrectable) {a o : Nat} (ha : s.areaOf (s.heldLine ch fl) = some (a, o)) :
    s.scrub ch fl errs = some ((s.scrubFree ch fl errs).2.areaLost ch (s.heldLine ch fl) a o) := by
  unfold Chip.scrubFree Chip.scrubSent at *
  simp only [Chip.scrub, hp, hr, ha]

/-- A corrected line, and an uncorrectable one that holds nothing, is to be rewritten. -/
theorem Chip.scrub_free_owes (hp : s.pageInFrame (s.heldLine ch fl / 1024) = none)
    (hr : (s.scrubFree ch fl errs).1 = .corrected ∨
      ((s.scrubFree ch fl errs).1 = .uncorrectable ∧ s.areaOf (s.heldLine ch fl) = none)) :
    s.scrub ch fl errs = some ((s.scrubFree ch fl errs).2.owesRewrite ch (s.heldLine ch fl)) := by
  unfold Chip.scrubFree Chip.scrubSent at *
  rcases hr with hr | ⟨hr, ha⟩
  · simp only [Chip.scrub, hp, hr]
  · simp only [Chip.scrub, hp, hr, ha]

theorem Chip.scrub_free_sound (hp : s.pageInFrame (s.heldLine ch fl / 1024) = none)
    (hu : (s.scrubFree ch fl errs).1 ≠ .uncorrectable) (hc : (s.scrubFree ch fl errs).1 ≠ .corrected) :
    s.scrub ch fl errs = some (s.scrubFree ch fl errs).2 := by
  unfold Chip.scrubFree Chip.scrubSent at *
  simp only [Chip.scrub, hp]
  split
  case h_1 hr => exact absurd hr hc
  case h_2 hr _ => exact absurd hr hu
  case h_3 hr _ => exact absurd hr hu
  case h_4 => rfl

end Free

/-! ### A scrub read of a channel (11 R286, R288) -/

/-- The scrubber may read a channel: it answers, scrubbing is enabled, Eclipse has not reached step E4, and no higher class waits. -/
structure Chip.MayScrub (s : Chip) (ch : Nat) : Prop where
  on : s.chanOn ch = true
  enabled : s.par 0xB00008 % 2 = 1
  running : s.ecl.step < 4
  idle : (s.chan ch).scrubs = true

/-- The frame line that the scrubber of a channel reads next. -/
def Chip.scrubNext (s : Chip) (ch : Nat) : Nat :=
  s.frameNo ch ((s.chan ch).scrubAt / 1024) * 1024 + (s.chan ch).scrubAt % 1024

/-- The errors that a scrub read meets: none where the write queue gives the line. -/
def Chip.scrubErrs (s : Chip) (ch : Nat) (given : List (Nat × Byte)) : List (Nat × Byte) :=
  if ((s.payRewrite ch).chan ch).wq.any fun e => e.1 == s.scrubNext ch then [] else given

/-- The scrubber of a channel goes on by one line, from where it stood in `s`, and after the last one the lap ends. -/
def Chip.scrubOnward (s : Chip) (ch : Nat) (t : Chip) : Chip :=
  let u := t.modChan ch fun k => { k with scrubAt := k.scrubAt + 1 }
  if s.framesOn ch * 1024 ≤ (s.chan ch).scrubAt + 1 then u.lapEnds ch else u

namespace Chip.MayScrub

variable {s : Chip} {ch : Nat} {given : List (Nat × Byte)}

theorem not_barred (h : s.MayScrub ch) :
    ¬ (!s.chanOn ch || s.par 0xB00008 % 2 == 0 || decide (4 ≤ s.ecl.step) || !(s.chan ch).scrubs) = true := by
  simp [h.on, h.enabled, h.running, h.idle]

theorem scrubEffect_of_read (h : s.MayScrub ch) {t : Chip}
    (hread : (s.payRewrite ch).scrub ch (s.scrubNext ch) (s.scrubErrs ch given) = some t) :
    scrubEffect ch given s = s.scrubOnward ch t := by
  refine (if_neg h.not_barred).trans ?_
  unfold Chip.scrubErrs Chip.scrubNext at hread
  simp only [hread]
  rfl

/-- A read that waits has paid the rewrite that was owed. -/
theorem scrubEffect_of_wait (h : s.MayScrub ch)
    (hread : (s.payRewrite ch).scrub ch (s.scrubNext ch) (s.scrubErrs ch given) = none) :
    scrubEffect ch given s = s.payRewrite ch := by
  refine (if_neg h.not_barred).trans ?_
  unfold Chip.scrubErrs Chip.scrubNext at hread
  simp only [hread]

end Chip.MayScrub

/-- A scrub read that finds its line takes the scrubber onward. -/
theorem next_scrubRead {s : State} {ch : Nat} {given : List (Nat × Byte)} {t : Chip} (h : s.chip.MayScrub ch)
    (hread : (s.chip.payRewrite ch).scrub ch (s.chip.scrubNext ch) (s.chip.scrubErrs ch given) = some t) :
    exec (.scrubRead ch given) s = .next { s with chip := s.chip.scrubOnward ch t } :=
  next_on_congr (g := fun _ => s.chip.scrubOnward ch t) (h.scrubEffect_of_read hread)

/-- The tables of the channels named are emptied in MAINTENANCE (11 R292). -/
theorem remapClearEffect_maintenance {s : Chip} (mask : Nat) (h : s.glb.state = .maintenance) :
    remapClearEffect mask s = (bitsOf s.nChans mask).foldl (fun u n =>
      (u.modChan n fun k => { k with remap := [], ueOnce := [] }).askRemap n 0xFF 2 0 0) s :=
  if_neg (by simp [h])

/-! ### The statement -/

/-- Settles O33: a scrub read by whether a page holds its line, then by the class of the burst, and by room for the repair or the
area hit where the burst is uncorrectable. -/
theorem scrubCommandsComplete : Obligations.ScrubCommandsComplete := by
  unfold Obligations.ScrubCommandsComplete
  refine ⟨fun s ch given hon henabled hrunning hidle => ?read, fun s q mask hq hst => ?clear⟩
  case read =>
    have h : s.chip.MayScrub ch := ⟨hon, henabled, hrunning, hidle⟩
    refine ⟨fun p hp => ⟨fun hr hroom => ?repairs, fun hr hroom => ?waits, fun hr => ?corrected, fun hu hc => ?sound⟩,
      fun hp => ⟨fun hr a o ha => ?area, fun hr ha => ?unused, fun hr => ?freeCorrected, fun hu hc => ?freeSound⟩⟩
    case repairs => exact next_scrubRead h ((Chip.scrub_page_uncorrectable hp rfl hr).trans (if_pos hroom))
    case waits =>
      exact next_on_congr (g := fun _ => s.chip.payRewrite ch) (h.scrubEffect_of_wait
        ((Chip.scrub_page_uncorrectable hp rfl hr).trans (if_neg (ne_true_of_eq_false hroom))))
    case corrected => exact next_scrubRead h (Chip.scrub_page_corrected hp hr)
    case sound => exact next_scrubRead h (Chip.scrub_page_sound hp hu hc)
    case area => exact next_scrubRead h (Chip.scrub_free_area hp hr ha)
    case unused => exact next_scrubRead h (Chip.scrub_free_owes hp (.inr ⟨hr, ha⟩))
    case freeCorrected => exact next_scrubRead h (Chip.scrub_free_owes hp (.inl hr))
    case freeSound => exact next_scrubRead h (Chip.scrub_free_sound hp hu hc)
  case clear => exact next_on_congr ((asRole_grants hq).trans (remapClearEffect_maintenance mask hst))

end Sys2Proof.Machine
end

section
/-!
Frames of the twin: the effect of one that is next in the link sequence, at the active unit and at the standby (O34, O35), of one
received before (O36) and of one ahead (O37).
-/
namespace Sys2Proof.Machine

/-! ### The reliable frames (12 R297, Table 12-3) -/

/-- A command is the arrival of a reliable frame with this head, and the message is what the frame says. -/
inductive Brings (h : SyzHead) : Instr → SyzMsg → Prop
  | journal (es : List JEntry) : Brings h (.journal h es) (.journal h.epoch.toNat es)
  | mirrorWrite (es : List JEntry) : Brings h (.mirrorWrite h es) (.mirrorWrite es)
  | mirrorFetch (addr size tag : Nat) : Brings h (.mirrorFetch h addr size tag) (.mirrorFetch addr size tag)
  | fetchResp (tag source mask : Nat) (data : List Byte) :
      Brings h (.fetchResp h tag source mask data) (.fetchResp tag source mask data)
  | release (pos : Nat) : Brings h (.sealNoteRelease h pos) (.release pos)
  | eclipse : Brings h (.sealNoteEclipse h) .eclipse
  | sealed (last seq : Nat) : Brings h (.sealNoteSealed h last seq) .sealed
  | switchGo (last : Nat) : Brings h (.roleSwitchGo h last) .switchGo
  | caughtUp : Brings h (.roleCaughtUp h) .caughtUp
  | takeover : Brings h (.roleTakeover h) .takeover
  | join (m : RoleMsg) : Brings h (.roleJoin h m) (.join m)
  | refuse (causes : Nat) : Brings h (.roleRefuse h causes) (.refuse causes)

theorem Brings.exec_eq {h : SyzHead} {c : Instr} {m : SyzMsg} (hc : Brings h c m) (s : State) :
    exec c s = .next (s.on fun t => t.recvReliable h m) := by
  cases hc <;> rfl

/-! ### The place of a frame in the link sequence (12 R297, R298) -/

theorem psnAdd_pred_succ {q : Nat} (hq : q < 2 ^ 32) : psnAdd (psnAdd q (2 ^ 32 - 1)) 1 = q := by
  unfold psnAdd
  omega

/-- A frame that the engine takes from its partner has its effect. -/
theorem Chip.recvLoose_takes {s : Chip} {h : SyzHead} {f : Chip → Chip} (htakes : s.syzTakes h = true)
    (hown : s.foreign h = false) : s.recvLoose h f = f s :=
  (if_neg (by simp [htakes])).trans (if_neg (ne_true_of_eq_false hown))

/-- A frame received before is answered and no more. -/
theorem Chip.recvReliable_again {s : Chip} {h : SyzHead} (m : SyzMsg) (htakes : s.syzTakes h = true) (hown : s.foreign h = false)
    (hknown : s.syz.rxKnown = true)
    (hold : (s.syz.rxHeld.any fun e => e.1 == h.seq.toNat) = true ∨ notAfter h.seq.toNat s.syz.rxSeq = true) :
    s.recvReliable h m = s.sendJournalAck := by
  refine (Chip.recvLoose_takes htakes hown).trans (if_pos ?_)
  rw [hknown, Bool.true_and, Bool.or_eq_true]
  exact hold.symm

/-- A new frame is placed by its sequence, and the frames whose turn has come take effect. -/
theorem Chip.recvReliable_new {s : Chip} {h : SyzHead} (m : SyzMsg) (htakes : s.syzTakes h = true) (hown : s.foreign h = false)
    (hnew : s.syz.rxKnown = true →
      notAfter h.seq.toNat s.syz.rxSeq = false ∧ (s.syz.rxHeld.any fun e => e.1 == h.seq.toNat) = false) :
    s.recvReliable h m =
      (Chip.inSequence (s.syz.rxHeld.length + 1) { s with syz := s.syz.hold h.seq.toNat m }).sendJournalAck := by
  refine (Chip.recvLoose_takes htakes hown).trans (if_neg ?_)
  rw [Bool.and_eq_true, Bool.or_eq_true]
  rintro ⟨hknown, hold⟩
  obtain ⟨hafter, hheld⟩ := hnew hknown
  exact hold.elim (ne_true_of_eq_false hafter) (ne_true_of_eq_false hheld)

/-- The frame whose turn it is takes effect, and the ones behind it follow. -/
theorem Chip.inSequence_turn {s : Chip} {q : Nat} {m : SyzMsg} (n : Nat) (hq : psnAdd s.syz.rxSeq 1 = q)
    (hfind : s.syz.rxHeld.find? (fun e => e.1 == q) = some (q, m)) :
    Chip.inSequence (n + 1) s = Chip.inSequence n
      (({ s with syz := { s.syz with rxSeq := q, rxHeld := s.syz.rxHeld.filter fun e => e.1 != q } } : Chip).syzTook m) := by
  subst hq
  simp only [Chip.inSequence, hfind]

/-- Nothing takes effect while the frame whose turn it is has not come. -/
theorem Chip.inSequence_waits {s : Chip} (n : Nat)
    (hfind : s.syz.rxHeld.find? (fun e => e.1 == psnAdd s.syz.rxSeq 1) = none) : Chip.inSequence n s = s := by
  cases n with
  | zero => rfl
  | succ n => simp only [Chip.inSequence, hfind]

section Held

variable {l : List (Nat × SyzMsg)} {q : Nat} {m : SyzMsg}

theorem find?_of_not_held (hnew : (l.any fun e => e.1 == q) = false) : l.find? (fun e => e.1 == q) = none := by
  simpa using hnew

theorem filter_of_not_held (hnew : (l.any fun e => e.1 == q) = false) : l.filter (fun e => e.1 != q) = l :=
  List.filter_eq_self.mpr (by simpa using hnew)

/-- A frame just kept is found, and taken out again leaves the ones kept before it. -/
theorem find?_held_append (hnew : (l.any fun e => e.1 == q) = false) :
    (l ++ [(q, m)]).find? (fun e => e.1 == q) = some (q, m) := by
  simp [find?_of_not_held hnew]

theorem filter_held_append (hnew : (l.any fun e => e.1 == q) = false) :
    (l ++ [(q, m)]).filter (fun e => e.1 != q) = l := by
  simp [filter_of_not_held hnew]

end Held

/-- The next frame of the sequence takes effect at once, whether it is the first of all or follows others. -/
theorem Chip.recvReliable_tells {s : Chip} {h : SyzHead} (m : SyzMsg) (ht : s.tells h) :
    s.recvReliable h m = s.andNext ((s.hearing h).syzTook m) := by
  obtain ⟨htakes, hown, hnext⟩ := ht
  rw [Chip.recvReliable_new m htakes hown fun hknown => (hnext hknown).2]
  refine congrArg Chip.sendJournalAck ?_
  by_cases hknown : s.syz.rxKnown = true
  · obtain ⟨hseq, -, hheld⟩ := hnext hknown
    rw [Chip.inSequence_turn (q := h.seq.toNat) (m := m) _ (by simp [Syz.hold, hknown, ← hseq])
      (by simp only [Syz.hold, hknown, if_true, find?_held_append hheld])]
    simp only [Chip.hearing, Syz.hold, hknown, if_true, filter_held_append hheld]
  · have hpred : psnAdd (s.syz.hold h.seq.toNat m).rxSeq 1 = h.seq.toNat := by
      simp only [Syz.hold, hknown]
      exact psnAdd_pred_succ h.seq.isLt
    rw [Chip.inSequence_turn (q := h.seq.toNat) (m := m) _ hpred (by simp [Syz.hold, hknown])]
    simp [Chip.hearing, Syz.hold, hknown]

/-- A frame ahead of its turn is kept. -/
theorem Chip.recvReliable_ahead {s : Chip} {h : SyzHead} (m : SyzMsg) (ha : s.ahead h) :
    s.recvReliable h m =
      ({ s with syz := { s.syz with rxHeld := s.syz.rxHeld ++ [(h.seq.toNat, m)] } } : Chip).sendJournalAck := by
  obtain ⟨htakes, hown, hknown, hafter, hheld, hne, hnone⟩ := ha
  have hkept : s.syz.hold h.seq.toNat m = { s.syz with rxHeld := s.syz.rxHeld ++ [(h.seq.toNat, m)] } := if_pos hknown
  rw [Chip.recvReliable_new m htakes hown fun _ => ⟨hafter, hheld⟩, hkept,
    Chip.inSequence_waits _ (by simp [find?_of_not_held hnone, hne.symm])]

/-- A reliable frame that is next takes effect, and the frames that waited for it after it. -/
theorem Brings.next {h : SyzHead} {c : Instr} {m : SyzMsg} (hc : Brings h c m) {s : State} (ht : s.chip.tells h)
    {u : Chip → Chip} (htook : (s.chip.hearing h).syzTook m = u s.chip) :
    exec c s = .next (s.on fun t => t.andNext (u t)) :=
  (hc.exec_eq s).trans (next_on_congr ((Chip.recvReliable_tells m ht).trans (congrArg _ htook)))

/-! ### What a frame does at the active unit (12 Table 12-1) -/

section Active

variable {t : Chip} {m : RoleMsg}

/-- An active unit without a standby, in ACTIVE or on its way to it, may be joined (12 R301, R314). -/
structure Chip.MayBeJoined (t : Chip) : Prop where
  role : t.syz.role = .active
  serves : t.glb.state = .active ∨ t.glb.state = .start
  free : t.syz.pair = .noTwin ∨ t.syz.pair = .solo

theorem Chip.MayBeJoined.joinTakes_eq (ht : t.MayBeJoined) :
    t.joinTakes m =
      if t.joinCauses m ≠ 0 then
        (({ t with syz := { t.syz with refuse := t.joinCauses m } } : Chip).sendRole 6 (t.joinCauses m) 0).raise 0x0C 0xFFFF 4 1 0
          [BitVec.ofNat 8 t.syz.role.code, BitVec.ofNat 8 (t.joinCauses m)]
      else t.takeJoin := by
  refine (if_neg ?_).trans ?_
  · simpa [ht.role, ← or_iff_not_imp_left] using ⟨ht.serves, ht.free⟩
  · simp only [bne_iff_ne]

theorem Chip.takeoverTakes_fences (hrole : t.syz.role = .active) (hst : t.glb.state = .active ∨ t.glb.state = .eclipse) :
    t.takeoverTakes = t.fence :=
  if_pos (by simp [hrole, hst])

theorem Chip.refuseTakes_catchingUp (causes : Nat) (hrole : t.syz.role = .active) (hpair : t.syz.pair = .catchingUp) :
    t.refuseTakes causes =
      (t.dropTwin .noTwin false).raise 0x0C 0xFFFF 4 1 0
        [BitVec.ofNat 8 (t.dropTwin .noTwin false).syz.role.code, BitVec.ofNat 8 causes] :=
  if_pos (by simp [hrole, hpair])

theorem Chip.refuseTakes_umbra (causes : Nat) (hrole : t.syz.role = .umbra) :
    t.refuseTakes causes =
      ({ t with syz := { t.syz with refuse := causes, caughtUp := false, copy := none } } : Chip).raise 0x0C 0xFFFF 4 1 0
        [BitVec.ofNat 8 t.syz.role.code, BitVec.ofNat 8 causes] :=
  (if_neg (by simp [hrole])).trans (if_pos (by simp [hrole]))

/-- A JOURNAL_ACK taken from the partner: the frames that it covers leave, then the unit acts on it by its role. -/
theorem journalAckEffect_takes {h : SyzHead} (pos credit : Nat) (cum : BitVec 32) (htakes : t.syzTakes h = true)
    (hown : t.foreign h = false) :
    journalAckEffect h pos cum credit t =
      if (t.covered cum.toNat).syz.role ≠ .active then t.syzFreed (t.covered cum.toNat)
      else (t.covered cum.toNat).takeAck pos credit := by
  refine (Chip.recvLoose_takes htakes hown).trans ?_
  simp only [bne_iff_ne]

end Active

/-! ### What a frame does at the standby (12 R301 to R305) -/

section Standby

variable {t : Chip}

theorem Chip.joined_umbra (hst : t.glb.state = .umbra) (hrefuse : t.syz.refuse = 0) : t.joined = true := by
  simp [Chip.joined, hst, hrefuse]

theorem Chip.journalTakes_joined (epoch : Nat) (es : List JEntry) (hj : t.joined = true) :
    t.journalTakes epoch es =
      let u := es.foldl Chip.storeEntry { t with syz := { t.syz with partnerEpoch := epoch } }
      if u.joined = true then u.acceptPos es else u :=
  if_neg (by simp [hj])

theorem Chip.mirrorTakes_joined (es : List JEntry) (hcompat : t.syz.compat = true) (hj : t.joined = true)
    (hcopy : t.endCopy.joined = true) : t.mirrorTakes es = (es.foldl Chip.mirrorEntry t.endCopy).acceptPos es :=
  (if_neg (by simp [hj, hcompat])).trans (if_pos hcopy)

theorem Chip.fetchTakes_umbra (addr size tag : Nat) (hst : t.glb.state = .umbra) :
    t.fetchTakes addr size tag =
      (t.fetchReads addr size).syzSmall 0x45
        ([tag, (t.fetchAnswer addr size).1, (t.fetchAnswer addr size).2.1] ++ (t.fetchAnswer addr size).2.2) :=
  if_neg (by simp [hst])

theorem Chip.releaseTakes_umbra {pos : Nat} (hst : t.glb.state = .umbra) (hpos : t.syz.release ≤ pos) :
    t.releaseTakes pos = { t with syz := { t.syz with
      release := pos, ring := t.syz.ring.filter fun e => pos < e.pos,
      mclean := (t.syz.mpages.filter fun e => e.2 ≤ pos).map fun e => e.1 } } :=
  if_neg (by simp [hst, Nat.not_lt.mpr hpos])

theorem Chip.eclipseTakes_umbra (hst : t.glb.state = .umbra) :
    t.eclipseTakes = { t with syz := { t.syz with eclSeen := true } } :=
  (if_neg (by simp [hst])).trans (if_pos (by simp [hst]))

theorem Chip.caughtUpTakes_joined (hj : t.joined = true) (hcopy : t.endCopy.joined = true) :
    t.caughtUpTakes = { t.endCopy with syz := { t.endCopy.syz with caughtUp := true } } :=
  (if_neg (by simp [hj])).trans (if_pos hcopy)

end Standby

/-! ### The statements -/

/-- Settles O36: each of the commands brings a reliable frame, and one received before is answered only. -/
theorem duplicateFramesAreAnsweredOnly : Obligations.DuplicateFramesAreAnsweredOnly := by
  unfold Obligations.DuplicateFramesAreAnsweredOnly
  intro s h htakes hown hknown hold c hc
  have hbrings : ∃ m, Brings h c m := by
    rcases hc with ⟨es, rfl⟩ | ⟨es, rfl⟩ | ⟨a, n, g, rfl⟩ | ⟨g, k, x, d, rfl⟩ | ⟨p, rfl⟩ | rfl | ⟨l, q, rfl⟩ | ⟨l, rfl⟩ | rfl | rfl |
      ⟨r, rfl⟩ | ⟨k, rfl⟩
    all_goals exact ⟨_, by constructor⟩
  obtain ⟨m, hm⟩ := hbrings
  exact (hm.exec_eq s).trans (next_on_congr (Chip.recvReliable_again m htakes hown hknown hold))

/-- Settles O37: each of the commands brings a reliable frame, and one ahead of its turn is kept. -/
theorem framesAheadWaitForTheirTurn : Obligations.FramesAheadWaitForTheirTurn := by
  unfold Obligations.FramesAheadWaitForTheirTurn
  intro s h ha c m hc
  have hbrings : Brings h c m := by
    rcases hc with ⟨es, rfl, rfl⟩ | ⟨es, rfl, rfl⟩ | ⟨a, n, g, rfl, rfl⟩ | ⟨g, k, x, d, rfl, rfl⟩ | ⟨p, rfl, rfl⟩ | ⟨rfl, rfl⟩ |
      ⟨l, q, rfl, rfl⟩ | ⟨l, rfl, rfl⟩ | ⟨rfl, rfl⟩ | ⟨rfl, rfl⟩ | ⟨r, rfl, rfl⟩ | ⟨k, rfl, rfl⟩
    all_goals constructor
  exact (hbrings.exec_eq s).trans (next_on_congr (Chip.recvReliable_ahead m ha))

/-- Settles O34: an acknowledgement by the role of the unit that it reaches; each reliable frame by what it does at a unit that is
told it, a JOIN by the causes for which it is refused. -/
theorem activeTwinFramesComplete : Obligations.ActiveTwinFramesComplete := by
  unfold Obligations.ActiveTwinFramesComplete
  refine ⟨fun s h pos credit cum htakes hown hrole => ?ackActive, fun s h pos credit cum htakes hown hrole => ?ackOther,
    fun s h m ht hrole hst hpair => ?join, fun s h ht hst hrole => ?takeover, fun s h causes ht => ?refuse,
    fun s h tag source mask data ht => ?fetched⟩
  case ackActive =>
    exact next_on_congr ((journalAckEffect_takes pos credit cum htakes hown).trans (if_neg (not_not_intro hrole)))
  case ackOther => exact next_on_congr ((journalAckEffect_takes pos credit cum htakes hown).trans (if_pos hrole))
  case join =>
    have hmay : (s.chip.hearing h).MayBeJoined := ⟨hrole, hst, hpair⟩
    exact ⟨fun hnone => (Brings.join m).next ht (hmay.joinTakes_eq.trans (if_neg (not_not_intro hnone))),
      fun hsome => (Brings.join m).next ht (hmay.joinTakes_eq.trans (if_pos hsome))⟩
  case takeover => exact Brings.takeover.next ht (Chip.takeoverTakes_fences hrole hst)
  case refuse =>
    exact ⟨fun hrole hpair => (Brings.refuse causes).next ht (Chip.refuseTakes_catchingUp causes hrole hpair),
      fun hrole => (Brings.refuse causes).next ht (Chip.refuseTakes_umbra causes hrole)⟩
  case fetched => exact (Brings.fetchResp tag source mask data).next ht rfl

/-- Settles O35: each reliable frame by what it does at a unit in UMBRA that is told it; entries and notes of the copy where
neither unit has refused the join. -/
theorem standbyTwinFramesComplete : Obligations.StandbyTwinFramesComplete := by
  unfold Obligations.StandbyTwinFramesComplete
  intro s h ht hst
  have hjoined (hrefuse : s.chip.syz.refuse = 0) : (s.chip.hearing h).joined = true := Chip.joined_umbra hst hrefuse
  refine ⟨fun es hrefuse => ?journal, fun es hcompat hrefuse hcopy => ?mirror, fun addr size tag => ?fetch, fun pos hpos => ?release,
    ?eclipse, fun last seq => ?sealed, fun last => ?switchGo, fun hrefuse hcopy => ?caughtUp⟩
  case journal => exact (Brings.journal es).next ht (Chip.journalTakes_joined _ es (hjoined hrefuse))
  case mirror => exact (Brings.mirrorWrite es).next ht (Chip.mirrorTakes_joined es hcompat (hjoined hrefuse) hcopy)
  case fetch => exact (Brings.mirrorFetch addr size tag).next ht (Chip.fetchTakes_umbra addr size tag hst)
  case release => exact (Brings.release pos).next ht (Chip.releaseTakes_umbra hst hpos)
  case eclipse => exact Brings.eclipse.next ht (Chip.eclipseTakes_umbra hst)
  case sealed => exact (Brings.sealed last seq).next ht rfl
  case switchGo => exact (Brings.switchGo last).next ht rfl
  case caughtUp => exact Brings.caughtUp.next ht (Chip.caughtUpTakes_joined (hjoined hrefuse) hcopy)

end Sys2Proof.Machine
end

section
/-!
The twin's timers and links: HEARTBEATs and their loss, TWIN_FENCE_IN, a frame sent again, a link that comes or goes, and the
reservation check of a unit in doubt (O38).
-/
namespace Sys2Proof.Machine

section Timers

variable {s : Chip}

/-! ### HEARTBEATs, their loss and TWIN_FENCE_IN (12 R306, R307, R309) -/

/-- A HEARTBEAT sent on every up link. -/
def Chip.beat (s : Chip) : Chip :=
  (bitsOf 4 s.syz.links).foldl (fun t l =>
    t.emit (.syz l false 0 0x42 [] s.heartbeatBody (t.syzBytes (SyzFrame.small 0x42 s.heartbeatBody)))) s

theorem heartbeatIntervalEffect_on (hon : s.syzOn 0x42 = true) :
    heartbeatIntervalEffect s = s.beat.stepMirror.advanceRelease :=
  congrArg (fun t : Chip => t.stepMirror.advanceRelease) (if_pos hon)

theorem Chip.partnerLost_paired (hpair : s.syz.pair = .paired) : s.partnerLost = (s.setPair .inDoubt).goOnAll :=
  if_pos (beq_iff_eq.mpr hpair)

theorem Chip.partnerLost_catchingUp (hpair : s.syz.pair = .catchingUp) : s.partnerLost = s.dropTwin .noTwin true :=
  (if_neg (by simp [hpair])).trans (if_pos (beq_iff_eq.mpr hpair))

theorem heartbeatLossEffect_active (hst : s.glb.state = .active) (hrole : s.syz.role = .active) :
    heartbeatLossEffect s = s.partnerLost :=
  if_pos (by simp [hst, hrole])

/-- The level of TWIN_FENCE_IN recorded. -/
def Chip.fenceSeen (s : Chip) (asserted : Bool) : Chip := { s with syz := { s.syz with fenceIn := asserted } }

theorem twinFenceEffect_active (hst : s.glb.state = .active) (hrole : s.syz.role = .active) :
    twinFenceEffect true s = (s.fenceSeen true).partnerLost :=
  (if_neg (by simp [hst])).trans (if_pos (by simp [hst, hrole]))

theorem twinFenceEffect_umbra (hst : s.glb.state = .umbra) : twinFenceEffect true s = (s.fenceSeen true).trigger 1 :=
  if_pos (beq_iff_eq.mpr hst)

/-- A trigger at a standby that is caught up starts its takeover (12 R295). -/
theorem Chip.trigger_caughtUp (t : Nat) (hst : s.glb.state = .umbra) (hcaught : s.syz.caughtUp = true) :
    s.trigger t = s.takeover t :=
  (if_neg (by simp [hst])).trans (if_pos hcaught)

/-! ### Retransmission and links (12 R297, R298, R314) -/

theorem syzRetransmitEffect_held {f : SyzFrame} (hf : oldestSent s.syz.held = some f) :
    syzRetransmitEffect s =
      let w := s.syzWire { f with retry := true } (some f.link)
      { w.2 with syz := { w.2.syz with held := w.2.syz.held.map fun x =>
        if x.seq == f.seq then { f with retry := true, link := w.1, turn := s.syz.rr } else x } } := by
  simp only [syzRetransmitEffect, hf]

/-- A link can change to a level: the variant has it, its region is not fenced, the engine runs, and the level is not the one it has. -/
structure Chip.LinkMoves (s : Chip) (link : Nat) (up : Bool) : Prop where
  there : link < s.nLinks
  unfenced : bit s.cmt.fencedRegions link = false
  powered : s.domainOn 21 = true
  serving : s.glb.state ≠ .maintenance
  on : s.glb.state ≠ .off
  changes : bit s.syz.links link ≠ up

/-- The chip with a link moved: its level, its training and its record. -/
def Chip.linkMoved (s : Chip) (link : Nat) (up : Bool) : Chip :=
  (({ s with syz := { s.syz with links := setBit s.syz.links link up } } : Chip).train (16 + link) (!up)).raise 0x0C 0xFFFF 2 1 0
    [BitVec.ofNat 8 link, BitVec.ofNat 8 (b2n up)]

/-- The first link that comes up in a start sends ROLE START. -/
theorem Chip.LinkMoves.syzLinkEffect_eq {link : Nat} {up : Bool} (h : s.LinkMoves link up) :
    syzLinkEffect link up s =
      if up = true ∧ s.syz.links = 0 ∧ s.glb.state = .start then (s.linkMoved link up).sendStart else s.linkMoved link up := by
  refine (if_neg ?barred).trans ?_
  case barred => simp [Nat.not_le.mpr h.there, h.unfenced, h.powered, h.serving, h.on, h.changes]
  simp only [Bool.and_eq_true, beq_iff_eq, and_assoc]
  rfl

theorem Chip.LinkMoves.syzLinkEffect_first {link : Nat} {up : Bool} (h : s.LinkMoves link up) (hup : up = true)
    (hfirst : s.syz.links = 0) (hst : s.glb.state = .start) : syzLinkEffect link up s = (s.linkMoved link up).sendStart := by
  rw [h.syzLinkEffect_eq, if_pos ⟨hup, hfirst, hst⟩]

theorem Chip.LinkMoves.syzLinkEffect_other {link : Nat} {up : Bool} (h : s.LinkMoves link up)
    (hother : up = false ∨ s.syz.links ≠ 0 ∨ s.glb.state ≠ .start) : syzLinkEffect link up s = s.linkMoved link up := by
  rw [h.syzLinkEffect_eq, if_neg]
  rintro ⟨hup, hfirst, hst⟩
  rcases hother with hdown | hmore | hrun
  · exact ne_true_of_eq_false hdown hup
  · exact hmore hfirst
  · exact hrun hst

/-! ### The reservation check (12 R459) -/

/-- A drive of the map set is among the ready drives. -/
def Chip.mapReady (s : Chip) : Bool := match s.mapSet with
  | some m => s.memberDrives.any fun d => (s.holds d).any (·.1 == m)
  | none => false

/-- A ready drive of a configured set is held by another unit. -/
def Chip.heldElsewhere (s : Chip) (hs : List Holder) : Bool :=
  hs.any fun x => s.memberDrives.contains x.drive && x.key.isSome && x.key != some s.sec.writer

/-- This unit holds every ready drive. -/
def Chip.heldHere (s : Chip) (hs : List Holder) : Bool :=
  s.memberDrives.all fun d => hs.any fun x => x.drive == d && x.key == some s.sec.writer

theorem soloCheckEffect_inDoubt {hs : List Holder} (hst : s.glb.state = .active) (hpair : s.syz.pair = .inDoubt) :
    soloCheckEffect hs s =
      if s.heldElsewhere hs then s.askHolders.fence
      else if s.mapReady && s.heldHere hs then s.askHolders.goSolo else s.askHolders :=
  if_neg (by simp [hst, hpair])

theorem Chip.heldElsewhere_of_mem {hs : List Holder} {x : Holder} (hx : x ∈ hs)
    (hmember : s.memberDrives.contains x.drive = true) (hkey : x.key.isSome = true) (hother : x.key ≠ some s.sec.writer) :
    s.heldElsewhere hs = true :=
  List.any_eq_true.mpr ⟨x, hx, by rw [hmember, hkey]; simpa using hother⟩

theorem Chip.not_heldElsewhere {hs : List Holder}
    (hfree : ∀ x ∈ hs, s.memberDrives.contains x.drive = true → x.key = none ∨ x.key = some s.sec.writer) :
    s.heldElsewhere hs = false := by
  refine List.any_eq_false.mpr fun x hx => ?_
  simp only [Bool.and_eq_true, bne_iff_ne, and_assoc]
  rintro ⟨hmember, hsome, hother⟩
  rcases hfree x hx hmember with hnone | hown
  · simp [hnone] at hsome
  · exact hother hown

theorem Chip.mapReady_of_mem {m d : Nat} (hmap : s.mapSet = some m) (hd : d ∈ s.memberDrives)
    (hholds : ((s.holds d).any fun x => x.1 == m) = true) : s.mapReady = true := by
  simp only [Chip.mapReady, hmap]
  exact List.any_eq_true.mpr ⟨d, hd, hholds⟩

theorem Chip.heldHere_of_all {hs : List Holder}
    (hall : ∀ d ∈ s.memberDrives, ∃ x ∈ hs, x.drive = d ∧ x.key = some s.sec.writer) : s.heldHere hs = true := by
  refine List.all_eq_true.mpr fun d hd => ?_
  obtain ⟨x, hx, hdrive, hkey⟩ := hall d hd
  exact List.any_eq_true.mpr ⟨x, hx, by simp [hdrive, hkey]⟩

end Timers

/-! ### The statement -/

/-- Settles O38: each timer by its effect where the unit's role and pair state are the ones named, a link by whether it is the first
in a start, and the reservation check by who holds the drives. -/
theorem twinTimersComplete : Obligations.TwinTimersComplete := by
  unfold Obligations.TwinTimersComplete
  refine ⟨fun s hon => ?beat, fun s hst hrole => ?lost, fun s => ?released, fun s hst hcaught => ?standby, fun s f hf => ?again,
    fun s link up hthere hunfenced hpowered hserving hon hchanges => ?link, fun s hs hst hpair hfree hmap hall => ?solo,
    fun s hs x hst hpair hx hmember hkey hother => ?fenced⟩
  case beat => exact next_on_congr (heartbeatIntervalEffect_on hon)
  case lost =>
    exact ⟨fun hpair => next_on_congr ((heartbeatLossEffect_active hst hrole).trans (Chip.partnerLost_paired hpair)),
      fun hpair => next_on_congr ((heartbeatLossEffect_active hst hrole).trans (Chip.partnerLost_catchingUp hpair)),
      fun hpair => next_on_congr ((twinFenceEffect_active hst hrole).trans (Chip.partnerLost_paired hpair))⟩
  case released => rfl
  case standby =>
    exact ⟨next_on_congr ((twinFenceEffect_umbra hst).trans (Chip.trigger_caughtUp 1 hst hcaught)),
      fun hseen => next_on_congr ((if_pos hseen).trans (Chip.trigger_caughtUp 3 hst hcaught))⟩
  case again => exact next_on_congr (syzRetransmitEffect_held hf)
  case link =>
    have h : s.chip.LinkMoves link up := ⟨hthere, hunfenced, hpowered, hserving, hon, hchanges⟩
    exact ⟨fun hother => next_on_congr (h.syzLinkEffect_other hother),
      fun hup hfirst hst => next_on_congr (h.syzLinkEffect_first hup hfirst hst)⟩
  case solo =>
    obtain ⟨m, d, hset, hd, hholds⟩ := hmap
    have hcheck : soloCheckEffect hs s.chip = s.chip.askHolders.goSolo := by
      rw [soloCheckEffect_inDoubt hst hpair, Chip.not_heldElsewhere hfree, Chip.mapReady_of_mem hset hd hholds,
        Chip.heldHere_of_all hall]
      rfl
    exact ⟨next_on_congr hcheck, next_on_congr hcheck⟩
  case fenced =>
    have hcheck : soloCheckEffect hs s.chip = s.chip.askHolders.fence :=
      (soloCheckEffect_inDoubt hst hpair).trans (if_pos (Chip.heldElsewhere_of_mem hx hmember hkey hother))
    exact ⟨next_on_congr hcheck, next_on_congr hcheck⟩

end Sys2Proof.Machine
end

section
/-!
The steps of a takeover: preemption and its limit, the seal search and its limit, the service taken, and the replay (O39).
-/
namespace Sys2Proof.Machine

section Steps

variable {s : Chip}

/-! ### Preemption (12 R308, Table 12-7 step 3) -/

/-- The member drives that are held as the limit passes. -/
def Chip.drivesHeld (s : Chip) : Nat := maskOfDrives (s.memberDrives.filter fun d => (s.drive d).holder)

theorem fenceLimitEffect_due (hst : s.glb.state = .takeover) (hpre : s.syz.preDone = false) :
    fenceLimitEffect s =
      (({ s with syz := { s.syz with preempted := s.drivesHeld } } : Chip).raise 0x0C 0xFFFF 3 3 0
        ([BitVec.ofNat 8 s.syz.trigger, 0] ++ le 4 s.drivesHeld)).toFault 8 :=
  if_neg (by simp [hst, hpre])

/-- The reservations are this unit's, and their preemption is no longer under way. -/
def Chip.drivesTaken (s : Chip) : Chip :=
  s.memberDrives.foldl (fun t d => t.modDrive d fun k => { k with
    holder := true, registered := true,
    cmds := k.cmds.filter fun c => c.2.cmd != .preempt s.sec.writer (s.syz.partner.getD 0) }) s

theorem preemptEffect_eq (hst : s.glb.state = .takeover) (hpre : s.syz.preDone = false) :
    preemptEffect s =
      if s.allMembers = false then s
      else (Chip.startScans { s.drivesTaken with syz := { s.drivesTaken.syz with
        preDone := true, step := Nat.max 3 s.drivesTaken.syz.step, preempted := maskOfDrives s.memberDrives } }).searchSeals := by
  simp only [preemptEffect, hst, hpre, bne_self_eq_false, Bool.false_or, Bool.not_eq_true']
  rfl

/-! ### The seal search (12 Table 12-7 step 4) -/

/-- The seal search over, with or without the seal of the old active. -/
def Chip.searchOver (s : Chip) (found : Bool) : Chip :=
  { s with syz := { s.syz with sealDone := true, step := Nat.max 4 s.syz.step }, glb := { s.glb with sealFound := found } }

theorem Chip.endSearch_open (found : Bool) (hst : s.glb.state = .takeover) (hopen : s.syz.sealDone = false) :
    s.endSearch found = s.searchOver found :=
  if_neg (by simp [hst, hopen])

/-! ### Service and replay (12 R310, R311, Table 12-7 steps 5 to 8) -/

theorem takeoverActiveEffect_serves (hst : s.glb.state = .takeover) (hpre : s.syz.preDone = true) (hseal : s.syz.sealDone = true)
    (hport : s.par 0xC00134 ≠ 0 ∨ s.hpx.up ≠ 0) : takeoverActiveEffect s = s.takeService :=
  if_neg (by simpa [hst, hpre, hseal] using or_iff_not_imp_left.mp hport)

theorem replayEffect_runs (hreplaying : s.syz.replaying = true) (hst : s.glb.state = .takeover ∨ s.glb.state = .active) :
    replayEffect s = s.replay :=
  if_neg (by simpa [hreplaying] using or_iff_not_imp_left.mp hst)

end Steps

/-! ### The statement -/

/-- Settles O39: preemption by whether every member is ready, the seal search by whether preemption is over, service and replay
where nothing holds them up. -/
theorem takeoverStepsComplete : Obligations.TakeoverStepsComplete := by
  unfold Obligations.TakeoverStepsComplete
  refine ⟨fun s hst hpre => ?preemption, fun s blocks hst hopen => ?search, fun s hst hpre hseal hport => ?service,
    fun s hreplaying hst => ?replay⟩
  case preemption =>
    exact ⟨next_on_congr (fenceLimitEffect_due hst hpre),
      fun hall => next_on_congr ((preemptEffect_eq hst hpre).trans (if_neg (ne_false_of_eq_true hall))),
      fun hsome => next_on_congr (g := id) ((preemptEffect_eq hst hpre).trans (if_pos hsome))⟩
  case search =>
    exact ⟨fun hpre => next_on_congr ((if_pos hpre).trans (Chip.endSearch_open _ hst hopen)),
      fun hpre => next_on_congr (g := id) (if_neg (ne_true_of_eq_false hpre)),
      next_on_congr (Chip.endSearch_open false hst hopen)⟩
  case service => exact next_on_congr (takeoverActiveEffect_serves hst hpre hseal hport)
  case replay => exact next_on_congr (replayEffect_runs hreplaying hst)

end Sys2Proof.Machine
end

section
/-!
The role of a starting unit: what a ROLE START and a HEARTBEAT tell it, and what the reservations decide (O40).
-/
namespace Sys2Proof.Machine

/-! ### Cells given back (06 R163): the role does not depend on them -/

theorem Chip.dropChain_quiet (s : Chip) (h : Handle) : (s.dropChain h).quiet = s.quiet := by
  unfold Chip.dropChain
  split <;> rfl

theorem Chip.releaseChain_quiet (s : Chip) (ag : Agent) (h : Handle) : (s.releaseChain ag h).quiet = s.quiet := by
  unfold Chip.releaseChain
  split
  · rfl
  · dsimp only
    split
    · split
      · exact (Chip.dropChain_quiet _ h).trans rfl
      · rfl
    · rfl

theorem Chip.freeChain_quiet (s : Chip) (ag : Agent) (h : Handle) : (s.freeChain ag h).quiet = s.quiet := by
  unfold Chip.freeChain
  split
  · rfl
  · split
    · split
      · exact s.dropChain_quiet h
      · rfl
    · split
      · split
        · exact s.dropChain_quiet h
        · rfl
      · rfl

theorem Chip.syzFree_quiet (s : Chip) (h : Handle) : (s.syzFree h).quiet = s.quiet :=
  (Chip.freeChain_quiet _ _ h).trans (s.releaseChain_quiet _ h)

/-- Frames given up leave everything but the engine's queues and the buffer pool. -/
theorem Chip.dropFrames_quiet (s : Chip) (all : Bool) : ∃ y : Syz, (s.dropFrames all).quiet = ({ s with syz := y } : Chip).quiet :=
  ⟨_, foldl_quiet _ Chip.syzFree_quiet _ _⟩

theorem Chip.dropFrames_glb (s : Chip) (all : Bool) : (s.dropFrames all).glb = s.glb := by
  obtain ⟨y, hy⟩ := s.dropFrames_quiet all
  exact Chip.glb_of_quiet (t := { s with syz := y }) hy

theorem Chip.dropFrames_roleDone (s : Chip) (all : Bool) : (s.dropFrames all).cfg.roleDone = s.cfg.roleDone := by
  obtain ⟨y, hy⟩ := s.dropFrames_quiet all
  have := congrArg (fun t : Chip => t.cfg.roleDone) hy
  exact this

/-! ### ROLE START (12 R296, R314) -/

/-- A starting unit whose role is not decided yet. -/
abbrev Chip.Decides (s : Chip) : Prop := s.glb.state = .start ∧ s.cfg.roleDone = false

/-- What a ROLE START tells whatever the unit's state: the partner's writer ID and the new link sequence; a partner that starts
holds nothing of what was sent to it. -/
def Chip.partnerLearnt (s : Chip) (h : SyzHead) (m : RoleMsg) (st : Nat) : Chip :=
  let u := if st = 1 then s.dropFrames true else s
  { u with syz := { u.syz with
    partner := some m.writer, started := true, rxKnown := true, rxSeq := h.seq.toNat, rxHeld := [], tags := [] } }

section Frames

variable {s : Chip} {h : SyzHead} {m : RoleMsg} {st : Nat} {caughtUp : Bool}

theorem Chip.partnerLearnt_state : (s.partnerLearnt h m st).glb.state = s.glb.state := by
  unfold Chip.partnerLearnt
  split
  · exact congrArg Glb.state (s.dropFrames_glb true)
  · rfl

theorem Chip.partnerLearnt_decides : (s.partnerLearnt h m st).Decides ↔ s.Decides := by
  have hdone : (s.partnerLearnt h m st).cfg.roleDone = s.cfg.roleDone := by
    unfold Chip.partnerLearnt
    split
    · exact s.dropFrames_roleDone true
    · rfl
  unfold Chip.Decides
  rw [Chip.partnerLearnt_state, hdone]

/-- What a unit that has learnt its partner does by its own state and its partner's. -/
def Chip.startHeard (t : Chip) (h : SyzHead) (m : RoleMsg) (st : Nat) (caughtUp : Bool) : Chip :=
  if t.Decides then (if st = 1 then t.roleAmong h m else t.roleFrom st caughtUp)
  else if st ≠ 1 then t
  else if t.glb.state = .umbra then t.startAtUmbra m
  else t.sendStart

theorem roleStartEffect_known (htakes : s.syzTakes h = true) (hown : s.foreign h = false)
    (hknown : (s.syz.rxKnown && s.syz.rxSeq == h.seq.toNat) = true) : roleStartEffect h m st caughtUp s = s.sendJournalAck :=
  (if_neg (by simp [htakes])).trans ((if_neg (ne_true_of_eq_false hown)).trans (if_pos hknown))

theorem roleStartEffect_new {t : Chip} (htakes : s.syzTakes h = true) (hown : s.foreign h = false)
    (hnew : (s.syz.rxKnown && s.syz.rxSeq == h.seq.toNat) = false) (ht : (s.partnerLearnt h m st).startHeard h m st caughtUp = t) :
    roleStartEffect h m st caughtUp s = t.sendJournalAck := by
  subst ht
  refine (if_neg (by simp [htakes])).trans ((if_neg (ne_true_of_eq_false hown)).trans ((if_neg (ne_true_of_eq_false hnew)).trans ?_))
  simp only [Chip.startHeard, Chip.partnerLearnt, Chip.Decides, beq_iff_eq, bne_iff_ne, Bool.and_eq_true, Bool.not_eq_true']
  rfl

end Frames

/-! ### The rows of R314 for a partner that does not start -/

section Rows

variable {s : Chip} {st : Nat} {caughtUp : Bool}

theorem Chip.roleFrom_decided (hd : ¬ s.Decides) : s.roleFrom st caughtUp = s :=
  if_pos (by simpa [Chip.Decides, or_iff_not_imp_left] using hd)

theorem Chip.roleFrom_decides (hd : s.Decides) :
    s.roleFrom st caughtUp =
      if st = 5 then s.decideRole .umbra 1
      else if st = 4 ∨ st = 8 then s.decideRole .umbra 3
      else if st = 3 then
        (if caughtUp = true ∧ s.syz.last = .active ∧ s.syz.sealedSelf = false then s.decideRole .umbra 2
        else s.decideRole .active 0)
      else s := by
  refine (if_neg (by simp [hd.1, hd.2])).trans ?_
  simp only [beq_iff_eq, Bool.or_eq_true, Bool.and_eq_true, Bool.not_eq_true', and_assoc]

theorem Chip.roleFrom_active (hd : s.Decides) (hst : st = 5) : s.roleFrom st caughtUp = s.decideRole .umbra 1 :=
  (Chip.roleFrom_decides hd).trans (if_pos hst)

theorem Chip.roleFrom_busy (hd : s.Decides) (hst : st = 4 ∨ st = 8) : s.roleFrom st caughtUp = s.decideRole .umbra 3 := by
  rw [Chip.roleFrom_decides hd, if_neg (by omega), if_pos hst]

theorem Chip.roleFrom_umbra (hd : s.Decides) (hst : st = 3) :
    s.roleFrom st caughtUp =
      if caughtUp = true ∧ s.syz.last = .active ∧ s.syz.sealedSelf = false then s.decideRole .umbra 2
      else s.decideRole .active 0 := by
  rw [Chip.roleFrom_decides hd, if_neg (by omega), if_neg (by omega), if_pos hst]

theorem Chip.roleFrom_other (hd : s.Decides) (h3 : st ≠ 3) (h4 : st ≠ 4) (h5 : st ≠ 5) (h8 : st ≠ 8) :
    s.roleFrom st caughtUp = s := by
  rw [Chip.roleFrom_decides hd, if_neg h5, if_neg (by omega), if_neg h3]

end Rows

/-! ### HEARTBEATs (12 R306) -/

/-- A standby that is caught up takes its active's epoch. -/
def Chip.epochHeard (s : Chip) (h : SyzHead) (role : Nat) : Chip :=
  if role = 1 ∧ s.glb.state = .umbra ∧ s.syz.caughtUp = true then { s with syz := { s.syz with partnerEpoch := h.epoch.toNat } }
  else s

/-- A JOIN that waits for an active partner is sent. -/
def Chip.joinDue (s : Chip) (role : Nat) : Chip :=
  if s.syz.join = 2 ∧ role = 1 ∧ s.glb.state = .umbra then s.sendJoin else s

section Heartbeats

variable {s : Chip} {h : SyzHead} {st role : Nat} {caughtUp : Bool}

theorem heartbeatEffect_takes (htakes : s.syzTakes h = true) (hown : s.foreign h = false) :
    heartbeatEffect h st role caughtUp s = ((s.epochHeard h role).roleFrom st caughtUp).joinDue role := by
  refine (Chip.recvLoose_takes htakes hown).trans ?_
  simp only [Chip.epochHeard, Chip.joinDue, Bool.and_eq_true, beq_iff_eq, and_assoc]

theorem Chip.epochHeard_decides : (s.epochHeard h role).Decides ↔ s.Decides := by
  unfold Chip.epochHeard
  split <;> exact Iff.rfl

theorem Chip.epochHeard_start (hst : s.glb.state = .start) : s.epochHeard h role = s :=
  if_neg (by simp [hst])

theorem Chip.joinDue_start (hst : s.glb.state = .start) : s.joinDue role = s :=
  if_neg (by simp [hst])

theorem heartbeatEffect_decided (htakes : s.syzTakes h = true) (hown : s.foreign h = false) (hd : ¬ s.Decides) :
    heartbeatEffect h st role caughtUp s = (s.epochHeard h role).joinDue role := by
  rw [heartbeatEffect_takes htakes hown, Chip.roleFrom_decided (mt Chip.epochHeard_decides.mp hd)]

theorem heartbeatEffect_decides {t : Chip} (htakes : s.syzTakes h = true) (hown : s.foreign h = false) (hd : s.Decides)
    (hrow : s.roleFrom st caughtUp = t) : heartbeatEffect h st role caughtUp s = t.joinDue role := by
  rw [heartbeatEffect_takes htakes hown, Chip.epochHeard_start hd.1, hrow]

end Heartbeats

/-! ### The reservations (12 R314) -/

/-- The ready drives of the map set's mask. -/
def Chip.mapDrives (s : Chip) (m : Nat) : List Nat :=
  (List.range s.nDrives).filter fun d => (s.drive d).ready && bit (s.set m).cfg.mask d

/-- One of those drives is held by another unit. -/
def Chip.mapHeld (s : Chip) (m : Nat) (hs : List Holder) : Bool :=
  (hs.filter fun x => (s.mapDrives m).contains x.drive).any fun x => x.key.isSome && x.key != some s.sec.writer

section Reservations

variable {s : Chip} {hs : List Holder} {m : Nat}

/-- SYZ_JOIN_WAIT has passed at a unit that decides its role without its partner: every drive of the map set has reported. -/
structure Chip.AllReported (s : Chip) (hs : List Holder) (m : Nat) : Prop where
  decides : s.Decides
  alone : s.syz.started = false
  phase : 2 ≤ s.cfg.phase
  map : s.mapSet = some m
  nonempty : s.mapDrives m ≠ []
  reports : ∀ d ∈ s.mapDrives m, ∃ x ∈ hs, x.drive = d

theorem Chip.AllReported.joinWaitEffect_eq (h : s.AllReported hs m) :
    joinWaitEffect hs s = if s.mapHeld m hs then s.raise 0x0C 0xFFFF 4 1 0 [0, 0] else s.decideRole .active 0 := by
  have hall : ((s.mapDrives m).all fun d => hs.any fun x => x.drive == d) = true := by simpa using h.reports
  have hsome : (s.mapDrives m).isEmpty = false := by simpa using h.nonempty
  refine (if_neg (by simp [h.decides.1, h.decides.2, h.alone, Nat.not_lt.mpr h.phase])).trans ?_
  simp only [h.map]
  unfold Chip.mapDrives at hall hsome
  exact if_neg (by rw [hall, hsome]; decide)

theorem Chip.mapHeld_iff : s.mapHeld m hs = true ↔
    ∃ x ∈ hs, x.drive ∈ s.mapDrives m ∧ x.key ≠ none ∧ x.key ≠ some s.sec.writer := by
  simp [Chip.mapHeld, Option.isSome_iff_ne_none]

end Reservations

/-! ### The statement -/

/-- Settles O40: a ROLE START and a HEARTBEAT by whether the unit decides its role and by the partner's state, and the reservations
by whether another unit holds a drive of the map set. -/
theorem roleDecided : Obligations.RoleDecided := by
  unfold Obligations.RoleDecided
  refine ⟨fun s h m st c htakes hown => ?start, fun s h st role pos c e htakes hown => ?heartbeat,
    fun s hs m hst hdone halone hphase hmap hsome hall => ?reservations⟩
  case start =>
    have hdecides : (s.chip.partnerLearnt h m st).Decides ↔ s.chip.Decides := Chip.partnerLearnt_decides
    have hstate : (s.chip.partnerLearnt h m st).glb.state = s.chip.glb.state := Chip.partnerLearnt_state
    refine ⟨fun hknown => next_on_congr (roleStartEffect_known htakes hown hknown), fun hnew hd hst => ?among,
      fun hnew hd hst => ?beside, fun hnew hd hst => ?told, fun hnew hrun hst => ?umbra, fun hnew hd hrun hst => ?answers⟩
    case among =>
      exact next_on_congr (roleStartEffect_new htakes hown hnew ((if_pos (hdecides.mpr hd)).trans (if_pos hst)))
    case beside =>
      exact next_on_congr (roleStartEffect_new htakes hown hnew ((if_pos (hdecides.mpr hd)).trans (if_neg hst)))
    case told =>
      exact next_on_congr (roleStartEffect_new htakes hown hnew ((if_neg (mt hdecides.mp hd)).trans (if_pos hst)))
    case umbra =>
      have hd : ¬ s.chip.Decides := fun hd => by simp [hd.1] at hrun
      exact next_on_congr (roleStartEffect_new htakes hown hnew ((if_neg (mt hdecides.mp hd)).trans
        ((if_neg (not_not_intro hst)).trans (if_pos (hstate.trans hrun)))))
    case answers =>
      exact next_on_congr (roleStartEffect_new htakes hown hnew ((if_neg (mt hdecides.mp hd)).trans
        ((if_neg (not_not_intro hst)).trans (if_neg (mt hstate.symm.trans hrun)))))
  case heartbeat =>
    refine ⟨fun hd => next_on_congr (heartbeatEffect_decided htakes hown hd),
      fun hd hst => next_on_congr (heartbeatEffect_decides htakes hown hd (Chip.roleFrom_active hd hst)),
      fun hd hst => next_on_congr (heartbeatEffect_decides htakes hown hd (Chip.roleFrom_busy hd hst)),
      fun hd hst hc hlast hseal => ?yields, fun hd hst hnot => ?leads, fun hd h3 h4 h5 h8 => ?silent⟩
    case yields =>
      exact next_on_congr (heartbeatEffect_decides htakes hown hd ((Chip.roleFrom_umbra hd hst).trans (if_pos ⟨hc, hlast, hseal⟩)))
    case leads =>
      have hrow : ¬ (c = true ∧ s.chip.syz.last = .active ∧ s.chip.syz.sealedSelf = false) := by
        rintro ⟨hc, hlast, hseal⟩
        rcases hnot with hbehind | hnever | hsealed
        · exact ne_true_of_eq_false hbehind hc
        · exact hnever hlast
        · exact ne_true_of_eq_false hseal hsealed
      exact next_on_congr (heartbeatEffect_decides htakes hown hd ((Chip.roleFrom_umbra hd hst).trans (if_neg hrow)))
    case silent =>
      exact next_on_congr (g := id)
        ((heartbeatEffect_decides htakes hown hd (Chip.roleFrom_other hd h3 h4 h5 h8)).trans (Chip.joinDue_start hd.1))
  case reservations =>
    have h : s.chip.AllReported hs m := ⟨⟨hst, hdone⟩, halone, hphase, hmap, hsome, hall⟩
    refine ⟨fun hfree => ?alone, fun hother => ?held⟩
    case alone =>
      refine next_on_congr (h.joinWaitEffect_eq.trans (if_neg (mt Chip.mapHeld_iff.mp ?_)))
      rintro ⟨x, hx, hdrive, hkey, hother⟩
      exact (hfree x hx hdrive).elim hkey hother
    case held => exact next_on_congr (h.joinWaitEffect_eq.trans (if_pos (Chip.mapHeld_iff.mpr hother)))

end Sys2Proof.Machine
end

section
/-!
Eclipse: the end of each step, its limit, the planned switchover, and the whole seconds of an urgent run (O41).
-/
namespace Sys2Proof.Machine

section Steps

variable {s : Chip}

/-! ### E2 to E4 (13 R335, R336) -/

theorem e2LimitEffect_step (hst : s.glb.state = .eclipse) (hstep : s.ecl.step = 2) : e2LimitEffect s = s.giveUp s.unfinished :=
  if_neg (by simp [hst, hstep])

/-- The chip with the reads that wait given up, as E2 is to end. -/
def Chip.readsGivenUp (s : Chip) : Chip := s.giveUp (s.allMsgs.filter fun x => s.readWaits x.2)

theorem e2CompleteEffect_step (hst : s.glb.state = .eclipse) (hstep : s.ecl.step = 2) (hdone : s.readsGivenUp.unfinished = [])
    (hempty : (s.readsGivenUp.lcc.banks.any fun e => !e.2.wtb.isEmpty) = false) :
    e2CompleteEffect s =
      let u := s.readsGivenUp
      ((if u.ecl.kind == 2 then u else u.gate (List.range 16) true).eclStep 3).noteEclipse := by
  refine (if_neg (by simp [hst, hstep])).trans ?_
  unfold Chip.readsGivenUp at hdone hempty
  exact if_neg (by rw [hdone, hempty]; decide)

theorem e3CompleteEffect_step (hst : s.glb.state = .eclipse) (hstep : s.ecl.step = 3) : e3CompleteEffect s = s.endE3 :=
  if_neg (by simp [hst, hstep])

theorem drainCompleteEffect_step (hst : s.glb.state = .eclipse) (hstep : s.ecl.step = 4) (hleft : s.drainLeft = []) :
    drainCompleteEffect s = s.beginE5 :=
  if_neg (by simp [hst, hstep, hleft])

/-! ### The end of E5 (12 R316, 13 R337, R343) -/

/-- The unit's seal is written, by a unit that was not in UMBRA. -/
def Chip.sealNoted (s : Chip) : Chip := if s.ecl.standby then s else { s with ecl := { s.ecl with sealed := true } }

/-- Every write of E5 has completed. -/
structure Chip.EndsE5 (s : Chip) : Prop where
  state : s.glb.state = .eclipse
  step : s.ecl.step = 5
  running : s.ecl.waiting = false
  store : s.cfg.pend = []
  drives : s.inFlight .deviceSeal = false

/-- A switchover hands over; Eclipse resumes, waits for rising input or goes on to E6. -/
theorem Chip.EndsE5.sealWrittenEffect_eq (h : s.EndsE5) :
    sealWrittenEffect s =
      if s.sealNoted.ecl.kind == 2 then s.sealNoted.switchDone
      else if s.sealNoted.pws.returned && s.sealNoted.eligible then s.sealNoted.beginStart true
      else if s.sealNoted.inputRises && s.sealNoted.eligible then
        { s.sealNoted with ecl := { s.sealNoted.ecl with waiting := true } }
      else s.sealNoted.beginE6 :=
  if_neg (by simp [h.state, h.step, h.running, h.store, h.drives])

theorem Chip.EndsE5.sealWrittenEffect_switch (h : s.EndsE5) (hkind : s.sealNoted.ecl.kind = 2) :
    sealWrittenEffect s = s.sealNoted.switchDone := by
  rw [h.sealWrittenEffect_eq, if_pos (beq_iff_eq.mpr hkind)]

theorem Chip.EndsE5.sealWrittenEffect_resumes (h : s.EndsE5) (hkind : s.sealNoted.ecl.kind ≠ 2)
    (hback : s.sealNoted.pws.returned = true) (helig : s.sealNoted.eligible = true) :
    sealWrittenEffect s = s.sealNoted.beginStart true := by
  rw [h.sealWrittenEffect_eq, if_neg (mt beq_iff_eq.mp hkind), if_pos (by simp [hback, helig])]

theorem Chip.EndsE5.sealWrittenEffect_waits (h : s.EndsE5) (hkind : s.sealNoted.ecl.kind ≠ 2)
    (hback : s.sealNoted.pws.returned = false) (hrises : s.sealNoted.inputRises = true) (helig : s.sealNoted.eligible = true) :
    sealWrittenEffect s = { s.sealNoted with ecl := { s.sealNoted.ecl with waiting := true } } := by
  rw [h.sealWrittenEffect_eq, if_neg (mt beq_iff_eq.mp hkind), if_neg (by simp [hback]), if_pos (by simp [hrises, helig])]

theorem Chip.EndsE5.sealWrittenEffect_lost (h : s.EndsE5) (hkind : s.sealNoted.ecl.kind ≠ 2)
    (helig : s.sealNoted.eligible = false) : sealWrittenEffect s = s.sealNoted.beginE6 := by
  rw [h.sealWrittenEffect_eq, if_neg (mt beq_iff_eq.mp hkind), if_neg (by simp [helig]), if_neg (by simp [helig])]

theorem returnWaitEffect_waits (hst : s.glb.state = .eclipse) (hstep : s.ecl.step = 5) (hwait : s.ecl.waiting = true) :
    returnWaitEffect s = ({ s with ecl := { s.ecl with waiting := false } } : Chip).beginE6 :=
  if_pos (by simp [hst, hstep, hwait])

/-! ### E6 (13 R338) -/

/-- The chip with a drive shut down and held in reset. -/
def Chip.driveShut (s : Chip) (d : Nat) : Chip := s.modDrive d fun k => { k.held with shut := true }

theorem driveShutdownEffect_step {d : Nat} (hst : s.glb.state = .eclipse) (hstep : s.ecl.step = 6)
    (hd : s.shutting.contains d = true) :
    driveShutdownEffect d s = if (s.driveShut d).shutting.isEmpty then (s.driveShut d).powerDown else s.driveShut d :=
  if_neg (by rw [hd]; simp [hst, hstep])

/-! ### Switchover and urgent seconds (12 R316, 13 R340) -/

theorem switchoverEffect_paired (hst : s.glb.state = .active) (hpair : s.syz.pair = .paired) :
    switchoverEffect s = s.beginEclipse 2 :=
  if_pos ⟨hst, hpair⟩

theorem switchoverEffect_refused (hnot : s.glb.state ≠ .active ∨ s.syz.pair ≠ .paired) :
    switchoverEffect s = ({ s with syz := { s.syz with swResult := 2 } } : Chip).raise 0x0C 0xFFFF 5 0 0 [2] :=
  if_neg fun ⟨hst, hpair⟩ => hnot.elim (· hst) (· hpair)

/-- The next whole second of an urgent run. -/
def Chip.nextSecond (s : Chip) (r : UrgentRun) : Chip :=
  { s with pgm := { s.pgm with run := some { r with second := r.second + 1000000000, secBytes := 0, secSeals := 0 } } }

/-- A second that sealed a stripe is a measurement. -/
theorem drainRateSecondEffect_sealed {r : UrgentRun} (hrun : s.pgm.run = some r) (hseals : r.secSeals ≠ 0) :
    drainRateSecondEffect s = ((s.nextSecond r).measured 1000000000 r.secBytes).levels := by
  simp only [drainRateSecondEffect, hrun]
  exact if_neg (mt beq_iff_eq.mp hseals)

end Steps

/-! ### The statement -/

/-- Settles O41: each step's end and limit in its own step, the end of E5 by what ran and whether input is back, the end of E6 by the
drives that are left, and a switchover by whether the unit may hand over. -/
theorem eclipseCommandsComplete : Obligations.EclipseCommandsComplete := by
  unfold Obligations.EclipseCommandsComplete
  refine ⟨fun s hst hstep => ?e2, fun s hst hstep => ?e3, fun s hst hstep hleft => ?e4,
    fun s hst hstep hrunning hstore hdrives => ?e5, fun s hst hstep hwait => ?wait, fun s d hst hstep hd => ?e6, fun s q hq => ?switch,
    fun s r hrun hseals => ?second⟩
  case e2 =>
    exact ⟨next_on_congr (e2LimitEffect_step hst hstep),
      fun hdone hempty => next_on_congr (g := fun _ => _) (e2CompleteEffect_step hst hstep hdone hempty)⟩
  case e3 => exact next_on_congr (e3CompleteEffect_step hst hstep)
  case e4 => exact next_on_congr (drainCompleteEffect_step hst hstep hleft)
  case e5 =>
    have h : s.chip.EndsE5 := ⟨hst, hstep, hrunning, hstore, hdrives⟩
    exact ⟨fun hkind => next_on_congr (g := fun _ => _) (h.sealWrittenEffect_switch hkind),
      fun hkind hback helig => next_on_congr (g := fun _ => _) (h.sealWrittenEffect_resumes hkind hback helig),
      fun hkind hback hrises helig => next_on_congr (g := fun _ => _) (h.sealWrittenEffect_waits hkind hback hrises helig),
      fun hkind helig => next_on_congr (g := fun _ => _) (h.sealWrittenEffect_lost hkind helig)⟩
  case wait => exact next_on_congr (returnWaitEffect_waits hst hstep hwait)
  case e6 =>
    exact ⟨fun hlast => next_on_congr (g := fun _ => _)
        ((driveShutdownEffect_step hst hstep hd).trans (if_pos (List.isEmpty_iff.mpr hlast))),
      fun hmore => next_on_congr (g := fun _ => _)
        ((driveShutdownEffect_step hst hstep hd).trans (if_neg (mt List.isEmpty_iff.mp hmore)))⟩
  case switch =>
    exact ⟨fun hst hpair => next_on_congr ((asRole_grants hq).trans (switchoverEffect_paired hst hpair)),
      fun hnot => next_on_congr ((asRole_grants hq).trans (switchoverEffect_refused hnot))⟩
  case second => exact next_on_congr (drainRateSecondEffect_sealed hrun hseals)

end Sys2Proof.Machine
end

section
/-!
What the chip holds right after reset (O49).
-/
namespace Sys2Proof.Machine

/-- Every domain is gated at reset (13 R332, Table 13-5). -/
theorem Chip.reset_domainOn : ∀ d, d < 24 → Chip.reset.domainOn d = false := by decide

/-- No session holds a role at reset: neither the I2C target nor a connection. -/
theorem Chip.reset_ses_role (q : Session) : (Chip.reset.ses q).role = 0 := by
  cases q with
  | i2c => rfl
  | mgmt c => rfl

/-- A blank part is not locked, so it lacks nothing that a locked one holds. -/
theorem Otp.blank_whole : Otp.blank.whole := fun h => nomatch h

/-- Settles O49: the tables of the reset state list nothing, so each entry reads as its default; the rest are its fields. -/
theorem resetValues : Obligations.ResetValues := by
  unfold Obligations.ResetValues
  refine ⟨rfl, rfl, rfl, rfl, rfl, ?rails, ?outputs, Chip.reset_domainOn, ?connections, ?regions, ?counters, ?parameters,
    Chip.reset_ses_role, rfl, rfl, rfl, ?sets, rfl, Otp.blank_whole⟩
  case rails => decide
  case outputs => decide
  case connections => exact fun n => rfl
  case regions => exact fun i => ⟨rfl, rfl⟩
  case counters => exact fun a => rfl
  case parameters => exact fun a => rfl
  case sets => exact fun i => ⟨rfl, rfl⟩

end Sys2Proof.Machine
end

section
/-!
What every step leaves of the queue and of the fuses (O46, O48, O50, O51), an idle step (O47), and the counters (O53).
-/
namespace Sys2Proof.Machine

/-- An outcome that only updates the chip leaves the queue and the fuses alone. -/
theorem Lasts.of_next_on {s t : State} {f : Chip → Chip}
    (h : (.next (s.on f) : Host.Outcome State Fault Refusal) = .next t) : Lasts s t := by
  cases h; exact lasts_on s f

/-- An outcome whose next state lasts. -/
theorem Lasts.of_next {s t u : State} (g : Lasts s u) (h : (.next u : Host.Outcome State Fault Refusal) = .next t) :
    Lasts s t := by
  cases h; exact g

theorem lasts_registerWrite (q : Session) (a : Nat) (v : Word) (s : State) :
    Lasts s (if s.chip.sesLive q then (writeReg q a v.toNat s).2 else s) :=
  lasts_if (lasts_writeReg q a _ s) (Lasts.refl s)

/-- What any command leaves of the queue and the fuses: the commands of provisioning, and those that write registers or
carry such a write, by their own lemmas; every other command updates the chip alone (15 R380, R386). -/
theorem exec_lasts {c : Instr} {s t : State} (h : exec c s = .next t) : Lasts s t := by
  cases c with
  | mgmtRead p => exact .of_next (lasts_arrive _ p s) h
  | mgmtWrite p => exact .of_next (lasts_arrive _ p s) h
  | subscribe p => exact .of_next (lasts_arrive _ p s) h
  | unsubscribe p => exact .of_next (lasts_arrive _ p s) h
  | hello q => exact .of_next (lasts_session _ q s) h
  | prove q => exact .of_next (lasts_session _ q s) h
  | drop q => exact .of_next (lasts_session _ q s) h
  | powerTable q p => exact .of_next (lasts_asRole s q 23 3 _ (lasts_powerTable _)) h
  | mac q m => exact .of_next (lasts_asRole s q 23 3 _ (lasts_mac m)) h
  | rootHash q r => exact .of_next (lasts_asRole s q 23 3 _ (lasts_root r)) h
  | lock q => exact .of_next (lasts_asRole s q 23 3 _ lasts_lock) h
  | disableForever q => exact .of_next (lasts_asRole s q 23 3 _ lasts_disable) h
  | registerWrite q a v => exact .of_next (lasts_registerWrite q a v s) h
  | i2cWrite b p => exact .of_next (lasts_i2cWrite b p s) h
  | i2cRead b n => exact .of_next (lasts_i2cReadEffect b n s) h
  | i2cTimeout => exact .of_next (Lasts.refl s) h
  | tapInstruction i => exact lasts_tap i s t h
  | _ => exact .of_next_on h

/-- What a step from the front of the queue leaves of the fuses, or a tick of the clock. -/
theorem step_kept {s t : State} (h : step s = .next t) : s.otp.kept t.otp ∧ (s.otp.whole → t.otp.whole) := by
  unfold step at h
  split at h
  · exact (Lasts.of_next_on h).2
  · exact (exec_lasts h).2

/-- Settles O50: no step undoes a programmed fuse. -/
theorem fusesAreKept : Obligations.FusesAreKept := fun _ _ h => (step_kept h).1

/-- Settles O51: no step takes from a locked part what it holds. -/
theorem lockedPartsStayWhole : Obligations.LockedPartsStayWhole := fun _ _ hwhole h => (step_kept h).2 hwhole

/-- Settles O48: every command that answers a next state leaves the queue as it was. -/
theorem execKeepsQueue : Obligations.ExecKeepsQueue := fun _ _ _ h => (exec_lasts h).1

/-- Settles O46: the queue's front is what `step` matches on. -/
theorem stepRunsFrontCommand : Obligations.StepRunsFrontCommand := fun _ _ => rfl

/-! ### Commands of a session with the role -/

/-- A command of a session with the role has its own effect (17 R413, R414). -/
theorem next_asRole {s : State} {q : Session} {d r : Nat} {f g : Chip → Chip} (hq : s.chip.grants q d r)
    (h : f s.chip = g s.chip) :
    (.next (s.on fun c => c.asRole q d r f) : Host.Outcome State Fault Refusal) = .next (s.on g) :=
  next_on_congr ((asRole_grants hq).trans h)

/-- Ports that transmit: they run and their domain is powered (13 Table 13-5). -/
theorem Chip.hostOn_iff (s : Chip) : s.hostOn = true ↔ s.hpx.stopped = false ∧ bit s.pws.gated 20 = false := by
  simp [Chip.hostOn]

/-- Settles O47: an idle cycle moves the clock, and the end of a PAUSE sends what it held where the ports transmit. -/
theorem stepIdlesOnEmptyQueue : Obligations.StepIdlesOnEmptyQueue := by
  intro s hempty till t gone
  have hstep : step s = .next (s.on Chip.idle) := by unfold step; rw [hempty]
  have hsent : s.chip.idle = if t.hostOn = true then t.emits gone else t := rfl
  rw [hstep]
  simp only [State.on, hsent, Chip.hostOn_iff, t]

/-- Settles O53: `count` sets one entry of the counter table, to the sum or the largest word. -/
theorem countersSaturate : Obligations.CountersSaturate := by
  intro s a n _
  have hcount : (s.count a n).cnt a = Nat.min (s.cnt a + n) (2 ^ 32 - 1) := Tab.get_set_same _ _ _ _
  refine ⟨fun h => ?_, fun h => ?_, fun b hb => Tab.get_set_other _ _ _ _ hb _, rfl⟩
  · rw [hcount]; exact Nat.min_eq_left (by omega)
  · rw [hcount]; exact Nat.min_eq_right (by omega)

end Sys2Proof.Machine
end

section
/-!
The sequence of a record of the ring (O55).
-/
namespace Sys2Proof.Machine

/-- The event that `raise` queues. -/
abbrev plainEvent (src inst code sev flags : Nat) (payload : List Byte) : Event :=
  { src, inst, code, sev, flags, payload, clamp := none }

/-- The chip with an event queued behind the others. -/
def Chip.queueEvent (s : Chip) (e : Event) : Chip := { s with evr := { s.evr with queue := s.evr.queue ++ [e] } }

/-- Nothing leaves the queue while no record may be written (16 R390). -/
theorem Chip.flushEvents_waits (s : Chip) (h : s.evr.canWrite = false) : s.flushEvents = s := by
  have hdrain : Chip.drainEvents s.evr.queue.length s = s := by
    cases hq : s.evr.queue with
    | nil => rfl
    | cons e rest => simp [Chip.drainEvents, hq, h]
  unfold Chip.flushEvents
  rw [hdrain]
  simp [Chip.reportDropped, h]

/-- An event raised while no record may be written waits where the queue has room. -/
theorem Chip.raise_waits (s : Chip) (src inst code sev flags : Nat) (payload : List Byte) (h : s.evr.canWrite = false)
    (hroom : s.evr.queue.length < 256) :
    s.raise src inst code sev flags payload = s.queueEvent (plainEvent src inst code sev flags payload) :=
  (if_pos hroom).trans (Chip.flushEvents_waits _ h)

/-- A full queue drops an event: only the count of what was dropped moves. -/
theorem Chip.raise_drops_evr (s : Chip) (src inst code sev flags : Nat) (payload : List Byte)
    (hfull : ¬ s.evr.queue.length < 256) :
    (s.raise src inst code sev flags payload).evr = { s.evr with
      dropSeq := if s.evr.dropped == 0 then s.evr.head else s.evr.dropSeq, dropped := s.evr.dropped + 1 } := by
  unfold Chip.raise Chip.raiseClamp
  rw [if_neg hfull]
  rfl

/-- A record's first eight bytes are its sequence (16 Table 16-1). -/
theorem Event.leField_bytes_seq (e : Event) (q : Nat) : leField (e.bytes q) 0 8 = q % 2 ^ 64 := by
  have hslice : slice (e.bytes q) 0 8 = le 8 q := by
    unfold Event.bytes
    simp only [List.append_assoc]
    exact slice_start _ _ _ (le_length 8 q)
  rw [leField, hslice, unle_le]
  norm_num

/-- Settles O55: `ring_writeRecord` says what a written record leaves of the ring; one that waits or is dropped leaves it. -/
theorem recordsAreNumbered : Obligations.RecordsAreNumbered := by
  refine ⟨fun s e => ?written, fun s src inst code sev flags payload hcannot => ?waits⟩
  case written =>
    obtain ⟨hring, hnext⟩ := Prod.mk.inj (ring_writeRecord s e)
    refine ⟨hnext, ?_, fun i hi => ?_, e.leField_bytes_seq _⟩
    · rw [hring]; exact Tab.find_ins_same _ _ _
    · rw [hring]; exact Tab.find_ins_other _ _ _ hi _
  case waits =>
    by_cases hroom : s.evr.queue.length < 256
    · rw [s.raise_waits _ _ _ _ _ _ hcannot hroom]
      exact ⟨rfl, rfl, (if_pos hroom).symm⟩
    · simp only [s.raise_drops_evr _ _ _ _ _ _ hroom, if_neg hroom, and_self]

end Sys2Proof.Machine
end

section
/-!
The records of the configuration store and what completes in it (O45, O54).
-/
namespace Sys2Proof.Machine

/-- The three parts of a record: 120 bytes, their CRC and the valid word. -/
theorem sealRecord_eq (body : List Byte) :
    sealRecord body = (padTo 120 body ++ le 4 (crc32c (padTo 120 body))) ++ le 4 0x0F1E2D3C := rfl

/-- Padding keeps the bytes that fit. -/
theorem padTo_eq_append {n : Nat} {bs : List Byte} (h : bs.length ≤ n) : padTo n bs = bs ++ List.replicate (n - bs.length) 0 := by
  rw [padTo, List.take_of_length_le h]

section Sealed
variable {body : List Byte} (hlen : body.length ≤ 120)
include hlen

theorem sealRecord_length : (sealRecord body).length = 128 := by
  simp [sealRecord_eq, padTo_length 120 body hlen]

theorem sealRecord_take_body : (sealRecord body).take body.length = body := by
  rw [sealRecord_eq, padTo_eq_append hlen]
  simp

theorem sealRecord_valid : leField (sealRecord body) 124 4 = 0x0F1E2D3C := by
  have hslice : slice (sealRecord body) 124 4 = le 4 0x0F1E2D3C :=
    slice_end _ _ _ _ (by simp [padTo_length 120 body hlen]) (le_length 4 _)
  rw [leField, hslice, unle_le]
  norm_num

theorem sealRecord_crc : leField (sealRecord body) 120 4 = crc32c (padTo 120 body) := by
  have hslice : slice (sealRecord body) 120 4 = le 4 (crc32c (padTo 120 body)) :=
    slice_mid _ _ _ _ _ (padTo_length 120 body hlen) (le_length 4 _)
  rw [leField, hslice, unle_crc32c]

theorem sealRecord_take_crc : (sealRecord body).take 120 = padTo 120 body := by
  rw [sealRecord_eq, List.append_assoc]
  exact List.take_left' (padTo_length 120 body hlen)

/-- A sealed record whose valid word is erased again does not read as valid. -/
theorem sealRecord_unsealed : recordOk ((sealRecord body).take 124 ++ List.replicate 4 0xFF) = false := by
  have hslice : slice ((sealRecord body).take 124 ++ List.replicate 4 0xFF) 124 4 = List.replicate 4 0xFF :=
    slice_end _ _ _ _ (by simp [sealRecord_length hlen]) (List.length_replicate ..)
  have hvalid : leField ((sealRecord body).take 124 ++ List.replicate 4 0xFF) 124 4 = 0xFFFFFFFF := by
    rw [leField, hslice]; decide
  rw [recordOk, hvalid]; rfl

end Sealed

/-- Settles O54: the slices of a sealed record are the parts it was made of. -/
theorem sealedRecordsCount : Obligations.SealedRecordsCount := by
  intro body hlen
  refine ⟨?_, sealRecord_length hlen, sealRecord_take_body hlen, sealRecord_unsealed hlen⟩
  simp [recordOk, sealRecord_valid hlen, sealRecord_crc hlen, sealRecord_take_crc hlen]

/-! ### Records of the store (14 R348, R349) -/

/-- A record of the change log at the front of what waits is programmed at its place. -/
theorem recordDoneEffect_log {s : Chip} {body : List Byte} {rest : List (Nat × List Byte)} (hok : s.cfg.flashOk = true)
    (hpend : s.cfg.pend = (0, body) :: rest) : recordDoneEffect s = (s.putLog body rest).writeSeal := by
  unfold recordDoneEffect recordWrittenEffect
  simp [hpend, hok]

/-- A record of the remap area at the front of what waits goes to its area, which has room. -/
theorem recordDoneEffect_remap {s : Chip} {body : List Byte} {rest : List (Nat × List Byte)} (hok : s.cfg.flashOk = true)
    (hpend : s.cfg.pend = (1, body) :: rest) (hroom : s.cfg.fill.getD 0 0 < 512) :
    recordDoneEffect s = ({ s with cfg := { s.cfg with pend := rest } }.putRecord 0 body).writeSeal := by
  unfold recordDoneEffect recordWrittenEffect
  simp only [hpend, hok, Nat.sub_self, decide_eq_false (Nat.not_le.mpr hroom)]
  rfl

/-- A background erase that was asked for clears the area's other sector. -/
theorem backgroundEraseEffect_asked {s : Chip} {a : StoreArea} {i : Nat} (ha : (a = .remap ∧ i = 0) ∨ (a = .power ∧ i = 1))
    (hask : bit s.cfg.erase i = true) : backgroundEraseEffect a s =
      let u := s.flashErase (areaBase i + 0x10000 * (1 - s.cfg.sector.getD i 0)) 0x10000
      { u with cfg := { u.cfg with erase := setBit u.cfg.erase i false } } := by
  obtain ⟨rfl, rfl⟩ | ⟨rfl, rfl⟩ := ha
  · exact if_pos hask
  · exact if_pos hask

/-! ### The ends of staging (14 R370, R371) -/

theorem stageCompleteEffect_busy {s : Chip} (hbusy : s.cfg.busy = true) : stageCompleteEffect s =
    { s with cfg := { s.cfg with
        busy := false, result := 1, cmd := 0, owner := if s.cfg.cmd = 3 ∨ s.cfg.cmd = 4 then none else s.cfg.owner } } := by
  unfold stageCompleteEffect
  simp only [hbusy, if_true, Bool.or_eq_true, beq_iff_eq]

theorem stageTimeoutEffect_owned {s : Chip} (howner : s.cfg.owner.isSome = true) : stageTimeoutEffect s =
    { s with cfg := { s.cfg with owner := none, busy := false, cmd := 0, result := 4 } } := by
  have hnone : ¬ s.cfg.owner.isNone = true := by simp [Option.isSome_iff_ne_none.mp howner]
  exact (if_pos howner).trans (if_neg hnone)

/-- Settles O45: what FLASH_RECORD_WRITTEN, the background erase and the ends of staging do where they have work. -/
theorem storeCommandsComplete : Obligations.StoreCommandsComplete := by
  refine ⟨fun s body rest hok => ⟨fun hlog => ?log, fun hremap hroom => ?remap⟩, fun s a i ha hask => ?erase,
    fun s hbusy => ?complete, fun s howner => ?timeout⟩
  case log => exact next_on_congr (g := fun t => (t.putLog body rest).writeSeal) (recordDoneEffect_log hok hlog)
  case remap => exact next_on_congr (recordDoneEffect_remap hok hremap hroom)
  case erase => exact next_on_congr (backgroundEraseEffect_asked ha hask)
  case complete => exact next_on_congr (stageCompleteEffect_busy hbusy)
  case timeout => exact next_on_congr (stageTimeoutEffect_owned howner)

end Sys2Proof.Machine
end

section
/-!
Staging a new image: the bytes of the store that each command programs (O15).
-/
namespace Sys2Proof.Machine

/-! ### Bytes of the store (14 Table 14-1) -/

/-- A byte of a cleared range reads as the default. -/
theorem Memory.read_clear_inside (d : Byte) (m : Memory) (lo n a : Nat) (h : lo ≤ a ∧ a < lo + n) :
    Memory.read d (Memory.clear m lo n) a = d := by
  induction m with
  | nil => rfl
  | cons c r ih =>
    by_cases hc : lo ≤ c.1 ∧ c.1 < lo + n
    · rw [Memory.clear, List.filter_cons_of_neg (by simpa using hc)]
      exact ih
    · rw [Memory.clear, List.filter_cons_of_pos (by simp; omega)]
      have hne : c.1 ≠ a := fun e => hc (e ▸ h)
      exact (if_neg hne).trans ih

/-- A byte outside a cleared range is unchanged. -/
theorem Memory.read_clear_outside (d : Byte) (m : Memory) (lo n a : Nat) (h : a < lo ∨ lo + n ≤ a) :
    Memory.read d (Memory.clear m lo n) a = Memory.read d m a := by
  induction m with
  | nil => rfl
  | cons c r ih =>
    by_cases hc : lo ≤ c.1 ∧ c.1 < lo + n
    · rw [Memory.clear, List.filter_cons_of_neg (by simpa using hc)]
      have hne : c.1 ≠ a := by omega
      exact ih.trans (if_neg hne).symm
    · rw [Memory.clear, List.filter_cons_of_pos (by simp; omega)]
      by_cases ha : c.1 = a
      · exact (if_pos ha).trans (if_pos ha).symm
      · exact (if_neg ha).trans (ih.trans (if_neg ha).symm)

/-- A window of words has four bytes for each. -/
theorem wordsBytes_length : ∀ ws : List Word, (wordsBytes ws).length = 4 * ws.length
  | [] => rfl
  | w :: r => by
    have hr := wordsBytes_length r
    simp only [wordsBytes, List.flatMap_cons, List.length_append, List.length_cons, wordBytes_length] at hr ⊢
    omega

/-- A byte of the configuration store; an erased one reads 0xFF. -/
abbrev Chip.flashByte (s : Chip) (a : Nat) : Byte := Memory.read 0xFF s.cfg.flash a

theorem Chip.flashByte_write_outside (s : Chip) {b a : Nat} {bs : List Byte} (h : a < b ∨ b + bs.length ≤ a) :
    (s.flashWrite b bs).flashByte a = s.flashByte a := Memory.read_writeN_outside _ _ _ _ _ h

/-- One byte programmed reads back. -/
theorem Chip.flashByte_write_byte (s : Chip) (b : Nat) (v : Byte) : (s.flashWrite b [v]).flashByte b = v :=
  Memory.read_write_same _ _ _ _

theorem Chip.flashByte_write_other (s : Chip) {b a : Nat} (v : Byte) (h : a ≠ b) :
    (s.flashWrite b [v]).flashByte a = s.flashByte a := Memory.read_write_other _ _ _ _ _ h

/-- A programmed range reads back. -/
theorem Chip.flashByte_write_inside (s : Chip) (b : Nat) {bs : List Byte} {k : Nat} (h : k < bs.length) :
    (s.flashWrite b bs).flashByte (b + k) = bs.getD k 0 :=
  (Memory.read_writeN_inside _ _ _ _ _ h).trans (List.getElem_eq_getD 0)

theorem Chip.flashByte_erase_inside (s : Chip) {b n a : Nat} (h : b ≤ a ∧ a < b + n) :
    (s.flashErase b n).flashByte a = 0xFF := Memory.read_clear_inside _ _ _ _ _ h

theorem Chip.flashByte_erase_outside (s : Chip) {b n a : Nat} (h : a < b ∨ b + n ≤ a) :
    (s.flashErase b n).flashByte a = s.flashByte a := Memory.read_clear_outside _ _ _ _ _ h

/-! ### The slot that a staging command programs (14 R370) -/

/-- BEGIN's slot: erased, then marked WRITING with the generation of the header. -/
def Chip.beginSlot (s : Chip) (b gen : Nat) : Chip :=
  ((s.flashErase b 0x410000).flashWrite b [0x7F]).flashWrite (b + 4) (le 4 gen)

theorem Chip.beginSlot_state (s : Chip) (b gen : Nat) : (s.beginSlot b gen).flashByte b = 0x7F :=
  (Chip.flashByte_write_outside _ (.inl (by omega))).trans (Chip.flashByte_write_byte _ _ _)

theorem Chip.beginSlot_gen (s : Chip) (b gen : Nat) {k : Nat} (h : k < 4) :
    (s.beginSlot b gen).flashByte (b + 4 + k) = (le 4 gen).getD k 0 := Chip.flashByte_write_inside _ _ (by simpa using h)

theorem Chip.beginSlot_erased (s : Chip) (b gen : Nat) {a : Nat} (hlo : b + 8 ≤ a) (hhi : a < b + 0x410000) :
    (s.beginSlot b gen).flashByte a = 0xFF := by
  unfold Chip.beginSlot
  rw [Chip.flashByte_write_outside _ (.inr (by rw [le_length]; omega)), Chip.flashByte_write_other _ _ (by omega),
    Chip.flashByte_erase_inside _ ⟨by omega, hhi⟩]

theorem Chip.beginSlot_outside (s : Chip) (b gen : Nat) {a : Nat} (h : a < b ∨ b + 0x410000 ≤ a) :
    (s.beginSlot b gen).flashByte a = s.flashByte a := by
  unfold Chip.beginSlot
  rw [Chip.flashByte_write_outside _ (by rw [le_length]; omega), Chip.flashByte_write_other _ _ (by omega),
    Chip.flashByte_erase_outside _ h]

/-- COMMIT's slot: length and header CRC programmed, then marked COMPLETE. -/
def Chip.commitSlot (s : Chip) (b len crc : Nat) : Chip :=
  ((s.flashWrite (b + 8) (le 4 len)).flashWrite (b + 12) (le 4 crc)).flashWrite b [0x3F]

theorem Chip.commitSlot_outside (s : Chip) (b len crc : Nat) {a : Nat} (hstate : a ≠ b) (h : a < b + 8 ∨ b + 16 ≤ a) :
    (s.commitSlot b len crc).flashByte a = s.flashByte a := by
  unfold Chip.commitSlot
  rw [Chip.flashByte_write_other _ _ hstate, Chip.flashByte_write_outside _ (by rw [le_length]; omega),
    Chip.flashByte_write_outside _ (by rw [le_length]; omega)]

/-! ### The commands -/

section Stage
variable {s : Chip} {q : Session} (hmay : s.mayStage q = true) (hidle : s.cfg.busy = false)
include hmay hidle

/-- A staging command of a session that may stage, while none runs. -/
theorem Chip.stageCommand_runs (f : Chip → Chip) : s.stageCommand q f = f s := by
  unfold Chip.stageCommand; simp [hmay, hidle]

theorem stageBeginEffect_runs : stageBeginEffect q s =
    { s.beginSlot (slotBase s.inactive) s.cfg.ofs with cfg := { (s.beginSlot (slotBase s.inactive) s.cfg.ofs).cfg with
        owner := some q, cmd := 1, busy := true, result := 0, nextOfs := 0,
        crcOk := setBit s.cfg.crcOk s.inactive false, sigOk := setBit s.cfg.sigOk s.inactive false } } :=
  Chip.stageCommand_runs hmay hidle _

theorem stageAbortEffect_runs : stageAbortEffect q s =
    { s.flashWrite (slotBase s.inactive) [0x1F] with cfg := { (s.flashWrite (slotBase s.inactive) [0x1F]).cfg with
        cmd := 4, busy := true, result := 0 } } :=
  Chip.stageCommand_runs hmay hidle _

variable (howner : s.cfg.owner = some q) (hwriting : s.slotState s.inactive = 1)
include howner hwriting

theorem stageWriteEffect_runs (hpage : s.cfg.ofs % 256 = 0) (hnext : s.cfg.ofs = s.cfg.nextOfs) (hfits : s.cfg.ofs < 4194304) :
    stageWriteEffect q s =
    let t := s.flashWrite (imageBase s.inactive + s.cfg.ofs) (wordsBytes s.cfg.window)
    { t with cfg := { t.cfg with cmd := 2, busy := true, result := 0, nextOfs := s.cfg.ofs + 256 } } := by
  refine (Chip.stageCommand_runs hmay hidle _).trans (if_neg ?_)
  have hfits' : ¬ 4194304 ≤ s.cfg.ofs := by omega
  simp [howner, hwriting, hpage, ← hnext, hfits']

theorem stageCommitEffect_runs (otp : Otp) (hgood : s.imageFails otp s.inactive s.cfg.nextOfs = none)
    (hnewer : s.activeGen < s.slotField s.inactive 4) :
    stageCommitEffect otp q s =
    let i := s.inactive
    let n := s.imageLen i
    let t := ({ s with cfg := { s.cfg with crcOk := setBit s.cfg.crcOk i true, sigOk := setBit s.cfg.sigOk i true } } : Chip).commitSlot
      (slotBase i) n (crc32c (le 4 (s.slotField i 4) ++ le 4 n))
    { t with cfg := { t.cfg with cmd := 3, busy := true, result := 0 } } := by
  refine (Chip.stageCommand_runs hmay hidle _).trans ?_
  have howns : (s.cfg.owner != some q || s.slotState s.inactive != 1) = false := by simp [howner, hwriting]
  simp only [howns, hgood, if_neg (Nat.not_le.mpr hnewer), Bool.false_eq_true, if_false]
  rfl

end Stage

/-- Settles O15: each command programs its range of the inactive slot and nothing else of the store. -/
theorem stagingCommandsComplete : Obligations.StagingCommandsComplete := by
  intro s q hq hmay hidle i byte
  have hrun (f : Chip → Chip) :
      (.next (s.on fun c => c.asRole q 23 2 f) : Host.Outcome State Fault Refusal) = .next (s.on f) :=
    next_asRole hq rfl
  refine ⟨⟨s.on (stageBeginEffect q), hrun _, rfl, ?begin⟩, fun howner hwriting hpage hnext hfits hwindow =>
    ⟨s.on (stageWriteEffect q), hrun _, rfl, ?write⟩, fun howner hwriting hgood hnewer =>
    ⟨s.on (stageCommitEffect s.otp q), hrun _, rfl, ?commit⟩, ⟨s.on (stageAbortEffect q), hrun _, rfl, ?abort⟩⟩
  case begin =>
    simp only [byte, State.on_chip, stageBeginEffect_runs hmay hidle, true_and]
    exact ⟨Chip.beginSlot_state _ _ _, fun k hk => Chip.beginSlot_gen _ _ _ hk,
      fun a hlo hhi => Chip.beginSlot_erased _ _ _ hlo hhi, fun a ha => Chip.beginSlot_outside _ _ _ ha⟩
  case write =>
    have hlen : (wordsBytes s.chip.cfg.window).length = 256 := by rw [wordsBytes_length, hwindow]
    simp only [byte, State.on_chip, stageWriteEffect_runs hmay hidle howner hwriting hpage hnext hfits, true_and]
    refine ⟨?_, fun a ha => Chip.flashByte_write_outside _ (by rw [hlen]; exact ha)⟩
    exact hlen ▸ Memory.readN_writeN _ _ _ _
  case commit =>
    simp only [byte, State.on_chip, stageCommitEffect_runs hmay hidle howner hwriting s.otp hgood hnewer, true_and]
    exact ⟨Chip.flashByte_write_byte _ _ _, fun a hstate ha => Chip.commitSlot_outside _ _ _ _ hstate ha⟩
  case abort =>
    simp only [byte, State.on_chip, stageAbortEffect_runs hmay hidle, true_and]
    exact ⟨Chip.flashByte_write_byte _ _ _, fun a ha => Chip.flashByte_write_other _ _ ha⟩

end Sys2Proof.Machine
end

section
/-!
The session exchange over I2C and its ends in time (O9).
-/
namespace Sys2Proof.Machine

/-! ### The exchange of a session over I2C (15 R376 to R379) -/

theorem bytesWords_length : ∀ (n : Nat) (bs : List Byte), (bytesWords n bs).length = n
  | 0, _ => rfl
  | n + 1, bs => congrArg (· + 1) (bytesWords_length n (bs.drop 4))

/-- An update of the I2C session is one of the quiet part. -/
theorem Chip.modSes_i2c_quiet {s u : Chip} (h : s.quiet = u.quiet) (f : SesState → SesState) :
    (s.modSes .i2c f).quiet = (u.modSes .i2c f).quiet := by
  have hquiet (v : Chip) : (v.modSes .i2c f).quiet = v.quiet.modSes .i2c f := rfl
  rw [hquiet, h, ← hquiet]

theorem Chip.recordSession_quiet (s : Chip) (q : Session) (serial role : Nat) (outcome : Byte) :
    (s.recordSession q serial role outcome).quiet = s.quiet := s.raise_quiet _ _ _ _ _ _

/-- The role that the I2C session holds ends: the rest of the session stays. -/
theorem Chip.endRole_i2c_quiet (s : Chip) (why : Nat) (hrole : s.sec.i2c.role ≠ 0) :
    (s.endRole .i2c why).quiet = (s.modSes .i2c fun k => { k with role := 0, serial := 0 }).quiet := by
  have hne : ¬ ((s.ses .i2c).role == 0) = true := fun h => hrole (beq_iff_eq.mp h)
  unfold Chip.endRole
  dsimp only
  rw [if_neg hne, Chip.recordSession_quiet]

/-- A role granted replaces the one that the I2C session held, and its challenge is spent. -/
theorem Chip.grant_i2c_quiet (s : Chip) (role serial : Nat) : (s.grant .i2c role serial).quiet =
    (s.modSes .i2c fun k => { k with role := role, serial := serial, challenge := none, cred := [] }).quiet := by
  unfold Chip.grant
  rw [Chip.recordSession_quiet]
  by_cases hrole : s.sec.i2c.role = 0
  · have hends : s.endRole .i2c 3 = s := if_pos (beq_iff_eq.mpr hrole)
    rw [hends]
  · exact Chip.modSes_i2c_quiet (s.endRole_i2c_quiet 3 hrole) _

/-- An exchange started over I2C leaves its status and its response where the master reads them (15 R377). -/
theorem i2cExchangeEffect_quiet {s u v : Chip} {otp : Otp} {op st n : Nat} {data : List Byte} (hup : s.glb.aonUp = true)
    (hon : s.regOn 0x1000040 = true) (hidle : s.sec.i2cBusy = false) (hlo : 0x10 ≤ op) (hhi : op ≤ 0x12)
    (hex : s.exchange otp .i2c op ((wordsBytes s.sec.i2cData).take (4 * sesWords op)) = (st, data, v))
    (hquiet : v.quiet = u.quiet) (hn : data.length / 4 = n) :
    (i2cExchangeEffect otp op s).quiet = { u.quiet with sec := { u.sec with
      i2cBusy := true, i2cSts := st, i2cData := bytesWords n data ++ u.sec.i2cData.drop n } } := by
  have hlive : ¬ (!s.sesLive .i2c) = true := by simp [Chip.sesLive, hup]
  have hop : ¬ (op < 0x10 || 0x12 < op) = true := by simp; omega
  unfold i2cExchangeEffect i2cOpEffect
  dsimp only
  rw [if_neg hlive, if_neg (by simp [hon]), if_neg (by simp [hidle]), if_neg hop, hex]
  dsimp only
  rw [hn, bytesWords_length, Chip.sec_of_quiet hquiet, ← hquiet]
  rfl

/-- HELLO of a valid credential: the challenge drawn and the credential kept. -/
theorem Chip.hello_valid {s : Chip} {otp : Otp} {b : List Byte} (hlock : s.sec.locked.contains none = false)
    (hformat : leField b 2 1 ≠ 0) (hcred : s.credStatus otp b = 0) :
    ∃ v, s.hello otp .i2c b = (0, helloBytes s.fresh (leField b 4 4), v) ∧
      v.quiet = (s.draw.2.modSes .i2c fun k => { k with challenge := some s.fresh, cred := b }).quiet := by
  refine ⟨_, ?_, Chip.recordSession_quiet _ .i2c (leField b 4 4) (leField b 3 1) 0⟩
  have hcred' : (s.modSes .i2c fun k => { k with challenge := none, cred := [] }).credStatus otp b = 0 := hcred
  unfold Chip.hello
  dsimp only
  rw [if_neg (by simp only [Chip.origin, hlock, Bool.false_eq_true, not_false_eq_true]), hcred']
  exact if_neg (by simpa using hformat)

/-- PROVE of a signature that verifies: the credential's role held. -/
theorem Chip.prove_valid {s : Chip} {d : Nat} {sig : List Byte} (hlock : s.sec.locked.contains none = false)
    (hchallenge : s.sec.i2c.challenge = some d)
    (hsig : Config.ecdsaVerify (slice s.sec.i2c.cred 32 96) (s.proofMessage .i2c d (leField s.sec.i2c.cred 3 1)) sig = true)
    (hroom : s.rolesFull .i2c = false) : s.prove .i2c sig =
      (0, le 1 (leField s.sec.i2c.cred 3 1) ++ [0, 0, 0],
        s.grant .i2c (leField s.sec.i2c.cred 3 1) (leField s.sec.i2c.cred 4 4)) := by
  unfold Chip.prove
  dsimp only
  rw [if_neg (by simp only [Chip.origin, hlock, Bool.false_eq_true, not_false_eq_true])]
  simp only [Chip.ses, hchallenge, hsig, hroom]
  rfl

/-- Settles O9: HELLO, PROVE and DROP by what each answers, and the ends in time. -/
theorem sessionCommandsComplete : Obligations.SessionCommandsComplete := by
  refine ⟨fun s b hup hon hidle hlock hb hformat hcred => ⟨_, rfl, rfl, rfl, ?hello⟩,
    fun s d role hup hon hidle hlock hchallenge hrole hsig hroom => ⟨_, rfl, rfl, rfl, ?prove⟩,
    fun s hup hon hidle hrole => ⟨_, rfl, rfl, rfl, ?drop⟩, fun s q hq => ?challenge, fun s src => rfl,
    fun s hrole => ⟨_, rfl, rfl, rfl, s.chip.endRole_i2c_quiet 5 hrole⟩⟩
  case hello =>
    subst hb
    obtain ⟨v, hex, hquiet⟩ := Chip.hello_valid hlock hformat hcred
    exact i2cExchangeEffect_quiet (otp := s.otp) (op := 0x10) hup hon hidle (by decide) (by decide) hex hquiet (by simp [helloBytes])
  case prove =>
    subst hrole
    exact i2cExchangeEffect_quiet (otp := s.otp) (op := 0x11) hup hon hidle (by decide) (by decide) (Chip.prove_valid hlock hchallenge hsig hroom)
      (s.chip.grant_i2c_quiet _ _) (by simp)
  case drop =>
    exact i2cExchangeEffect_quiet (otp := s.otp) (op := 0x12) hup hon hidle (by decide) (by decide) rfl (s.chip.endRole_i2c_quiet 2 hrole) rfl
  case challenge => exact next_on_congr (if_pos hq)

end Sys2Proof.Machine
end

section
/-!
Provisioning, debug, ticket keys and attestation (O10 to O12).
-/
namespace Sys2Proof.Machine

/-- A session with the role is served: the state's form of `asRole_grants`. -/
theorem State.asRole_grants {s : State} {q : Session} {d r : Nat} {f : State → State} (h : s.chip.grants q d r) :
    s.asRole q d r f = f s := by
  obtain ⟨hlive, hon, hrole⟩ := h
  exact if_pos (by simp [hlive, hon, hrole])

/-! ### Provisioning (15 R380 to R382) -/

section Blank
variable {s : State} (hblank : s.otp.provisioned = false)
include hblank

theorem powerTableEffect_programs {t : PowerTable} (hnone : s.otp.powerTable = none) (hok : tableOk t.trim = true) :
    powerTableEffect (some t) s = { s with otp := { s.otp with powerTable := some t.trim } } :=
  (if_neg (by simp [hblank, hnone])).trans (if_pos hok)

theorem macEffect_programs (m : BitVec 48) (hnone : s.otp.mac = none) :
    macEffect m s = { s with otp := { s.otp with mac := some m } } := if_neg (by simp [hblank, hnone])

theorem rootHashEffect_programs (h : BitVec 384) (hnone : s.otp.rootHash = none) :
    rootHashEffect h s = { s with otp := { s.otp with rootHash := some h } } := if_neg (by simp [hblank, hnone])

/-- LOCK once the other three fuses stand: the identity drawn, and the writer ID that follows from it. -/
theorem lockEffect_locks (htable : s.otp.powerTable.isSome = true) (hmac : s.otp.mac.isSome = true)
    (hroot : s.otp.rootHash.isSome = true) :
    lockEffect s =
      let otp := { s.otp with identity := some s.chip.fresh, provisioned := true }
      { s with otp := otp, chip := { s.chip with fresh := s.chip.fresh + 1, sec := { s.chip.sec with writer := writerOf otp } } } := by
  have hready : ¬ (s.otp.provisioned || s.otp.powerTable.isNone || s.otp.mac.isNone || s.otp.rootHash.isNone) = true := by
    simp only [Option.isSome_iff_ne_none] at htable hmac hroot
    simp [hblank, htable, hmac, hroot]
  exact if_neg hready

end Blank

/-- Settles O10: each fuse is programmed while it is blank, and LOCK once the three stand. -/
theorem provisioningCompletes : Obligations.ProvisioningCompletes := by
  intro s q hq hblank
  have hrun (f : State → State) :
      (.next (s.asRole q 23 3 f) : Host.Outcome State Fault Refusal) = .next (f s) :=
    congrArg _ (State.asRole_grants hq)
  refine ⟨fun t hnone hok => ?table, fun m hnone => ?mac, fun h hnone => ?root, fun htable hmac hroot => ?lock⟩
  case table => exact (hrun _).trans (congrArg _ (powerTableEffect_programs hblank hnone hok))
  case mac => exact (hrun _).trans (congrArg _ (macEffect_programs hblank m hnone))
  case root => exact (hrun _).trans (congrArg _ (rootHashEffect_programs hblank h hnone))
  case lock => exact ⟨_, (hrun _).trans (congrArg _ (lockEffect_locks hblank htable hmac hroot)), rfl, rfl, rfl⟩

/-! ### Debug, the TAP, ticket keys and attestation (15 R383, R385, R386) -/

theorem unlockEffect_quiet {s : Chip} {q : Session} (hst : s.glb.state = .maintenance ∨ s.glb.state = .fault) :
    (unlockEffect false q s).quiet =
      { s.quiet with sec := { s.sec with unlocked := true, everUnlocked := true } } := by
  have hallowed : ¬ (false || !(s.glb.state == .maintenance || s.glb.state == .fault)) = true := by
    simpa [or_iff_not_imp_left] using hst
  unfold unlockEffect
  rw [if_neg hallowed, Chip.raise_quiet]
  rfl

/-- A TAP instruction of the two standards is loaded as it is. -/
theorem execTapInstruction_standard (s : State) {t : TapInstr} (ht : ∀ n, t ≠ .debug n) :
    execTapInstruction t s = .next (s.on fun c => ({ c with sec := { c.sec with tap := t } }).emit (.tap t)) := by
  cases t with
  | debug n => exact absurd rfl (ht n)
  | _ => rfl

/-- A change of a slot that has room in the log: its record, and the result BUSY until that is written. -/
theorem Chip.changeKey_room {s : Chip} (slot : Nat) (key : Option (List Byte)) (hroom : s.logRoom = true) :
    s.changeKey slot key =
      { (s.askLog 2 ([BitVec.ofNat 8 slot, if key.isSome then 1 else 2, 0, 0] ++ key.getD (List.replicate 96 0))) with
        sec := { (s.setKey slot key).sec with tktSlot := slot, tktResult := 0, tktBusy := true } } := by
  unfold Chip.changeKey Chip.tktEnd
  rw [if_neg (by simp [hroom])]
  dsimp only
  rw [Bool.or_true]
  rfl

theorem keyLoadEffect_valid {s : Chip} {slot : Nat} (hcurve : Config.onCurve (wordsBytes s.sec.tktData) = true) :
    keyLoadEffect slot s = s.changeKey slot (some (wordsBytes s.sec.tktData)) := if_neg (by simp [hcurve])

theorem attestationGoEffect_starts {s : Chip} {otp : Otp} (hidle : s.sec.attBusy = false) (hid : otp.identity.isSome = true)
    (hgood : s.sec.idFail = false) :
    attestationGoEffect otp s = { s with sec := { s.sec with attBusy := true, attDone := false } } :=
  if_neg (by simp [hidle, Option.isSome_iff_ne_none.mp hid, hgood])

theorem attestationDoneEffect_busy {s : Chip} {otp : Otp} {n : Nat} (hid : otp.identity = some n)
    (hbusy : s.sec.attBusy = true) : attestationDoneEffect otp s = { s with sec := { s.sec with
      attBusy := false, attDone := true,
      report := bytesWords 68 (s.reportBody otp ++ be 96 (Config.ecdsaSign n (s.reportBody otp)).toNat) } } := by
  unfold attestationDoneEffect
  rw [hid]
  exact if_neg (by simp [hbusy])

/-- Settles O11: each command's effect where its conditions hold. -/
theorem securityCommandsComplete : Obligations.SecurityCommandsComplete := by
  refine ⟨fun s q hq hopen hst => ⟨_, rfl, rfl, rfl, ?unlock⟩, fun s q hq => congrArg _ (State.asRole_grants hq),
    fun s t ht => execTapInstruction_standard s ht, fun s n hlocked => if_neg (by simp [hlocked]),
    fun s q slot hq hslot hroom hcurve => ?load, fun s q slot hq hslot hroom => ?clear,
    fun s q hq hidle hid hgood => ?go, fun s n hid hbusy => ?done⟩
  case unlock => exact (congrArg Chip.quiet (asRole_grants hq)).trans (hopen ▸ unlockEffect_quiet hst)
  case load =>
    show execTicketKeyLoad q slot s = _
    rw [execTicketKeyLoad, Nat.mod_eq_of_lt hslot]
    exact next_asRole hq ((keyLoadEffect_valid hcurve).trans (Chip.changeKey_room _ _ hroom))
  case clear =>
    show execTicketKeyClear q slot s = _
    rw [execTicketKeyClear, Nat.mod_eq_of_lt hslot]
    exact next_asRole hq (Chip.changeKey_room _ _ hroom)
  case go => exact next_asRole hq (attestationGoEffect_starts hidle hid hgood)
  case done => exact next_on_congr (attestationDoneEffect_busy hid hbusy)

/-- Settles O12: the model's own refusal of a debug instruction after UNLOCK. -/
theorem debugTapRefusedWhenUnlocked : Obligations.DebugTapRefusedWhenUnlocked := fun _ _ hunlocked => if_pos hunlocked

end Sys2Proof.Machine
end

section
/-!
The commands of the event recorder (O13).
-/
namespace Sys2Proof.Machine

/-! ### Copies on the drives (16 R394) -/

/-- The chip with a block due taken for its copy, and the records of it that the ring has overwritten noted. -/
def Chip.takeBlock (s : Chip) (b : Nat) (rest : List Nat) : Chip :=
  { s with evr := { s.evr with
      due := rest, missed := Tab.set s.evr.missed 0 b (Nat.min 4096 (s.evr.next - 65536 - 4096 * b)) } }

section Copy
variable {s : Chip} {m b : Nat} {rest : List Nat} (hset : s.archiveSet = some m) (hdue : s.evr.due = b :: rest)
include hset hdue

theorem blockCopyEffect_whole (hin : s.evr.next ≤ 65536 + 4096 * b) :
    blockCopyEffect s = ((s.takeBlock b rest).copyBlock m b 8).reportMissed := by
  have hgone : Nat.min 4096 (s.evr.next - 65536 - 4096 * b) = 0 := by
    rw [Nat.sub_sub, Nat.sub_eq_zero_of_le hin]; rfl
  simp only [blockCopyEffect, hset, hdue, hgone, Chip.takeBlock]
  rfl

theorem blockCopyEffect_missed (hout : 65536 + 4096 * b < s.evr.next) :
    blockCopyEffect s = (((s.takeBlock b rest).count 0x1100084 (Nat.min 4096 (s.evr.next - 65536 - 4096 * b))).copyBlock m b 8).reportMissed := by
  have hgone : ¬ (Nat.min 4096 (s.evr.next - 65536 - 4096 * b) == 0) = true := by
    have hpos : 0 < Nat.min 4096 (s.evr.next - 65536 - 4096 * b) := Nat.lt_min.mpr ⟨by decide, by omega⟩
    simpa using hpos.ne'
  simp only [blockCopyEffect, hset, hdue, if_neg hgone, Chip.takeBlock]

end Copy

/-! ### Archive reads (16 R395, 17 Table 17-27) -/

section Archive
variable {s : Chip} (hidle : s.evr.archBusy = false)
include hidle

/-- An archive read starts at the first journal position of the map set. -/
theorem archiveReadEffect_reads (half : Nat) {m p : Nat} {rest : List Nat} (hset : s.archiveSet = some m)
    (hpos : (s.set m).jlive = p :: rest) :
    archiveReadEffect half s = ({ s with evr := { s.evr with archHalf := half, archBusy := true } } : Chip).posCmd m p 7
      (.read (s.archLba half + s.evr.arch / 64 % 1024) 1) (.archive m rest) := by
  unfold archiveReadEffect
  rw [if_neg (by simp [hidle])]
  simp only [hset, hpos]
  rfl

theorem archiveReadEffect_refused (half : Nat) (hset : s.archiveSet = none) :
    archiveReadEffect half s = { s with evr := { s.evr with archHalf := half, archResult := 1 } } := by
  unfold archiveReadEffect
  rw [if_neg (by simp [hidle])]
  simp only [hset]

end Archive

/-- A window in which no pair met its limit ends without a record (16 R396). -/
theorem floodWindowEffect_silent {s : Chip} (hset : s.evr.isSet = true) (hnone : ∀ e ∈ s.evr.flood, e.2.2.1 = 0) :
    floodWindowEffect s = { s with evr := { s.evr with flood := [] } } := by
  have hrows : (s.evr.flood.filter fun e => e.2.2.1 != 0) = [] :=
    List.filter_eq_nil_iff.mpr fun e he => by simp [hnone e he]
  refine (if_pos hset).trans ?_
  simp only [Chip.floodEnd, hrows]
  rfl

/-- Settles O13: each command of the recorder, in each of its cases. -/
theorem recorderCommandsComplete : Obligations.RecorderCommandsComplete := by
  refine ⟨fun s m b rest hset hdue => ⟨fun hin => ?whole, fun hout => ?missed⟩,
    fun s q partner hq hidle => ⟨fun m p rest hset hpos => ?reads, fun hset => ?refused⟩, fun s ws hbusy => ?words,
    fun s hbusy => ?silent, fun s hset hnone => ?window, fun s q hq => next_asRole hq rfl,
    fun s q v hq => next_asRole hq rfl⟩
  case whole => exact next_on_congr (blockCopyEffect_whole hset hdue hin)
  case missed => exact next_on_congr (blockCopyEffect_missed hset hdue hout)
  case reads => exact next_asRole hq (archiveReadEffect_reads hidle _ hset hpos)
  case refused => exact next_asRole hq (archiveReadEffect_refused hidle _ hset)
  case words => exact next_on_congr (if_neg (by simp [hbusy]))
  case silent => exact next_on_congr (if_neg (by simp [hbusy]))
  case window => exact next_on_congr (floodWindowEffect_silent hset hnone)

end Sys2Proof.Machine
end

section
/-!
What puts the unit in FAULT (O18).
-/
namespace Sys2Proof.Machine

/-- What FAULT leaves of the quiet part follows from the quiet part it came from. -/
theorem Chip.inFault_quiet {u s : Chip} (h : u.quiet = s.quiet) (cause : Nat) :
    (u.inFault cause).quiet = (s.inFault cause).quiet := by
  have hquiet (v : Chip) : (v.inFault cause).quiet = (v.quiet.inFault cause).quiet := rfl
  rw [hquiet, h, ← hquiet]

theorem Chip.faulted_of_quiet {s t : Chip} (h : s.quiet = t.quiet) : s.flt.faulted = t.flt.faulted := by
  have := congrArg (·.flt.faulted) h; exact this

theorem Chip.cause_of_quiet {s t : Chip} (h : s.quiet = t.quiet) : s.flt.cause = t.flt.cause := by
  have := congrArg (·.flt.cause) h; exact this

/-- FAULT gates D0 to D15 and D20 (13 Table 13-5). -/
theorem Chip.inFault_gated (s : Chip) (cause : Nat) {d : Nat} (hd : d < 16 ∨ d = 20) :
    bit (s.inFault cause).pws.gated d = true := by
  have hmem : d ∈ rangeFrom 0 16 ++ [20] := by simpa [rangeFrom] using hd
  refine (bit_foldl_setBit (rangeFrom 0 16 ++ [20]) s.pws.gated d).trans ?_
  rw [decide_eq_true hmem, Bool.or_true]

/-- The watchdog's record, then FAULT with its cause and its flag (16 R403). -/
theorem watchdogEffect_quiet {s : Chip} (hst : s.glb.state ≠ .fault) (w : WdtCause) : (watchdogEffect w s).quiet =
    { (s.inFault 1).quiet with flt := { (s.inFault 1).quiet.flt with wdt := true } } := by
  have hfault (n : Nat) : ((s.raise 0x12 0xFFFF 3 4 1 (le 4 n)).toFault 1).quiet = (s.inFault 1).quiet :=
    (toFault_quiet _ (by rwa [Chip.raise_glb]) 1).trans (Chip.inFault_quiet (Chip.raise_quiet ..) 1)
  have hwdt (u : Chip) : ({ u with flt := { u.flt with wdt := true } } : Chip).quiet =
      { u.quiet with flt := { u.quiet.flt with wdt := true } } := rfl
  unfold watchdogEffect
  dsimp only
  rw [hwdt, hfault]

/-- A region of the SL4804 that fails is a fault of the chip (01 R13). -/
theorem Chip.fenceRegion_sl4804 {s : Chip} {r : Nat} (cause : Nat) (hnew : bit s.cmt.fencedRegions r = false)
    (hr : r < s.nRegions) (hchip : s.glb.sl4804 = true) : s.fenceRegion r cause = s.toFault 3 :=
  (if_neg (by simp [hnew, hr])).trans (if_pos hchip)

/-- The chip with a silicon region marked as fenced, its own domain and its blocks' gated, and its record. -/
def Chip.regionGated (s : Chip) (r cause : Nat) : Chip :=
  (({ s with cmt := { s.cmt with
      fencedRegions := setBit s.cmt.fencedRegions r true,
      rehome := s.cmt.rehome.filter fun (u : FencedUnit) => match u with
        | .comet n => n / 64 != r
        | .block b => b / 4 != r } } : Chip).raise 0x12 r 1 3 0 ([2] ++ le 2 r ++ le 1 cause)).gate
    ([16 + r] ++ rangeFrom (4 * r) 4) true

/-- A region of the SL4810 fenced outside Eclipse puts the unit in FAULT. -/
theorem Chip.fenceRegion_sl4810 {s : Chip} {r : Nat} (cause : Nat) (hnew : bit s.cmt.fencedRegions r = false)
    (hr : r < s.nRegions) (hst : s.glb.state ≠ .eclipse) (hchip : s.glb.sl4804 = false) :
    s.fenceRegion r cause = (s.regionGated r cause).toFault 2 := by
  refine (if_neg (by simp [hnew, hr])).trans ((if_neg (by simp [hchip])).trans ?_)
  exact if_neg (by simp [hst])

theorem Chip.regionGated_glb (s : Chip) (r cause : Nat) : (s.regionGated r cause).glb = s.glb := Chip.raise_glb ..
theorem Chip.regionGated_pgm (s : Chip) (r cause : Nat) : (s.regionGated r cause).pgm = s.pgm := Chip.raise_pgm ..
theorem Chip.regionGated_str (s : Chip) (r cause : Nat) : (s.regionGated r cause).str = s.str := Chip.raise_str ..
theorem Chip.regionGated_rgn (s : Chip) (r cause : Nat) : (s.regionGated r cause).rgn = s.rgn := Chip.raise_rgn ..
theorem Chip.regionGated_lcc (s : Chip) (r cause : Nat) : (s.regionGated r cause).lcc = s.lcc := Chip.raise_lcc ..

theorem Chip.regionGated_fenced (s : Chip) (r cause : Nat) : bit (s.regionGated r cause).cmt.fencedRegions r = true := by
  have hcmt : (s.regionGated r cause).cmt.fencedRegions = setBit s.cmt.fencedRegions r true :=
    congrArg Cmt.fencedRegions (Chip.raise_cmt ..)
  rw [hcmt, bit_setBit, decide_eq_true rfl, Bool.or_true]

/-- Settles O18: each fault by what `toFault` leaves of the quiet part. -/
theorem faultsStopTheUnit : Obligations.FaultsStopTheUnit := by
  intro s hst
  refine ⟨fun r cause hnew hr hchip c hc => ?sl4804, fun r cause hnew hr hnoEclipse hchip c hc => ?sl4810,
    fun a => ⟨_, rfl, rfl, rfl, toFault_quiet s.chip hst 3⟩, fun w => ⟨_, rfl, rfl, rfl, watchdogEffect_quiet hst w⟩⟩
  case sl4804 =>
    have hfence (n : Nat) : (s.chip.fenceRegion r n).quiet = (s.chip.inFault 3).quiet := by
      rw [Chip.fenceRegion_sl4804 n hnew hr hchip, toFault_quiet s.chip hst 3]
    simp only [List.mem_cons, List.not_mem_nil, or_false] at hc
    obtain rfl | rfl := hc
    · exact ⟨_, rfl, rfl, rfl, hfence cause⟩
    · exact ⟨_, rfl, rfl, rfl, hfence 0⟩
  case sl4810 =>
    obtain ⟨n, hrun⟩ : ∃ n, exec c s = .next (s.on fun t => t.fenceRegion r n) := by
      simp only [List.mem_cons, List.not_mem_nil, or_false] at hc
      obtain rfl | rfl := hc
      · exact ⟨cause, rfl⟩
      · exact ⟨0, rfl⟩
    have hquiet : ((s.chip.regionGated r n).toFault 2).quiet = ((s.chip.regionGated r n).inFault 2).quiet :=
      toFault_quiet _ (by rwa [Chip.regionGated_glb]) 2
    refine ⟨_, hrun, rfl, rfl, ?_⟩
    simp only [State.on_chip, Chip.fenceRegion_sl4810 n hnew hr hnoEclipse hchip, Chip.cmt_of_quiet hquiet,
      Chip.glb_of_quiet hquiet, Chip.cause_of_quiet hquiet, Chip.faulted_of_quiet hquiet, Chip.stopped_of_quiet hquiet,
      Chip.syz_of_quiet hquiet, Chip.pws_of_quiet hquiet, Chip.pgm_of_quiet hquiet, Chip.str_of_quiet hquiet,
      Chip.rgn_of_quiet hquiet, Chip.lcc_of_quiet hquiet]
    exact ⟨s.chip.regionGated_fenced r n, rfl, rfl, rfl, rfl, rfl, fun d hd => Chip.inFault_gated _ 2 hd,
      s.chip.regionGated_pgm r n, s.chip.regionGated_str r n, s.chip.regionGated_rgn r n, s.chip.regionGated_lcc r n⟩

end Sys2Proof.Machine
end

section
/-!
Power samples, SEQ_SYNC, the ends of its sequences, input that returns, and the always-on island (O42, O43).
-/
namespace Sys2Proof.Machine

/-! ### Samples, PWR_FAIL_N and PWR_GOOD_IN (13 R320, R324, R325, R328) -/

/-- Where a start on PWR_GOOD_IN is due: in START before one has begun, in SEALED and FAULT after PWS_MIN_OFF. -/
abbrev Chip.startsOnInput (s : Chip) : Prop :=
  (s.glb.state = .start ∧ s.cfg.begun = false) ∨
    ((s.glb.state = .sealed ∨ s.glb.state = .fault) ∧ s.pws.offAt + s.par 0xD00008 * 1000000 ≤ s.now)

/-- Where PWR_GOOD_IN is only recorded. -/
abbrev Chip.recordsInput (s : Chip) : Prop :=
  s.glb.state = .active ∨ s.glb.state = .umbra ∨ s.glb.state = .maintenance ∨ s.glb.state = .eclipse ∨
    s.glb.state = .takeover ∨ (s.glb.state = .start ∧ s.cfg.begun = true) ∨
    ((s.glb.state = .sealed ∨ s.glb.state = .fault) ∧ s.now < s.pws.offAt + s.par 0xD00008 * 1000000)

section Powered
variable {s : Chip} (hup : s.glb.aonUp = true)
include hup

theorem railSampleEffect_powered (codes : List Nat) : railSampleEffect codes s =
    (((codes.take 17).zipIdx).foldl (fun t e => t.sampleRail e.2 (e.1 % 4096)) s).seqWork := if_neg (by simp [hup])

theorem pwrFailEffect_powered : pwrFailEffect s =
    (({ s with pws := { s.pws with pfail := true } } : Chip).inputLost).powerTrigger := if_neg (by simp [hup])

theorem pwrGoodInEffect_starts (hdir : s.pws.dir = 0 ∨ s.pws.dir = 3) (hst : s.startsOnInput) :
    pwrGoodInEffect s = s.coldStart := by
  have hstill : (s.pws.dir == 0 || s.pws.dir == 3) = true := by simpa using hdir
  unfold pwrGoodInEffect
  rw [if_neg (by simp [hup])]
  obtain ⟨hst, hbegun⟩ | ⟨hst | hst, hrested⟩ := hst
  · simp only [hst, hbegun, hstill]; rfl
  · simp [hst, hstill, Chip.restedOff, hrested]
  · simp [hst, hstill, Chip.restedOff, hrested]

theorem pwrGoodInEffect_records (hst : s.recordsInput) :
    pwrGoodInEffect s = { s with pws := { s.pws with pgood := true } } := by
  unfold pwrGoodInEffect
  rw [if_neg (by simp [hup])]
  obtain hst | hst | hst | hst | hst | ⟨hst, hbegun⟩ | ⟨hst | hst, hresting⟩ := hst
  · simp only [hst]
  · simp only [hst]
  · simp only [hst]
  · simp only [hst]
  · simp only [hst]
  · simp [hst, hbegun]
  · simp [hst, Chip.restedOff, Nat.not_le.mpr hresting]
  · simp [hst, Chip.restedOff, Nat.not_le.mpr hresting]

/-! ### Pulses on SEQ_SYNC (13 R325, R327, R330) -/

theorem sequenceFaultEffect_faults (hdir : s.pws.dir ≠ 3) : sequenceFaultEffect s =
    (s.raise 0x0D 0xFFFF 3 2 0 (le 4 (2 ^ 31 + s.pws.state))).faultOff 2 := if_neg (by simp [hup, hdir])

variable {us : Nat} (hdir : s.pws.dir = 0)
include hdir

/-- A low interval below 50 ms on the idle line is judged by its width. -/
theorem startPulse_judged (hus : us < 50000) : ¬ (!s.glb.aonUp || s.pws.dir != 0 || decide (50000 ≤ us)) = true := by
  simp [hup, hdir, hus]

theorem startPulseEffect_up (hlo : 150 ≤ us) (hhi : us ≤ 600) (hst : s.glb.state = .start) :
    startPulseEffect us s = s.beginUp :=
  (if_neg (startPulse_judged hup hdir (by omega))).trans ((if_pos (by simp [hlo, hhi])).trans (if_pos (by simp [hst])))

theorem startPulseEffect_down_active (hlo : 800 ≤ us) (hhi : us ≤ 2000) (hst : s.glb.state = .active) :
    startPulseEffect us s = (s.raise 0x0D 0xFFFF 3 2 0 (le 4 us)).powerTrigger := by
  have hnotUp : ¬ (decide (150 ≤ us) && decide (us ≤ 600)) = true := by simp; omega
  have hdown : (decide (800 ≤ us) && decide (us ≤ 2000)) = true := by simp [hlo, hhi]
  unfold startPulseEffect
  rw [if_neg (startPulse_judged hup hdir (by omega)), if_neg hnotUp, if_pos hdown, hst]

theorem startPulseEffect_noted (hlo : 2000 < us) (hhi : us < 50000) :
    startPulseEffect us s = s.raise 0x0D 0xFFFF 3 2 0 (le 4 us) :=
  (if_neg (startPulse_judged hup hdir hhi)).trans ((if_neg (by simp; omega)).trans (if_neg (by simp; omega)))

end Powered

/-! ### The states of a sequence (13 R326, R329) -/

section Sequence
variable {s : Chip} (hfree : s.pws.holding = false) (hgoes : s.pws.abandon = false)
include hfree hgoes

/-- The chip lets the line rise. -/
theorem seqSync_not_held : ¬ (s.pws.holding || s.pws.abandon) = true := by simp [hfree, hgoes]

theorem seqSyncRiseEffect_up (hdir : s.pws.dir = 1) (hmore : s.pws.state < 15) : seqSyncRiseEffect s =
    (s.startStretch fun c => !c.holdSeq && c.release == s.pws.state).seqState (s.pws.state + 1) :=
  (if_neg (seqSync_not_held hfree hgoes)).trans ((if_pos (by simp [hdir])).trans (if_neg (by simp; omega)))

theorem seqSyncRiseEffect_up_last (hdir : s.pws.dir = 1) (hlast : s.pws.state = 15) : seqSyncRiseEffect s =
    let s1 := s.startStretch fun c => !c.holdSeq && c.release == s.pws.state
    { s1 with pws := { s1.pws with dir := 0 } } :=
  (if_neg (seqSync_not_held hfree hgoes)).trans ((if_pos (by simp [hdir])).trans (if_pos (by simp [hlast])))

section Down
variable (hdir : s.pws.dir = 2)
include hdir

theorem seqSyncRiseEffect_down (hmore : 0 < s.pws.state) : seqSyncRiseEffect s = s.seqState (s.pws.state - 1) :=
  (if_neg (seqSync_not_held hfree hgoes)).trans
    ((if_neg (by simp [hdir])).trans ((if_pos (by simp [hdir])).trans (if_neg (by simp; omega))))

theorem seqSyncRiseEffect_down_last (hlast : s.pws.state = 0) :
    seqSyncRiseEffect s = { s with pws := { s.pws with dir := 0, ended := true } } :=
  (if_neg (seqSync_not_held hfree hgoes)).trans
    ((if_neg (by simp [hdir])).trans ((if_pos (by simp [hdir])).trans (if_pos (by simp [hlast]))))

end Down

end Sequence

theorem resetStretchEffect_counting {s : Chip} {j : Nat} {o : RstOut} (ho : s.pws.outs[j]? = some o) (hcount : o.counting = true) :
    resetStretchEffect j s =
      ({ s with pws := { s.pws with outs := setAt s.pws.outs j { o with low := false, counting := false } } } : Chip).seqWork := by
  unfold resetStretchEffect
  rw [ho]
  exact if_pos hcount

/-! ### The end of a down sequence (13 R338, 16 R402) -/

/-- The chip once a down sequence has ended: every domain gated. -/
def Chip.allGated (s : Chip) : Chip := ({ s with pws := { s.pws with ended := false } } : Chip).gate (List.range 24) true

section Ended
variable {s : Chip} (hended : s.pws.ended = true)
include hended

theorem downSequence_ended : ¬ (!s.pws.ended) = true := by simp [hended]

theorem downSequenceEndEffect_sealed (hst : s.allGated.glb.state = .eclipse) (hwhole : s.allGated.ecl.lostRegion = false) :
    downSequenceEndEffect s = ({ s.allGated with ecl := { s.allGated.ecl with step := 0 } } : Chip).toSealed :=
  (if_neg (downSequence_ended hended)).trans ((if_pos hst).trans (if_neg (ne_true_of_eq_false hwhole)))

theorem downSequenceEndEffect_lost (hst : s.allGated.glb.state = .eclipse) (hlost : s.allGated.ecl.lostRegion = true) :
    downSequenceEndEffect s = s.allGated.toFault 2 :=
  (if_neg (downSequence_ended hended)).trans ((if_pos hst).trans (if_pos hlost))

theorem downSequenceEndEffect_undrained (hst : s.allGated.glb.state = .start ∨ s.allGated.glb.state = .maintenance) :
    downSequenceEndEffect s = ({ s.allGated with syz := { s.allGated.syz with fenceOut := true } } : Chip).toSealed := by
  have hne : s.allGated.glb.state ≠ .eclipse := by obtain h | h := hst <;> simp [h]
  exact (if_neg (downSequence_ended hended)).trans ((if_neg hne).trans (if_pos hst))

theorem downSequenceEndEffect_fault (hst : s.allGated.glb.state = .fault) : downSequenceEndEffect s = s.allGated := by
  have hecl : s.allGated.glb.state ≠ .eclipse := by simp [hst]
  have hstart : ¬ (s.allGated.glb.state = .start ∨ s.allGated.glb.state = .maintenance) := by simp [hst]
  exact (if_neg (downSequence_ended hended)).trans ((if_neg hecl).trans (if_neg hstart))

end Ended

/-! ### Input that returns (13 R343) -/

/-- The chip with input back and its time noted. -/
def Chip.inputBack (s : Chip) : Chip := { s with pws := { s.pws with pfail := false, returned := true, returnAt := s.now } }

/-- The chip in E5's wait, or in E6 before any rail is off: a warm resume is still open to it. -/
abbrev Chip.mayResume (s : Chip) : Prop :=
  (s.ecl.step = 5 ∧ s.ecl.waiting = true) ∨ (s.ecl.step = 6 ∧ s.pws.offDone = false)

theorem inputReturnedEffect_running {s : Chip} (hecl : s.glb.state ≠ .eclipse) (hsealed : s.glb.state ≠ .sealed)
    (hdir : s.pws.dir ≠ 2) (hended : s.pws.ended = false) :
    inputReturnedEffect s = { s with pws := { s.pws with pfail := false } } := if_pos (by simp [hecl, hsealed, hdir, hended])

/-- In Eclipse, in SEALED and where a down sequence has run, the return is noted; what it starts depends on the state. -/
theorem inputReturnedEffect_noted {s : Chip}
    (h : s.glb.state = .eclipse ∨ s.glb.state = .sealed ∨ s.pws.dir = 2 ∨ s.pws.ended = true) :
    inputReturnedEffect s =
      if s.glb.state = .sealed then { s.inputBack with pws := { s.inputBack.pws with minOff := true } }
      else if s.glb.state == .eclipse && ((s.ecl.step == 5 && s.ecl.waiting) || (s.ecl.step == 6 && !s.pws.offDone)) &&
          s.ecl.kind == 1 && s.eligible then s.inputBack.beginStart true
      else s.inputBack := by
  refine if_neg ?_
  obtain h | h | h | h := h <;> simp [h]

theorem inputReturnedEffect_sealed {s : Chip} (hst : s.glb.state = .sealed) :
    inputReturnedEffect s = { s.inputBack with pws := { s.inputBack.pws with minOff := true } } :=
  (inputReturnedEffect_noted (.inr (.inl hst))).trans (if_pos hst)

theorem inputReturnedEffect_draining {s : Chip} (hst : s.glb.state = .eclipse) (hstep : s.ecl.step < 5) :
    inputReturnedEffect s = s.inputBack := by
  have h5 : s.ecl.step ≠ 5 := by omega
  have h6 : s.ecl.step ≠ 6 := by omega
  exact (inputReturnedEffect_noted (.inl hst)).trans ((if_neg (by simp [hst])).trans (if_neg (by simp [h5, h6])))

theorem inputReturnedEffect_down {s : Chip} (hecl : s.glb.state ≠ .eclipse) (hsealed : s.glb.state ≠ .sealed)
    (hdown : s.pws.dir = 2 ∨ s.pws.ended = true) : inputReturnedEffect s = s.inputBack :=
  (inputReturnedEffect_noted (.inr (.inr hdown))).trans ((if_neg hsealed).trans (if_neg (by simp [hecl])))

section Resume
variable {s : Chip} (hst : s.glb.state = .eclipse) (hkind : s.ecl.kind = 1)
include hst

theorem inputReturnedEffect_ineligible (helig : s.eligible = false) : inputReturnedEffect s = s.inputBack :=
  (inputReturnedEffect_noted (.inl hst)).trans ((if_neg (by simp [hst])).trans (if_neg (by simp [helig])))

include hkind

theorem inputReturnedEffect_resumes (hopen : s.mayResume) (helig : s.eligible = true) :
    inputReturnedEffect s = s.inputBack.beginStart true := by
  have hgo : ((s.ecl.step == 5 && s.ecl.waiting) || (s.ecl.step == 6 && !s.pws.offDone)) = true := by simpa using hopen
  refine (inputReturnedEffect_noted (.inl hst)).trans ((if_neg (by simp [hst])).trans (if_pos ?_))
  rw [hgo, hst, hkind, helig]
  rfl

end Resume

/-- Settles O42: each command by the lemma for its case. -/
theorem powerCommandsComplete : Obligations.PowerCommandsComplete := by
  refine ⟨fun s hup => ⟨fun codes => ?sample, ?fail, fun hdir hst => ?good, fun hst => ?recorded,
      fun us hdir hlo hhi hst => ?up, fun us hdir hlo hhi hst => ?down, fun us hdir hlo hhi => ?noted, fun hdir => ?fault⟩,
    fun s hfree hgoes => ⟨fun hdir hmore => ?rise, fun hdir hlast => ?riseLast, fun hdir hmore => ?fall, fun hdir hlast => ?fallLast⟩,
    fun s j o ho hcount => ?stretch,
    fun s hended => ⟨fun hst hwhole => ?ended, fun hst => ?undrained, fun hst hlost => ?lost, fun hst => ?faulted⟩,
    fun s => ⟨fun hecl hsealed hdir hended => ?running, fun hst => ?sealed, fun hst hstep => ?draining,
      fun hecl hsealed hdown => ?downBack⟩,
    fun s hst hkind hopen => ⟨fun helig => ?resumes, fun helig => ?waits⟩, fun s hst hmin => ?minOff⟩
  case sample => exact next_on_congr (railSampleEffect_powered hup codes)
  case fail => exact next_on_congr (pwrFailEffect_powered hup)
  case good => exact next_on_congr (pwrGoodInEffect_starts hup hdir hst)
  case recorded => exact next_on_congr (pwrGoodInEffect_records hup hst)
  case up => exact next_on_congr (startPulseEffect_up hup hdir hlo hhi hst)
  case down => exact next_on_congr (startPulseEffect_down_active hup hdir hlo hhi hst)
  case noted => exact next_on_congr (startPulseEffect_noted hup hdir hlo hhi)
  case fault => exact next_on_congr (sequenceFaultEffect_faults hup hdir)
  case rise => exact next_on_congr (seqSyncRiseEffect_up hfree hgoes hdir hmore)
  case riseLast => exact next_on_congr (seqSyncRiseEffect_up_last hfree hgoes hdir hlast)
  case fall => exact next_on_congr (seqSyncRiseEffect_down hfree hgoes hdir hmore)
  case fallLast => exact next_on_congr (seqSyncRiseEffect_down_last hfree hgoes hdir hlast)
  case stretch => exact next_on_congr (resetStretchEffect_counting ho hcount)
  case ended => exact next_on_congr (g := fun _ => _) (downSequenceEndEffect_sealed hended hst hwhole)
  case undrained => exact next_on_congr (g := fun _ => _) (downSequenceEndEffect_undrained hended hst)
  case lost => exact next_on_congr (g := fun _ => _) (downSequenceEndEffect_lost hended hst hlost)
  case faulted => exact next_on_congr (g := fun _ => _) (downSequenceEndEffect_fault hended hst)
  case running => exact next_on_congr (inputReturnedEffect_running hecl hsealed hdir hended)
  case sealed => exact next_on_congr (inputReturnedEffect_sealed hst)
  case draining => exact next_on_congr (inputReturnedEffect_draining hst hstep)
  case downBack => exact next_on_congr (inputReturnedEffect_down hecl hsealed hdown)
  case resumes => exact next_on_congr (g := fun _ => _) (inputReturnedEffect_resumes hst hkind hopen helig)
  case waits => exact next_on_congr (g := fun _ => _) (inputReturnedEffect_ineligible hst helig)
  case minOff => exact next_on_congr (if_pos ⟨hst, hmin⟩)

/-! ### The always-on island (18 R446, R447) -/

/-- Leaving reset powers the island, once: the straps sampled, the provisioned table taken, the writer ID read. -/
theorem aonReleaseEffect_off {s : Chip} {otp : Otp} (straps : Nat) (hoff : s.glb.aonUp = false) :
    aonReleaseEffect otp straps s = { s with
      glb := { s.glb with aonUp := true, straps := straps % 4, state := .start },
      pws := match otp.powerTable with
        | some t => Pws.reset.take t
        | none => Pws.reset,
      sec := { s.sec with writer := writerOf otp }, syz := { s.syz with fenceOut := false } } :=
  if_neg (by simp [hoff])

/-- Settles O43: the release by its case, the loss of supply by the fields of `powerLost`. -/
theorem alwaysOnIslandCompletes : Obligations.AlwaysOnIslandCompletes := by
  exact ⟨fun s straps hoff => next_on_congr (aonReleaseEffect_off straps hoff),
    fun s => ⟨rfl, rfl, rfl, rfl, rfl, rfl, rfl, rfl, rfl⟩⟩

end Sys2Proof.Machine
end

section
/-!
The phases of a start, RESTART and CLAMP_CLR (O44).
-/
namespace Sys2Proof.Machine

/-! ### The SFDP table and the choice of a slot (14 R346, R356, R363) -/

/-- At S0 the answer of the flash decides how S1 begins. -/
theorem sfdpEffect_S0 {s : Chip} {otp : Otp} (ok : Bool) (hst : s.glb.state = .start) (hbegun : s.cfg.begun = true)
    (hphase : s.cfg.phase = 0) :
    sfdpEffect otp ok s = if ok then (s.identify otp).foundFlash else (s.identify otp).noFlash :=
  if_neg (by simp [hst, hbegun, hphase])

section Slot
variable {s : Chip} {otp : Otp} {slot : Nat} (hst : s.glb.state = .start) (hphase : s.cfg.phase = 1)
  (hcand : s.cfg.cands.head? = some slot)
include hst hphase hcand

theorem imageReadEffect_good (hgood : s.imageFails otp slot (s.slotField slot 8) = none) :
    imageReadEffect otp slot s = s.chooseSlot otp slot := by
  unfold imageReadEffect
  rw [if_neg (by simp [hst, hphase, hcand]), hgood]

/-- A candidate that fails a check is recorded and passed over; the last one leaves MAINTENANCE. -/
theorem imageReadEffect_fails {k : Nat} (hfails : s.imageFails otp slot (s.slotField slot 8) = some k) :
    imageReadEffect otp slot s =
      let u := ({ s with cfg := { s.cfg with
        cands := s.cfg.cands.drop 1, crcOk := setBit s.cfg.crcOk slot (k == 2) } } : Chip).slotEvent slot (BitVec.ofNat 8 k)
      if u.cfg.cands.isEmpty then u.toMaintenance else u := by
  unfold imageReadEffect
  rw [if_neg (by simp [hst, hphase, hcand]), hfails]

end Slot

/-! ### SRAM, training and the port gate (10 R265, 14 R353, R354, 16 R405) -/

/-- No unit fails where the list of failures is empty. -/
theorem sramInitEffect_clean {s : Chip} (hst : s.glb.state = .start) (hphase : s.cfg.phase = 3) (hregions : 0 < s.nRegions) :
    sramInitEffect [] s = (s.enterPhase 4).startTraining := by
  have hnoRegion : (List.range s.nRegions).filter (fun r => [].contains (SramFail.region r)) = [] := by simp
  have hnoBlock : (List.range s.nBlocks).filter (fun b => [].contains (SramFail.block b) && !([] : List Nat).contains (b / 4)) = [] := by simp
  have hnoFour : (List.range s.nRegions).filter (fun r => (rangeFrom (4 * r) 4).all ([] : List Nat).contains) = [] := by
    simp [rangeFrom, List.range_succ]
  have hsome : ¬ (([] : List Nat).length + ([] : List Nat).length == s.nRegions) = true := by simp; omega
  unfold sramInitEffect
  rw [if_neg (by simp [hst, hphase])]
  dsimp only
  rw [hnoRegion, hnoBlock, hnoFour]
  exact (if_neg (by simp)).trans (if_neg hsome)

theorem trainingEffect_S4 {s : Chip} (rs : List ChanTrain) (hst : s.glb.state = .start) (hphase : s.cfg.phase = 4)
    (hfirst : s.cfg.dramDone = false) : trainingEffect rs s =
      s.takeTraining (rs.filter fun x => x.ch < s.nChans && !bit s.cmt.fencedRegions (x.ch / 3)) :=
  (if_neg (by simp [hst])).trans (if_neg (by simp [hst, hphase, hfirst]))

/-- A link change of a port that the configuration may bring up. -/
theorem hostLinkEffect_changes {s : Chip} {p : Nat} {up : Bool} (hthere : s.portThere p = true) (hchange : s.portUp p = !up) :
    hostLinkEffect p up s =
      let moved := (({ s with hpx := { s.hpx with up := setBit s.hpx.up p up } } : Chip).train p !up).raise 1 p 1 0 0
        [BitVec.ofNat 8 p, BitVec.ofNat 8 (b2n up), BitVec.ofNat 8 (s.hpx.modes.getD (p / 4) 0)]
      if up then ((moved.reportPort p).announcePort p).tryActive else moved :=
  if_neg (by cases up <;> simp [hthere, hchange])

theorem alternateEffect_noLink {s : Chip} (hst : s.glb.state = .maintenance) (hdown : s.portUp 0 = false) :
    alternateEffect s = ({ s with hpx := { s.hpx with
      c2m := !s.hpx.c2m, c2c := setBit s.hpx.c2c 0 s.hpx.c2m } } : Chip).train 0 s.hpx.c2m := if_pos (by simp [hst, hdown])

/-! ### RESTART (13 R327, 14 R364) -/

theorem restartEffect_starts {s : Chip}
    (hst : s.glb.state = .start ∨ s.glb.state = .maintenance ∨ s.glb.state = .umbra ∨ s.glb.state = .active)
    (hdir : s.pws.dir ≠ 2) (hgoes : s.pws.abandon = false) : restartEffect s = s.beginStart false := by
  unfold restartEffect
  rw [if_neg (by simp [hdir, hgoes])]
  obtain hst | hst | hst | hst := hst
  all_goals rw [hst]

theorem restartEffect_none {s : Chip} (h : s.pws.dir = 2 ∨ s.pws.abandon = true) : restartEffect s = s :=
  if_pos (by simpa using h)

/-- Settles O44: each command of a start by the lemma for its phase. -/
theorem startCommandsComplete : Obligations.StartCommandsComplete := by
  refine ⟨fun s hst hbegun hphase => ⟨?found, ?lacks⟩, fun s slot hst hphase hcand => ⟨fun hgood => ?chosen, fun k hfails => ?passed⟩,
    fun s hst hphase hregions => ?sram, fun s rs hst hphase hfirst => ?training, fun s hst hbegun => ?gate,
    fun s p hthere => ?link, fun s hst hdown => ?alternate,
    fun s q hq hst => ⟨fun hdir hgoes => ?restart, fun hnot => ?noRestart⟩, fun s q hq => ?clear⟩
  case found => exact next_on_congr ((sfdpEffect_S0 true hst hbegun hphase).trans (if_pos rfl))
  case lacks => exact next_on_congr ((sfdpEffect_S0 false hst hbegun hphase).trans (if_neg Bool.false_ne_true))
  case chosen => exact next_on_congr (imageReadEffect_good hst hphase hcand hgood)
  case passed => exact next_on_congr (g := fun _ => _) (imageReadEffect_fails hst hphase hcand hfails)
  case sram => exact next_on_congr (sramInitEffect_clean hst hphase hregions)
  case training => exact next_on_congr (trainingEffect_S4 rs hst hphase hfirst)
  case gate => exact next_on_congr (if_pos (by simp [hst, hbegun]))
  case link =>
    exact ⟨fun hup => next_on_congr (hostLinkEffect_changes (up := false) hthere hup),
      fun hdown => next_on_congr (hostLinkEffect_changes (up := true) hthere hdown)⟩
  case alternate => exact next_on_congr (alternateEffect_noLink hst hdown)
  case restart => exact next_asRole hq (restartEffect_starts hst hdir hgoes)
  case noRestart => exact next_asRole (g := id) hq (restartEffect_none hnot)
  case clear => exact next_asRole hq rfl

end Sys2Proof.Machine
end

section
/-!
Register accesses, their I2C transactions, and GLB_ID and the tables of free connections (O14, O60).
-/
namespace Sys2Proof.Machine

/-! ### Values that a low-word read latches (17 R418) -/

/-- Low words are aligned, and none is a register of key material. -/
theorem latchAddrs_facts : ∀ a ∈ latchAddrs, a % 4 = 0 ∧ (a == 0x1000034 || a == 0x1000038) = false := by decide

theorem Chip.regValue_latched (s : Chip) (otp : Otp) (q : Session) {a : Nat} (ha : latchAddrs.contains a = true) :
    s.regValue otp q a = some (s.wide a % 2 ^ 32) := by
  obtain ⟨haligned, -⟩ := latchAddrs_facts a (by simpa using ha)
  unfold Chip.regValue
  rw [if_neg (by simp [haligned]), if_pos ha]

/-- A low word's read leaves the latch of its session, and nothing else. -/
theorem Chip.readReg_latched {s : Chip} (otp : Otp) (q : Session) {a : Nat} (ha : latchAddrs.contains a = true)
    (hon : s.regOn a = true) : (s.readReg otp q a).2 = s.latch q a := by
  obtain ⟨-, hopen⟩ := latchAddrs_facts a (by simpa using ha)
  unfold Chip.readReg
  rw [if_neg (by simp [hon]), s.regValue_latched otp q ha]
  simp only [Chip.readEffect, hopen, ha, if_true, Bool.false_eq_true, if_false]

theorem Chip.ses_modSes (s : Chip) (q : Session) (f : SesState → SesState) : (s.modSes q f).ses q = f (s.ses q) := by
  cases q with
  | i2c => rfl
  | mgmt c => exact Tab.get_set_same _ _ _ _

theorem Chip.modSes_evr (s : Chip) (q : Session) (f : SesState → SesState) : (s.modSes q f).evr = s.evr := by cases q <;> rfl
theorem Chip.modSes_regs (s : Chip) (q : Session) (f : SesState → SesState) : (s.modSes q f).regs = s.regs := by cases q <;> rfl
theorem Chip.modSes_cnts (s : Chip) (q : Session) (f : SesState → SesState) : (s.modSes q f).cnts = s.cnts := by cases q <;> rfl
theorem Chip.modSes_pgm (s : Chip) (q : Session) (f : SesState → SesState) : (s.modSes q f).pgm = s.pgm := by cases q <;> rfl

/-! ### Counters that a read clears (17 R416) -/

/-- A counter that is no half of a latched value reads a value, its block's or its own. -/
theorem Chip.regValue_counter (s : Chip) (otp : Otp) (q : Session) {a : Nat} (hcounter : s.isCounter a = true)
    (haligned : a % 4 = 0) (hlow : latchAddrs.contains a = false) (hhigh : latchOf a = none) :
    ∃ v, s.regValue otp q a = some v := by
  unfold Chip.regValue
  rw [if_neg (by simp [haligned]), if_neg (by simp only [hlow, Bool.false_eq_true, not_false_eq_true]), hhigh]
  dsimp only
  cases s.readBlock otp q a with
  | some v => exact ⟨v, rfl⟩
  | none => exact ⟨s.cnt a, if_pos hcounter⟩

/-- A counter's read by a session with a role clears it; the draw that key material takes aside, nothing else changes. -/
theorem Chip.readReg_counter {s : Chip} (otp : Otp) {q : Session} {a : Nat} (hcounter : s.isCounter a = true)
    (haligned : a % 4 = 0) (hlow : latchAddrs.contains a = false) (hhigh : latchOf a = none) (hon : s.regOn a = true)
    (hrole : 1 ≤ (s.ses q).role) :
    ∃ n, (s.readReg otp q a).2 = { s with cnts := Tab.set s.cnts 0 a 0, fresh := n } := by
  obtain ⟨v, hv⟩ := s.regValue_counter otp q hcounter haligned hlow hhigh
  have hclear : s.clearCounter q a = { s with cnts := Tab.set s.cnts 0 a 0 } :=
    (if_neg (by simp; omega)).trans (if_pos hcounter)
  unfold Chip.readReg
  rw [if_neg (by simp [hon]), hv]
  simp only [Chip.readEffect, hlow, hclear, Bool.false_eq_true, if_false]
  split
  · exact ⟨_, rfl⟩
  · exact ⟨_, rfl⟩

/-! ### Transactions of the I2C target (17 R410, R411) -/

/-- Bytes spell a number below their width. -/
theorem unle_lt : ∀ bs : List Byte, unle bs < 256 ^ bs.length
  | [] => Nat.one_pos
  | b :: r => by
    have hr := unle_lt r
    have hb := b.isLt
    simp only [unle, List.length_cons, Nat.pow_succ]
    omega

theorem leField_word_lt (bs : List Byte) (off : Nat) : leField bs off 4 < 2 ^ 32 :=
  calc leField bs off 4 < 256 ^ (slice bs off 4).length := unle_lt _
    _ ≤ 256 ^ 4 := Nat.pow_le_pow_right (by decide) (List.length_take_le ..)
    _ = 2 ^ 32 := by decide

/-- A write transaction of an address and one word writes that word. -/
theorem i2cWriteEffect_word {s : State} {bytes : List Byte} (hup : s.chip.glb.aonUp = true) (hpec : s.chip.pecOn = false)
    (hlen : bytes.length = 8) :
    i2cWriteEffect bytes none s = (writeReg .i2c (fieldBe bytes 0 4) (leField bytes 4 4) s).2 := by
  have hdata : (bytes.drop 4).length = 4 := by simp [hlen]
  have hword : bytesWords 1 (bytes.drop 4) = [BitVec.ofNat 32 (leField bytes 4 4)] := rfl
  have hval : (BitVec.ofNat 32 (leField bytes 4 4)).toNat = leField bytes 4 4 :=
    (BitVec.toNat_ofNat ..).trans (Nat.mod_eq_of_lt (leField_word_lt bytes 4))
  unfold i2cWriteEffect i2cData
  simp only [hup, hpec, hlen, hdata, hword, i2cWords, hval, Option.toList_none, List.append_nil, Bool.not_true,
    Bool.false_eq_true, if_false, Bool.false_and, Nat.reduceLT, Nat.reduceDiv, Nat.reduceMod, BEq.rfl, if_true]

/-- A read transaction of one word sends what the register answers. -/
theorem i2cReadEffect_word {s : State} {addr : List Byte} {w : BitVec 32} {u : Chip} (hup : s.chip.glb.aonUp = true)
    (hpec : s.chip.pecOn = false) (hlen : addr.length = 4)
    (hread : s.chip.readReg s.otp .i2c (fieldBe addr 0 4) = (some w, u)) :
    i2cReadEffect addr 1 s = { s with chip := u.emit (.i2c (wordBytes w)) } := by
  have hone : Nat.max 1 1 = 1 := rfl
  unfold i2cReadEffect
  simp only [hup, hpec, hlen, hone, i2cRead, hread, Option.getD_some, List.nil_append, bne_self_eq_false, Bool.not_true,
    Bool.or_self, Bool.false_eq_true, if_false]
  rfl

/-- A write that its session may make is accepted. -/
theorem writeReg_accepts {s : State} {q : Session} {a v cur : Nat} (hon : s.chip.regOn a = true)
    (hcur : s.chip.regValue s.otp q a = some cur) (hrole : s.chip.roleStops q a v cur = false) :
    writeReg q a v s = acceptWrite q a v s := by
  unfold writeReg
  rw [if_neg (by simp [hon]), hcur]
  exact if_neg (by simp [hrole])

/-- Settles O14: writes by `writeReg_accepts`, reads by what they leave of the latch and the counter. -/
theorem registerAccessesComplete : Obligations.RegisterAccessesComplete := by
  refine ⟨fun s q a v cur hlive hon hcur hrole => ?write, fun s q a hlive ha hon => ⟨_, rfl, rfl, rfl, ?latch⟩,
    fun s q a hlive hcounter haligned hlow hhigh hon hrole => ⟨_, rfl, rfl, rfl, ?clear⟩,
    fun s bytes hup hpec hlen => congrArg _ (i2cWriteEffect_word hup hpec hlen),
    fun s addr w u hup hpec hlen hread => congrArg _ (i2cReadEffect_word hup hpec hlen hread), fun s => rfl⟩
  case write => exact congrArg _ ((if_pos hlive).trans (congrArg Prod.snd (writeReg_accepts hon hcur hrole)))
  case latch =>
    have hrun : latchingReadEffect s.otp q a s.chip = s.chip.latch q a :=
      (if_pos (by rw [hlive, ha]; rfl)).trans (Chip.readReg_latched s.otp q ha hon)
    simp only [State.on_chip, hrun, Chip.latch, Chip.ses_modSes, Chip.modSes_evr, Chip.modSes_regs, Chip.modSes_cnts,
      Chip.modSes_pgm, Tab.find_ins_same, and_self]
  case clear =>
    obtain ⟨n, hread⟩ := Chip.readReg_counter s.otp hcounter haligned hlow hhigh hon hrole
    have hrun : clearingReadEffect s.otp q a s.chip = { s.chip with cnts := Tab.set s.chip.cnts 0 a 0, fresh := n } :=
      (if_pos (by rw [hlive, hcounter]; rfl)).trans hread
    simp only [State.on_chip, hrun, Chip.cnt, Tab.get_set_same, true_and, and_true]
    exact fun b hb => Tab.get_set_other _ _ _ _ hb _

/-! ### GLB_ID and the tables of connections (17 R420, R423) -/

/-- GLB_ID as a number: revision, die and DEGRADED. -/
theorem Chip.regValue_glbId (s : Chip) (otp : Otp) (q : Session) :
    s.regValue otp q 0 = some (0xB0 * 2 ^ 24 + 0x4810 * 256 + b2n s.glb.degraded) :=
  Chip.regValue_of_readBlock rfl rfl rfl rfl

/-- Registers below LCC's ranges are no half of a latched value. -/
theorem latchAddrs_above {a : Nat} (ha : a < 0x6E0010) : latchAddrs.contains a = false := by
  simp only [latchAddrs, List.contains_eq_mem, decide_eq_false_iff_not, List.mem_cons, List.not_mem_nil, or_false]
  omega

/-- A register of XPT reads what its block says. -/
theorem Chip.regValue_xpt {s : Chip} {otp : Otp} {q : Session} {a v : Nat} (haligned : a % 4 = 0) (hblock : a / 0x100000 = 2)
    (h : s.readXpt a = some v) : s.regValue otp q a = some v := by
  refine Chip.regValue_of_readBlock haligned (latchAddrs_above (by omega)) (latchAddrs_above (by omega)) ?_
  simp only [Chip.readBlock, hblock]
  exact h

theorem Chip.readXpt_ctl (s : Chip) {n : Nat} (hn : n < 16384) : s.readXpt (0x220000 + 4 * n) = some 0 := by
  have harray : inArray (0x220000 + 4 * n) 0x220000 16384 4 = true := by
    simp only [inArray, Bool.and_eq_true, decide_eq_true_eq, beq_iff_eq]
    omega
  exact if_pos harray

theorem Chip.readXpt_sts (s : Chip) {n k : Nat} (hn : n < 16384) (hk : k < 4) :
    s.readXpt (0x240000 + 16 * n + 4 * k) = some (s.connWord n k) := by
  have hctl : inArray (0x240000 + 16 * n + 4 * k) 0x220000 16384 4 = false := by
    simp [inArray]
    omega
  have hsts : inArray (0x240000 + 16 * n + 4 * k) 0x240000 65536 4 = true := by
    simp only [inArray, Bool.and_eq_true, decide_eq_true_eq, beq_iff_eq]
    omega
  have hconn : (0x240000 + 16 * n + 4 * k - 0x240000) / 16 = n := by omega
  have hword : (0x240000 + 16 * n + 4 * k) % 16 / 4 = k := by omega
  simp only [Chip.readXpt, hctl, hsts, hconn, hword, Bool.false_eq_true, if_false, if_true]

theorem Chip.connWord_free {s : Chip} {n : Nat} (hfree : s.conn n = none) (k : Nat) : s.connWord n k = 0 := by
  unfold Chip.connWord
  rw [hfree]

/-- Settles O60: GLB_ID by its fields, the tables by their entries. -/
theorem identityAndFreeConnectionsRead : Obligations.IdentityAndFreeConnectionsRead := by
  refine ⟨fun s otp q => ⟨_, s.regValue_glbId otp q, ?fields⟩, fun s otp q n hn =>
    ⟨Chip.regValue_xpt (by omega) (by omega) (s.readXpt_ctl hn), fun k hk => ?entry⟩⟩
  case fields => cases s.glb.degraded <;> decide
  case entry =>
    have hsts : s.regValue otp q (0x240000 + 16 * n + 4 * k) = some (s.connWord n k) :=
      Chip.regValue_xpt (by omega) (by omega) (s.readXpt_sts hn hk)
    exact ⟨⟨_, hsts⟩, fun hfree => hsts.trans (congrArg some (Chip.connWord_free hfree k))⟩

end Sys2Proof.Machine
end
